-- ==== Sys2Proof/Word.lean ====
section
/-! DEFINITION. The word types of the model: bytes and the register words the manual adds, shifts or masks (00 R4, R5).
Identifiers, counts, indexes and extracted bit fields are plain `Nat`. -/

namespace Sys2Proof

/-- One byte of any memory or structure. -/
abbrev Byte := BitVec 8

/-- A 32-bit word: an FP32 value, a configuration key. -/
abbrev W32 := BitVec 32

/-- A 64-bit word: an address register, a result word, a counter. -/
abbrev W64 := BitVec 64

/-- The 384 bits of a command packet's inline parameters (02 R55). -/
abbrev Inline := BitVec 384

/-- The 512 bits of one engine descriptor (06 R209). -/
abbrev Desc := BitVec 512

end Sys2Proof
end

