-- ==== Sys2Proof/Syntax.lean ====
section
/-! DEFINITION. The commands the block takes: one constructor of `Instr` for each row of spec/opcode_table.json, with the
row's operands; and the message and packet types those operands carry. -/

namespace Sys2Proof

/-! ## Host command packets (02 R55 to R57) -/

/-- A command packet as the device sees it: the header fields of 02 R55, the 384 inline bits, and what the device's reads and
writes of host memory for this command meet (02 R56, R57). Host memory itself is outside the block. -/
structure Pkt where
  /-- Submission ring the packet is taken from. -/
  sq : Nat := 0
  /-- Header `opcode`, bits [15:0], where it is none that R69 defines; `none`: the row's own. -/
  undef : Option (BitVec 16) := none
  /-- Header `tag`, bits [31:16]. -/
  tag : BitVec 16 := 0
  /-- Header `handle`, bits [63:32]. -/
  handle : Nat := 0
  /-- Header `fence`, bit [64]. -/
  fence : Bool := false
  /-- Header `irq`, bit [65]. -/
  irq : Bool := false
  /-- Header reserved bits [71:66]. -/
  hrsv : BitVec 6 := 0
  /-- Header `ext_len`, bits [83:72]. -/
  extLen : Nat := 0
  /-- Header `ext_addr`, bits [127:84]. -/
  extAddr : Nat := 0
  /-- Inline parameters, bytes 16 to 63. -/
  inl : Inline := 0
  /-- What the read of the extended block gives; `none` is a read fault (R57). -/
  ext : Option (List Byte) := some []
  /-- What the read of host data named by the parameters gives (prompt, tokens, keys, manifest); `none` is a read fault. -/
  data : Option (List Byte) := some []
  /-- The read of the 64-byte packet itself failed (R57). -/
  fetchFault : Bool := false
  /-- Writes to the command's result buffer fail (R57). -/
  wfault : Bool := false
  deriving DecidableEq, Repr

/-! ## Hinge messages (04 R127, 03 R91, R92; the bit layout is private to V40 devices, 12 R380) -/

/-- What every hinge message carries: its sender, the map epoch, the region opened on the destination, the context handle it
names and the attempt number (04 R127, R124). -/
structure HHdr where
  /-- Node that sent the message. -/
  src : Nat := 0
  /-- Sender's map epoch. -/
  epoch : Nat := 0
  /-- Region opened on the destination; 0 names a prompt node's latch by its context handle (04 R124). -/
  region : Nat := 0
  /-- Context handle on the receiver, where the message names one. -/
  handle : Nat := 0
  /-- Attempt number. -/
  attempt : Nat := 0
  /-- Packet sequence number of 12 R382. -/
  seq : Nat := 0
  deriving DecidableEq, Repr

/-- Sampling parameters of a request (03 R87, 09 R299). -/
structure Sampling where
  /-- Generator seed. -/
  seed : W64 := 0
  /-- FP32 temperature. -/
  temperature : W32 := 0
  /-- FP32 top-p bound. -/
  topP : W32 := 0
  /-- FP32 min-p bound. -/
  minP : W32 := 0
  /-- Top-k bound. -/
  topK : Nat := 0
  /-- Stop tokens in use. -/
  stopCount : Nat := 0
  /-- The eight stop token entries. -/
  stopTokens : List Nat := []
  deriving DecidableEq, Repr

/-- The fixed fields of a request, carried by a region opening (03 R91). -/
structure ReqFixed where
  /-- Tenant. -/
  tenant : Nat := 0
  /-- Job. -/
  job : Nat := 0
  /-- Request class: true BE, false LC. -/
  be : Bool := false
  /-- `request_uid`. -/
  uid : W64 := 0
  /-- Host cookie. -/
  cookie : W64 := 0
  /-- Prompt length in tokens. -/
  promptLen : Nat := 0
  /-- Maximum sequence length. -/
  maxLen : Nat := 0
  /-- Destination named at admission. -/
  destNode : Nat := 0
  /-- Output ring on the destination. -/
  outRing : Nat := 0
  /-- First-token deadline in µs, 0 for BE. -/
  firstDeadlineUs : Nat := 0
  /-- Per-token deadline in µs, 0 for BE. -/
  tokenDeadlineUs : Nat := 0
  /-- Sampling parameters and stop tokens. -/
  samp : Sampling := {}
  deriving DecidableEq, Repr

/-- The fields PREPARE installs (03 R91, 04 R127): the moving part of the record and the grammar state. -/
structure ReqMoving where
  /-- Next position to produce. -/
  position : Nat := 0
  /-- TOKEN entries written. -/
  delivered : Nat := 0
  /-- Current grammar state. -/
  grammarState : Nat := 0
  /-- First output token committed. -/
  firstDone : Bool := false
  /-- Paused by PAUSE. -/
  pauseHost : Bool := false
  /-- Paused by the step scheduler. -/
  pauseSched : Bool := false
  /-- Held on a cache node. -/
  pauseParked : Bool := false
  /-- First-token deadline missed. -/
  firstMiss : Bool := false
  /-- Per-token misses. -/
  tokenMisses : Nat := 0
  /-- Times paused by the step scheduler. -/
  schedPauses : Nat := 0
  /-- Total µs in PAUSED. -/
  pausedUs : Nat := 0
  /-- Age at latch commit. -/
  tHandoffUs : Nat := 0
  /-- Age at the first output token's commit. -/
  tFirstUs : Nat := 0
  /-- Age at the latest output token's commit. -/
  tLastUs : Nat := 0
  /-- Positions reused from a sealed prefix. -/
  prefixReused : Nat := 0
  /-- Deadlines recorded as missed but not written (03 R99): true for the first-token deadline, and token positions. -/
  unwrittenFirst : Bool := false
  /-- Token positions of recorded, unwritten per-token misses. -/
  unwrittenTokens : List Nat := []
  /-- The position whose deadline miss was last recorded or written, 0 if none. -/
  lastMissPos : Nat := 0
  /-- Tokens from position `promptLen` - 1 on. -/
  tokens : List Nat := []
  deriving DecidableEq, Repr

/-- The other copy of a mirrored request as a comparison of 04 R154 reads it over the twin link. -/
structure TwinCopy where
  /-- Context handle of the request on this device. -/
  handle : Nat := 0
  /-- The other copy's `write_stamp`. -/
  stamp : Nat := 0
  /-- The contents of the two copies are the same. -/
  same : Bool := true
  /-- The other copy's record. -/
  moving : ReqMoving := {}
  /-- The other copy's region, from its first byte on. -/
  bytes : List Byte := []
  deriving DecidableEq, Repr

/-- A PREFIX object as its sealing node sends it (04 R142, R143; the transfer's messages are private to V40 devices). -/
structure ObjFetch where
  /-- Tenant. -/
  tenant : Nat := 0
  /-- Whole blocks held. -/
  blocks : Nat := 0
  /-- Layers. -/
  layers : Nat := 0
  /-- Bytes per token-layer. -/
  rowBytes : Nat := 0
  /-- Block hashes. -/
  hashes : List Nat := []
  /-- Its rows, layer-major. -/
  rows : List Byte := []
  deriving DecidableEq, Repr

/-- A hinge message with its content. -/
inductive HMsg where
  /-- Region opening of 03 R91; the digests of 03 R92 (empty list: none). For MOVE_STATE, `move`, the source region's extents that hold
  data as (index in the region, offset in the source's offset space), and its rows per layer; for SET_MIRROR, the output ring and the
  partition on the twin. -/
  | opening (f : ReqFixed) (model delta grammar : List Byte) (age : Nat) (srcHandle : Nat) (move : Bool) (src : List (Nat × Nat))
      (rows : Nat) (mirror : Option (Nat × Nat))
  /-- Acceptance of an opening: the destination's handle and region, the region's offset there, and for MOVE_STATE the rows pulled. -/
  | accepted (handle region base rows : Nat)
  /-- Refusal of an opening or REFUSE of 04 R127, with its status. -/
  | refuse (status : Nat)
  /-- PREPARE of 04 R127: the moving fields, the age, a stamp and the count of line writes. -/
  | prepare (m : ReqMoving) (age : Nat) (stamp : Nat) (moves : Nat)
  | ready (handle : Nat)
  | commit (age : Nat)
  | commitAck
  | abandon (status : Nat)
  | abandonAck
  | withdraw
  | redirect (node handle : Nat)
  /-- Side-effect-free query of a source context (04 R146). -/
  | query
  deriving DecidableEq, Repr

/-! ## Map and liveness messages (16 R525, 17 R539, 12 R408) -/

/-- SLICE_TABLE payload (16 R525). -/
structure SliceTab where
  /-- Unique ID of the origin. -/
  uid : Nat := 0
  /-- Node number. -/
  node : Nat := 0
  /-- UNNUMBERED bit. -/
  unnumbered : Bool := false
  /-- `manifest_seq` held. -/
  mseq : Nat := 0
  /-- First 16 bytes of the manifest body digest, as a number. -/
  mdig : Nat := 0
  /-- Composed slice mask. -/
  sliceMask : Nat := 0
  /-- Role code. -/
  role : Nat := 0
  /-- Epoch in force. -/
  epoch : Nat := 0
  /-- Neighbour node numbers. -/
  neigh : List Nat := []
  deriving DecidableEq, Repr

/-- MGMT messages. -/
inductive MMsg where
  | boot (uid count : Nat)
  | claim (uid node : Nat)
  | sliceTable (t : SliceTab)
  | propose (epoch uid members mdig digest : Nat)
  | ack (epoch count : Nat) (nak : Bool)
  | commit (epoch digest : Nat)
  | heartbeat (uid node epoch : Nat)
  | probe (uid node target number : Nat)
  | probeAnswer (uid node target number : Nat)
  | nodeDown (node cause reporter : Nat)
  | jobFault (job gen cause target : Nat)
  | jobFaultAck (job gen : Nat)
  | teardown (job gen cause target reporter : Nat)
  deriving DecidableEq, Repr

/-! ## Fabric packets (12 R379, R380) and flits (13 R418 to R424) -/

/-- A packet's payload: bytes as 12 R380 fixes them, or a typed hinge or MGMT message. -/
inductive Payload where
  | bytes (b : List Byte)
  | hinge (h : HHdr) (m : HMsg)
  | mgmt (m : MMsg)
  deriving DecidableEq, Repr

/-- A fabric packet: the header of 12 R379 and its payload. -/
structure FPkt where
  /-- `pkt_type`. -/
  ptype : Nat := 0
  /-- `class`: 0 STEP, 1 PUSH, 2 BULK, 3 MGMT. -/
  cls : Nat := 0
  /-- `code`. -/
  code : Nat := 0
  /-- `dst_node`. -/
  dst : Nat := 0
  /-- `src_node`. -/
  src : Nat := 0
  /-- `map_epoch`. -/
  epoch : Nat := 0
  /-- `offset`. -/
  offset : Nat := 0
  /-- `seq`. -/
  seq : Nat := 0
  /-- `tag`. -/
  tag : Nat := 0
  /-- `job_id`. -/
  job : Nat := 0
  /-- `poison`. -/
  poison : Bool := false
  /-- `sealed`. -/
  sld : Bool := false
  /-- Some reserved bit of the header is set. -/
  rsv : Bool := false
  /-- The payload. -/
  pay : Payload := .bytes []
  deriving DecidableEq, Repr

/-- IDENT link message (13 R424). -/
structure Ident where
  /-- Sender's unique ID. -/
  uid : Nat := 0
  /-- Node number. -/
  node : Nat := 0
  /-- UNNUMBERED. -/
  unnumbered : Bool := false
  /-- Map epoch in force. -/
  epoch : Nat := 0
  /-- Sender's link number. -/
  link : Nat := 0
  deriving DecidableEq, Repr

/-- A flit after FEC decoding (13 R418 to R420). -/
structure Flit where
  /-- The 80 slots of 32 bytes, each as a number. -/
  body : List (BitVec 256) := []
  /-- Trailer `flit_seq`. -/
  seq : Nat := 0
  /-- Trailer `ctrl`. -/
  ctrl : Bool := false
  /-- Trailer `ack_v`. -/
  ackV : Bool := false
  /-- Trailer `ack_seq`. -/
  ackSeq : Nat := 0
  /-- Trailer `nak`. -/
  nak : Bool := false
  /-- Trailer `first_hdr`. -/
  firstHdr : Nat := 80
  /-- Trailer `credit_vl`. -/
  creditVl : Nat := 0
  /-- Trailer `credit_slots`. -/
  creditSlots : Nat := 0
  /-- Trailer `crc` (13 R419). -/
  crc : W32 := 0
  deriving DecidableEq, Repr

/-! ## Other operand types -/

/-- Buttons of 17 R549 to R552. -/
inductive Button where
  | port (p : Nat)
  | drive (d : Nat)
  | module
  deriving DecidableEq, Repr

/-- Base address registers of 02 R40 that a host register write reaches. -/
inductive Bar where
  | bar0
  | bar4
  deriving DecidableEq, Repr

/-- What the device measures over one power window (01 R24, 18 R575). -/
structure PowerMeas where
  /-- Compute power in W. -/
  compute : Nat := 0
  /-- HBM power in W. -/
  hbm : Nat := 0
  /-- Fabric power in W. -/
  fabric : Nat := 0
  /-- Die temperatures in °C by die code of 17 R548 (16 entries). -/
  dieTemp : List Nat := []
  /-- Stack temperatures in °C (24 entries). -/
  stackTemp : List Nat := []
  deriving DecidableEq, Repr

/-- The engine that runs a descriptor: program context, core index within its kind, engine number (06 R204, 05 R158). -/
structure EngAt where
  /-- Program context ID, partition × 8 + slot. -/
  pc : Nat
  /-- Core index, 0 to 47, of the context's core kind. -/
  core : Nat
  /-- Engine number, 0 to 8. -/
  eng : Nat
  deriving DecidableEq, Repr

/-- The eight SPDM requests of 16 R513, and any other. -/
inductive SpdmReq where
  | getVersion | getCapabilities | negotiateAlgorithms | getDigests | getCertificate (slot offset len : Nat)
  | challenge (slot : Nat) (nonce : List Byte) | getMeasurements (nonce : List Byte) (sign : Bool) (index : Nat)
  | other (code : Nat)
  deriving DecidableEq, Repr

/-- SPDM transports of 16 R513. -/
inductive Transport where
  | doe
  | mctp
  deriving DecidableEq, Repr

/-! ## The commands -/

/-- The commands of the block, in the order of spec/opcode_table.json. -/
inductive Instr where
  -- host commands (02 R69)
  | nop (p : Pkt)
  | createRing (p : Pkt)
  | deleteRing (p : Pkt)
  | configGet (p : Pkt)
  | configSet (p : Pkt)
  | setPowerMode (p : Pkt)
  | getCapabilities (p : Pkt)
  | sampleCounters (p : Pkt)
  | admitRequest (p : Pkt)
  | cancel (p : Pkt)
  | pause (p : Pkt)
  | resume (p : Pkt)
  | queryRequest (p : Pkt)
  | releaseContext (p : Pkt)
  | moveState (p : Pkt)
  | fetchPrefix (p : Pkt)
  | sealPrefix (p : Pkt)
  | queryLatch (p : Pkt)
  | setMirror (p : Pkt)
  | loadImage (p : Pkt)
  | unloadImage (p : Pkt)
  | launchProgram (p : Pkt)
  | readCoreStats (p : Pkt)
  | loadModel (p : Pkt)
  | unloadModel (p : Pkt)
  | readAttnCounters (p : Pkt)
  | loadDelta (p : Pkt)
  | replaceDelta (p : Pkt)
  | unloadDelta (p : Pkt)
  | readExpanderStats (p : Pkt)
  | loadGrammar (p : Pkt)
  | unloadGrammar (p : Pkt)
  | createPartition (p : Pkt)
  | destroyPartition (p : Pkt)
  | bindImage (p : Pkt)
  | unbindImage (p : Pkt)
  | grantExtent (p : Pkt)
  | revokeExtent (p : Pkt)
  | setQuota (p : Pkt)
  | queryQuota (p : Pkt)
  | flushRange (p : Pkt)
  | acquireRange (p : Pkt)
  | publish (p : Pkt)
  | queryNode (p : Pkt)
  | portEnable (p : Pkt)
  | portDisable (p : Pkt)
  | portRetrain (p : Pkt)
  | portDrain (p : Pkt)
  | portRestore (p : Pkt)
  | portStatus (p : Pkt)
  | openReduce (p : Pkt)
  | collectiveClose (p : Pkt)
  | runGather (p : Pkt)
  | runFilter (p : Pkt)
  | setShaper (p : Pkt)
  | stageGateList (p : Pkt)
  | gateListCancel (p : Pkt)
  | readGateList (p : Pkt)
  | samplingQueue (p : Pkt)
  | samplingRing (p : Pkt)
  | createTable (p : Pkt)
  | destroyTable (p : Pkt)
  | insertEntry (p : Pkt)
  | updateEntry (p : Pkt)
  | deleteEntry (p : Pkt)
  | search (p : Pkt)
  | swapShadow (p : Pkt)
  | getEvidence (p : Pkt)
  | getCertificates (p : Pkt)
  | stageManifest (p : Pkt)
  | readEventLog (p : Pkt)
  | serviceDrain (p : Pkt)
  | fabricBoot (p : Pkt)
  | enterLowPower (p : Pkt)
  -- host interface (02 R41 to R54)
  | hostIfEnable (width : Nat) (value : W64)
  | hostIfDisable (width : Nat) (value : W64)
  | hostIfReady
  | teardownComplete
  | registerWrite (bar : Bar) (offset width : Nat) (value : W64)
  | submissionDoorbell (ring width : Nat) (value : W64)
  | completionDoorbell (ring width : Nat) (value : W64)
  | outputDoorbell (ring width : Nat) (value : W64)
  | bar2Access (write : Bool) (offset len : Nat) (data : List Byte)
  | hostLinkDown
  | hotReset
  | d3hotEntry
  | commandTimeout (cmd : Nat)
  | irqDelayExpiry (out : Bool) (ring : Nat)
  | heldTokenWrite (ctx : Nat)
  -- power, board (01 R24, 18)
  | powerWindow (m : PowerMeas)
  | pmbusPoll (rail vout iout : Nat)
  | pmbAlert (status : List (BitVec 16)) (sense : List Nat)
  | timingMonitorReport (cdNeed fdNeed : Nat)
  | dieOvertempTrip (die temp : Nat)
  | prochotAssert
  | prochotDeassert
  | sysPwrokRise
  | sysPwrokFall
  | stage1Start
  | firmwareImagesChecked
  | hbmTrainingComplete (failed : List Nat)
  | subtreeGenerated
  | flashReq
  | flashRelease
  | buttonPress (b : Button)
  | abortWindowExpiry (b : Button)
  | drivePresenceChange (d : Nat) (present : Bool) (capacity : Nat)
  | driveFailure (d : Nat)
  | driveIoComplete (op : Nat) (ok : Bool) (data : List Byte)
  | tierTimeout (op : Nat)
  | driveDrainComplete (d : Nat)
  -- links (13)
  | linkTrained (l : Nat)
  | ident (l : Nat) (m : Ident)
  | flitReceive (l : Nat) (f : Flit) (symErrs : List Nat)
  | replayTimerExpiry (l : Nat)
  | laneSignalLoss (l lane : Nat)
  | retrainComplete (l : Nat)
  | retrainTimeout (l : Nat)
  | portDrainEnd (l : Nat)
  | packetStart (l : Nat)
  | shaperRefill (l q : Nat)
  | gateEntryAdvance (l : Nat)
  | gateAdopt (l : Nat)
  | packetForward (l : Nat) (p : FPkt)
  -- fabric memory (12)
  | read (l : Nat) (p : FPkt)
  | write (l : Nat) (p : FPkt)
  | atomic (l : Nat) (p : FPkt)
  | readData (l : Nat) (p : FPkt)
  | ack (l : Nat) (p : FPkt)
  | nack (l : Nat) (p : FPkt)
  | atomicData (l : Nat) (p : FPkt)
  | pendingRsp (l : Nat) (p : FPkt)
  | publishPacket (l : Nat) (p : FPkt)
  | publishResp (l : Nat) (p : FPkt)
  | versionRead (l : Nat) (p : FPkt)
  | versionData (l : Nat) (p : FPkt)
  | fabricTxnTimeout (txn : Nat)
  | twinInvalidate (addr : Nat)
  | collLineTimeout (eng sess line : Nat)
  -- hinge (04)
  | regionOpening (h : HHdr) (f : ReqFixed) (model delta grammar : List Byte) (age srcHandle : Nat) (move : Bool) (src : List (Nat × Nat)) (rows : Nat) (mirror : Option (Nat × Nat))
  | openingResponse (h : HHdr) (ok : Bool) (status handle base rows : Nat)
  | prepare (h : HHdr) (m : ReqMoving) (age stamp moves : Nat)
  | ready (h : HHdr) (destHandle : Nat)
  | commit (h : HHdr) (age : Nat)
  | commitAck (h : HHdr)
  | refuse (h : HHdr) (status : Nat)
  | abandon (h : HHdr) (status : Nat)
  | abandonAck (h : HHdr)
  | withdraw (h : HHdr)
  | redirect (h : HHdr) (node handle : Nat)
  | sourceQuery (h : HHdr) (twin : List TwinCopy)
  | moveStateBoundExpiry (cmd : Nat)
  | prefixLookup (ctx : Nat)
  | prefixFetchComplete (ctx : Nat) (ok : Bool) (obj : Option ObjFetch)
  | layerPushStart (ctx layer : Nat)
  -- requests and steps (03, 06 R208, 07, 09 R310)
  | workItemWrite (pc kind : Nat) (seqs : List Nat) (firstLayer layerCount : Nat)
  | prefillLayerDone (pc : Nat)
  | stepCommit (part : Nat)
  | deadlinePass (ctx : Nat)
  | demoteCheck
  | demotionCommit (ctx : Nat)
  | recallCommit (ctx : Nat)
  | recallTimeout (ctx : Nat)
  | ctxRetainExpiry (ctx : Nat)
  | fwdRecordCheck
  | mirrorScrub (twins : List TwinCopy)
  | twinLinkFail
  | twinLinkReturn (twins : List TwinCopy)
  | extentDrainEnd (tier ext : Nat)
  | extentDrainTimeout (tier ext : Nat)
  | scrubComplete (tier ext : Nat)
  -- engine descriptors (06 R209 to R226)
  | descNop (e : EngAt) (d : Desc)
  | set (e : EngAt) (d : Desc)
  | add (e : EngAt) (d : Desc)
  | mul (e : EngAt) (d : Desc)
  | ldreg (e : EngAt) (d : Desc)
  | loop (e : EngAt) (d : Desc)
  | halt (e : EngAt) (d : Desc)
  | load (e : EngAt) (d : Desc)
  | gather (e : EngAt) (d : Desc)
  | store (e : EngAt) (d : Desc)
  | scatter (e : EngAt) (d : Desc)
  | descAtomic (e : EngAt) (d : Desc)
  | matmul (e : EngAt) (d : Desc)
  | vopAdd (e : EngAt) (d : Desc)
  | vopSub (e : EngAt) (d : Desc)
  | vopMul (e : EngAt) (d : Desc)
  | vopFma (e : EngAt) (d : Desc)
  | vopMax (e : EngAt) (d : Desc)
  | vopMin (e : EngAt) (d : Desc)
  | cmpgt (e : EngAt) (d : Desc)
  | select (e : EngAt) (d : Desc)
  | convert (e : EngAt) (d : Desc)
  | exp (e : EngAt) (d : Desc)
  | recip (e : EngAt) (d : Desc)
  | rsqrt (e : EngAt) (d : Desc)
  | rowsum (e : EngAt) (d : Desc)
  | rowmax (e : EngAt) (d : Desc)
  | drain (e : EngAt) (d : Desc)
  | ward (e : EngAt) (d : Desc)
  -- program contexts (05 R182, 10)
  | engineQueueTimeout (e : EngAt)
  | sliceEnd (part : Nat) (decode : Bool)
  | yieldRequest (part : Nat) (decode : Bool)
  | contextStopped (part : Nat) (decode : Bool)
  | preemptBoundExpiry (part : Nat) (decode : Bool)
  | saveComplete (part : Nat) (decode : Bool)
  | restoreComplete (part : Nat) (decode : Bool)
  -- Tumbler (15)
  | tumblerIdleCycle (die : Nat)
  | insertTimeout (cmd : Nat)
  | cascadeToken (tok : BitVec 512) (crcOk : Bool)
  | cascadeTimeout (seq : Nat)
  | cascadeProbeTimer
  -- fabric boot (16 R523 to R529)
  | boot (l : Nat) (uid count epoch : Nat)
  | linkPhaseEnd
  | claim (l : Nat) (uid node epoch : Nat)
  | sliceTable (l : Nat) (t : SliceTab)
  | floodQuietExpiry
  | propose (l : Nat) (epoch uid members mdig digest : Nat)
  | agreeAck (l : Nat) (from_ epoch count : Nat) (nak : Bool)
  | agreeTimeout
  | mapCommit (l : Nat) (epoch digest : Nat)
  -- liveness, recovery (17, 12 R408)
  | heartbeatTimer
  | heartbeat (l : Nat) (uid node epoch : Nat)
  | probe (l : Nat) (uid node target number : Nat)
  | probeAnswer (l : Nat) (uid node target number : Nat)
  | probeInterval (node : Nat)
  | nodeDown (l : Nat) (node cause reporter : Nat)
  | jobFault (src job gen cause target : Nat)
  | teardown (job gen cause target reporter : Nat)
  | dieHeartbeatTimeout (die : Nat)
  | ctlWatchdogExpiry (core : Nat)
  | controlRestartComplete (badCtx badLatch : List Nat)
  | moduleDrainTimeout
  -- identity and management bus (16 R513 to R515)
  | spdmRequest (t : Transport) (r : SpdmReq)
  | vendorDefinedRequest (t : Transport) (code : Nat)
  | entdaa (addr : Nat)
  | rstdaa
  -- completions (16, 17, 18)
  | objectCopyComplete (op : Nat) (obj : Option ObjFetch)
  | driveTrained (d : Nat) (ok : Bool)
  | peerDetected (l : Nat)
  | i3cBusReset
  | mctpControlMessage (msg : List Byte)
  | flashWriteComplete
  | selfRefreshExit
  | drainRefusedPatternEnd (p : Nat)
  deriving DecidableEq, Repr

end Sys2Proof
end

