-- ==== Sys2Proof/Machine/Bits.lean ====
section
/-! DEFINITION. Bit fields, little-endian byte strings and record packing (00 R4, R5): the one place where structures that the
device reads or writes are taken apart and put together. -/

namespace Sys2Proof.Machine

/-- Field [hi:lo] of a word or structure held as a number (00 R5). -/
def fld (v hi lo : Nat) : Nat := v / 2 ^ lo % 2 ^ (hi + 1 - lo)

/-- Bit [i] of a word or structure held as a number. -/
def bitAt (v i : Nat) : Bool := v / 2 ^ i % 2 == 1

/-- The number whose bytes, lowest address first, are the given ones (00 R4). -/
def leNat : List Byte → Nat
  | [] => 0
  | b :: bs => b.toNat + 256 * leNat bs

/-- The `n` little-endian bytes of a number (00 R4). -/
def toLE : Nat → Nat → List Byte
  | 0, _ => []
  | n + 1, v => BitVec.ofNat 8 v :: toLE n (v / 256)

/-- A structure built of fields (width, value), the first at bit 0; a value is cut to its width. -/
def pack : List (Nat × Nat) → Nat
  | [] => 0
  | (w, v) :: fs => v % 2 ^ w + 2 ^ w * pack fs

/-- 1 for true, 0 for false, as a one-bit field holds it. -/
def b2n (b : Bool) : Nat := if b then 1 else 0

/-- `n` bytes at byte offset `off` of a byte string, read as a little-endian number. -/
def bytesAt (bs : List Byte) (off n : Nat) : Nat := leNat ((bs.drop off).take n)

/-- Field [hi:lo] of a byte string, bits counted from its first byte (02 R56). -/
def bfld (bs : List Byte) (hi lo : Nat) : Nat :=
  bytesAt bs (lo / 8) (hi / 8 + 1 - lo / 8) / 2 ^ (lo % 8) % 2 ^ (hi + 1 - lo)

/-- Every bit of the listed ranges [hi:lo] is zero. -/
def rangesZero (v : Nat) (rs : List (Nat × Nat)) : Bool := rs.all fun r => fld v r.1 r.2 == 0

/-- Every byte is zero. -/
def allZero (bs : List Byte) : Bool := bs.all (· == 0)

/-- Signed value of a `w`-bit field. -/
def sext (w v : Nat) : Int := if v % 2 ^ w < 2 ^ (w - 1) then (v % 2 ^ w : Nat) else (v % 2 ^ w : Nat) - (2 ^ w : Nat)

/-- The `w`-bit two's complement field of an integer. -/
def wrapInt (w : Nat) (i : Int) : Nat := (i % (2 ^ w : Nat)).toNat

/-- `a` divided by `b`, rounded up. -/
def ceilDiv (a b : Nat) : Nat := a / b + (if a % b = 0 then 0 else 1)

/-- Number of bits set among the low `n` bits. -/
def popCount (n v : Nat) : Nat := ((List.range n).filter (bitAt v ·)).length

/-- The numbers below `n` whose bits are set, lowest first. -/
def bitsSet (n v : Nat) : List Nat := (List.range n).filter (bitAt v ·)

/-- The mask with the listed bits set. -/
def maskOf : List Nat → Nat
  | [] => 0
  | i :: is => Nat.lor (2 ^ i) (maskOf is)

/-- `v` with bit `i` set to `b`. -/
def setBit (v i : Nat) (b : Bool) : Nat := v - 2 ^ i * (v / 2 ^ i % 2) + 2 ^ i * b2n b

/-- A byte string padded with zeros (or cut) to `n` bytes. -/
def padTo (n : Nat) (bs : List Byte) : List Byte := bs.take n ++ List.replicate (n - bs.length) 0

/-- A byte string cut into pieces of `n` bytes; `fuel` bounds the count of pieces. -/
def chunks (n : Nat) : Nat → List Byte → List (List Byte)
  | 0, _ => []
  | _ + 1, [] => []
  | k + 1, bs => bs.take n :: chunks n k (bs.drop n)

end Sys2Proof.Machine
end

