-- ==== Sys2Proof/Machine/Crypto.lean ====
section
/-! DEFINITION. The published algorithms the spec names: SHA-384, SHA-256, AES-128, CRC-32, ECDSA P-384 and LMS verification (04 R139, 06
R195, 09 R301, 13 R419, 16 R499 to R501, R519). Their internals are taken from their standards (PRESUMED, log entry 18). -/

namespace Sys2Proof.Machine

/-! ## Octet strings, most significant byte first (16 R499) -/

def beNat (bs : List Byte) : Nat := bs.foldl (fun n b => n * 256 + b.toNat) 0
def toBE (n v : Nat) : List Byte := (toLE n v).reverse

/-! ## SHA-384 and SHA-256 (FIPS 180-4) -/

/-- Rotation and shift amounts of one variant: big sigmas 0 and 1, small sigmas 0 and 1 (the last amount of these a shift). -/
structure ShaRot where
  e0 : Nat × Nat × Nat
  e1 : Nat × Nat × Nat
  s0 : Nat × Nat × Nat
  s1 : Nat × Nat × Nat

def rot512 : ShaRot := ⟨(28, 34, 39), (14, 18, 41), (1, 8, 7), (19, 61, 6)⟩
def rot256 : ShaRot := ⟨(2, 13, 22), (6, 11, 25), (7, 18, 3), (17, 19, 10)⟩

/-- The 80 round constants of SHA-384; the first 64, cut to their upper halves, are those of SHA-256. -/
def shaK : List Nat :=
  [0x428A2F98D728AE22, 0x7137449123EF65CD, 0xB5C0FBCFEC4D3B2F, 0xE9B5DBA58189DBBC, 0x3956C25BF348B538,
   0x59F111F1B605D019, 0x923F82A4AF194F9B, 0xAB1C5ED5DA6D8118, 0xD807AA98A3030242, 0x12835B0145706FBE,
   0x243185BE4EE4B28C, 0x550C7DC3D5FFB4E2, 0x72BE5D74F27B896F, 0x80DEB1FE3B1696B1, 0x9BDC06A725C71235,
   0xC19BF174CF692694, 0xE49B69C19EF14AD2, 0xEFBE4786384F25E3, 0x0FC19DC68B8CD5B5, 0x240CA1CC77AC9C65,
   0x2DE92C6F592B0275, 0x4A7484AA6EA6E483, 0x5CB0A9DCBD41FBD4, 0x76F988DA831153B5, 0x983E5152EE66DFAB,
   0xA831C66D2DB43210, 0xB00327C898FB213F, 0xBF597FC7BEEF0EE4, 0xC6E00BF33DA88FC2, 0xD5A79147930AA725,
   0x06CA6351E003826F, 0x142929670A0E6E70, 0x27B70A8546D22FFC, 0x2E1B21385C26C926, 0x4D2C6DFC5AC42AED,
   0x53380D139D95B3DF, 0x650A73548BAF63DE, 0x766A0ABB3C77B2A8, 0x81C2C92E47EDAEE6, 0x92722C851482353B,
   0xA2BFE8A14CF10364, 0xA81A664BBC423001, 0xC24B8B70D0F89791, 0xC76C51A30654BE30, 0xD192E819D6EF5218,
   0xD69906245565A910, 0xF40E35855771202A, 0x106AA07032BBD1B8, 0x19A4C116B8D2D0C8, 0x1E376C085141AB53,
   0x2748774CDF8EEB99, 0x34B0BCB5E19B48A8, 0x391C0CB3C5C95A63, 0x4ED8AA4AE3418ACB, 0x5B9CCA4F7763E373,
   0x682E6FF3D6B2B8A3, 0x748F82EE5DEFB2FC, 0x78A5636F43172F60, 0x84C87814A1F0AB72, 0x8CC702081A6439EC,
   0x90BEFFFA23631E28, 0xA4506CEBDE82BDE9, 0xBEF9A3F7B2C67915, 0xC67178F2E372532B, 0xCA273ECEEA26619C,
   0xD186B8C721C0C207, 0xEADA7DD6CDE0EB1E, 0xF57D4F7FEE6ED178, 0x06F067AA72176FBA, 0x0A637DC5A2C898A6,
   0x113F9804BEF90DAE, 0x1B710B35131C471B, 0x28DB77F523047D84, 0x32CAAB7B40C72493, 0x3C9EBE0A15C9BEBC,
   0x431D67C49C100D4C, 0x4CC5D4BECB3E42B6, 0x597F299CFC657E2A, 0x5FCB6FAB3AD6FAEC, 0x6C44198C4A475817]

/-- Initial hash value of SHA-384, and the value whose upper halves start SHA-256. -/
def iv384 : List Nat :=
  [0xCBBB9D5DC1059ED8, 0x629A292A367CD507, 0x9159015A3070DD17, 0x152FECD8F70E5939, 0x67332667FFC00B31,
   0x8EB44A8768581511, 0xDB0C2E0D64F98FA7, 0x47B5481DBEFA4FA4]
def iv512 : List Nat :=
  [0x6A09E667F3BCC908, 0xBB67AE8584CAA73B, 0x3C6EF372FE94F82B, 0xA54FF53A5F1D36F1, 0x510E527FADE682D1,
   0x9B05688C2B3E6C1F, 0x1F83D9ABFB41BD6B, 0x5BE0CD19137E2179]

section
variable {w : Nat}

def bigSigma (r : Nat × Nat × Nat) (x : BitVec w) : BitVec w := x.rotateRight r.1 ^^^ x.rotateRight r.2.1 ^^^ x.rotateRight r.2.2
def smallSigma (r : Nat × Nat × Nat) (x : BitVec w) : BitVec w := x.rotateRight r.1 ^^^ x.rotateRight r.2.1 ^^^ x >>> r.2.2

/-- The eight working variables. -/
structure ShaSt (w : Nat) where
  a : BitVec w
  b : BitVec w
  c : BitVec w
  d : BitVec w
  e : BitVec w
  f : BitVec w
  g : BitVec w
  h : BitVec w

/-- One round with its constant and schedule word. -/
def shaRound (r : ShaRot) (s : ShaSt w) (k m : BitVec w) : ShaSt w :=
  let t1 := s.h + bigSigma r.e1 s.e + ((s.e &&& s.f) ^^^ (~~~s.e &&& s.g)) + k + m
  let t2 := bigSigma r.e0 s.a + ((s.a &&& s.b) ^^^ (s.a &&& s.c) ^^^ (s.b &&& s.c))
  ⟨t1 + t2, s.a, s.b, s.c, s.d + t1, s.e, s.f, s.g⟩

/-- The rounds, over a sliding window of 16 schedule words. -/
def shaRounds (r : ShaRot) : List (BitVec w) → ShaSt w → List (BitVec w) → ShaSt w
  | [], s, _ => s
  | k :: ks, s, win =>
    let at_ (i : Nat) : BitVec w := win.getD i 0
    let next := smallSigma r.s1 (at_ 14) + at_ 9 + smallSigma r.s0 (at_ 1) + at_ 0
    shaRounds r ks (shaRound r s k (at_ 0)) (win.drop 1 ++ [next])

/-- One block. -/
def shaBlock (r : ShaRot) (ks : List (BitVec w)) (s : ShaSt w) (block : List Byte) : ShaSt w :=
  let t := shaRounds r ks s ((chunks (w / 8) 16 block).map fun c => BitVec.ofNat w (beNat c))
  ⟨s.a + t.a, s.b + t.b, s.c + t.c, s.d + t.d, s.e + t.e, s.f + t.f, s.g + t.g, s.h + t.h⟩

/-- A message padded to whole blocks of 2w bytes. -/
def shaPad (w : Nat) (m : List Byte) : List Byte :=
  let z := (2 * w - (m.length + 1 + w / 4) % (2 * w)) % (2 * w)
  m ++ [0x80] ++ List.replicate z 0 ++ toBE (w / 4) (8 * m.length)

/-- The eight words of the digest, as octets. -/
def sha (w : Nat) (r : ShaRot) (ks iv : List Nat) (m : List Byte) : List Byte :=
  let word (n : Nat) : BitVec w := BitVec.ofNat w (n / 2 ^ (64 - w))
  let at_ (i : Nat) : BitVec w := word (iv.getD i 0)
  let p := shaPad w m
  let s := (chunks (2 * w) p.length p).foldl (shaBlock r (ks.map word)) ⟨at_ 0, at_ 1, at_ 2, at_ 3, at_ 4, at_ 5, at_ 6, at_ 7⟩
  [s.a, s.b, s.c, s.d, s.e, s.f, s.g, s.h].flatMap fun x => toBE (w / 8) x.toNat

end

def sha384 (m : List Byte) : List Byte := (sha 64 rot512 shaK iv384 m).take 48
def sha256 (m : List Byte) : List Byte := sha 32 rot256 (shaK.take 64) iv512 m

/-! ## AES-128 (FIPS 197) -/

/-- Multiplication by x in GF(2^8). -/
def xtime (b : Byte) : Byte := (b <<< 1) ^^^ (if b.msb then 0x1B else 0)
/-- Multiplication in GF(2^8), `n` bits of the second factor used. -/
def gmul : Nat → Byte → Byte → Byte
  | 0, _, _ => 0
  | n + 1, a, b => (if b.getLsbD 0 then a else 0) ^^^ gmul n (xtime a) (b >>> 1)
/-- The power b^254, the inverse of a non-zero byte. -/
def ginv (b : Byte) : Byte :=
  let sq (x : Byte) := gmul 8 x x
  let b2 := sq b
  let b4 := sq b2
  let b8 := sq b4
  let b16 := sq b8
  let b32 := sq b16
  let b64 := sq b32
  gmul 8 (gmul 8 (gmul 8 b2 b4) (gmul 8 b8 b16)) (gmul 8 (gmul 8 b32 b64) (sq b64))
def subByte (b : Byte) : Byte :=
  let i := ginv b
  i ^^^ i.rotateLeft 1 ^^^ i.rotateLeft 2 ^^^ i.rotateLeft 3 ^^^ i.rotateLeft 4 ^^^ 0x63

def xorBytes (a b : List Byte) : List Byte := List.zipWith (· ^^^ ·) a b

/-- The next round key, with its round constant. -/
def nextKey (k : List Byte) (rc : Byte) : List Byte :=
  let w (i : Nat) : List Byte := (k.drop (4 * i)).take 4
  let r := ((w 3).drop 1 ++ (w 3).take 1).map subByte
  let w0 := xorBytes (w 0) (xorBytes r [rc, 0, 0, 0])
  let w1 := xorBytes (w 1) w0
  let w2 := xorBytes (w 2) w1
  w0 ++ w1 ++ w2 ++ xorBytes (w 3) w2

/-- ShiftRows on the column-major state. -/
def shiftRows (s : List Byte) : List Byte := (List.range 16).map fun i => s.getD ((i + 4 * (i % 4)) % 16) 0

/-- MixColumns. -/
def mixColumns (s : List Byte) : List Byte :=
  (chunks 4 4 s).flatMap fun c =>
    (List.range 4).map fun i =>
      let at_ (k : Nat) : Byte := c.getD ((i + k) % 4) 0
      xtime (at_ 0) ^^^ (xtime (at_ 1) ^^^ at_ 1) ^^^ at_ 2 ^^^ at_ 3

/-- Rounds with the round constants left; the last one mixes no columns. -/
def aesRounds : List Byte → List Byte → List Byte → List Byte
  | [], _, s => s
  | rc :: rcs, k, s =>
    let k' := nextKey k rc
    let t := shiftRows (s.map subByte)
    aesRounds rcs k' (xorBytes (if rcs.isEmpty then t else mixColumns t) k')

def aes128 (key block : List Byte) : List Byte :=
  aesRounds [0x01, 0x02, 0x04, 0x08, 0x10, 0x20, 0x40, 0x80, 0x1B, 0x36] key (xorBytes block key)

/-! ## CRC-32 of IEEE 802.3 (13 R419) -/

/-- One bit, least significant first, of the reflected CRC. -/
def crcBit (c : BitVec 32) : BitVec 32 := (c >>> 1) ^^^ (if c.getLsbD 0 then 0xEDB88320 else 0)
def crcByte (c : BitVec 32) (b : Byte) : BitVec 32 :=
  let c := c ^^^ b.setWidth 32
  crcBit (crcBit (crcBit (crcBit (crcBit (crcBit (crcBit (crcBit c)))))))
def crc32 (bs : List Byte) : BitVec 32 := ~~~(bs.foldl crcByte 0xFFFFFFFF)

/-! ## ECDSA P-384 (FIPS 186-4) -/

abbrev p384p := 2 ^ 384 - 2 ^ 128 - 2 ^ 96 + 2 ^ 32 - 1
abbrev p384n := 0xffffffffffffffffffffffffffffffffffffffffffffffffc7634d81f4372ddf581a0db248b0a77aecec196accc52973
abbrev p384b := 0xb3312fa7e23ee7e4988e056be3f82d19181d9c6efe8141120314088f5013875ac656398d8a2ed19d2a85c8edd3ec2aef
abbrev p384gx := 0xaa87ca22be8b05378eb1c71ef320ad746e1d3b628ba79b9859f741e082542a385502f25dbf55296c3a545e3872760ab7
abbrev p384gy := 0x3617de4a96262c6f5d9e98bf9292dc29f8f41dbd289a147ce9da3113b5f0b8c00a60b1ce1d7e819d7a431d7c90ea0e5f

/-- Power modulo `m` by `n` bits of the exponent. -/
def powMod (m : Nat) : Nat → Nat → Nat → Nat
  | 0, _, _ => 1 % m
  | n + 1, b, e => let r := powMod m n (b * b % m) (e / 2); if e % 2 = 1 then b * r % m else r
def invMod (m a : Nat) : Nat := powMod m 384 a (m - 2)

/-- A point in Jacobian coordinates; z = 0 is the point at infinity. -/
structure Jac where
  x : Nat
  y : Nat
  z : Nat

/-- a - b modulo p. -/
def subP (a b : Nat) : Nat := (a + p384p - b % p384p) % p384p

def Jac.dbl (q : Jac) : Jac :=
  if q.z = 0 ∨ q.y = 0 then ⟨1, 1, 0⟩
  else
    let zz := q.z * q.z % p384p
    let yy := q.y * q.y % p384p
    let m := 3 * (subP q.x zz * ((q.x + zz) % p384p) % p384p) % p384p
    let s := 4 * (q.x * yy % p384p) % p384p
    let x := subP (m * m % p384p) (2 * s)
    ⟨x, subP (m * subP s x % p384p) (8 * (yy * yy % p384p)), 2 * (q.y * q.z % p384p) % p384p⟩

def Jac.add (q r : Jac) : Jac :=
  if q.z = 0 then r
  else if r.z = 0 then q
  else
    let z1 := q.z * q.z % p384p
    let z2 := r.z * r.z % p384p
    let u1 := q.x * z2 % p384p
    let u2 := r.x * z1 % p384p
    let s1 := q.y * (z2 * r.z % p384p) % p384p
    let s2 := r.y * (z1 * q.z % p384p) % p384p
    if u1 = u2 then if s1 = s2 then q.dbl else ⟨1, 1, 0⟩
    else
      let h := subP u2 u1
      let t := subP s2 s1
      let hh := h * h % p384p
      let hhh := hh * h % p384p
      let v := u1 * hh % p384p
      let x := subP (subP (t * t % p384p) hhh) (2 * v)
      ⟨x, subP (t * subP v x % p384p) (s1 * hhh), h * (q.z * r.z % p384p) % p384p⟩

/-- k q by `n` bits of k. -/
def Jac.mul (q : Jac) : Nat → Nat → Jac
  | 0, _ => ⟨1, 1, 0⟩
  | n + 1, k => let r := (Jac.mul q n (k / 2)).dbl; if k % 2 = 1 then r.add q else r

/-- Affine x modulo p. -/
def Jac.affX (q : Jac) : Nat := let i := invMod p384p q.z; q.x * (i * i % p384p) % p384p

/-- A 97-byte SEC 1 public key that is a point of the curve. -/
def p384Point (pub : List Byte) : Option (Nat × Nat) :=
  let x := beNat ((pub.drop 1).take 48)
  let y := beNat ((pub.drop 49).take 48)
  if pub.length = 97 ∧ pub.headD 0 = 4 ∧ x < p384p ∧ y < p384p ∧ y * y % p384p = (x * x * x + (p384p - 3) * x + p384b) % p384p then
    some (x, y)
  else none

/-- ECDSA P-384 verification with SHA-384 over a message. -/
def ecdsaVerify (pub msg sig : List Byte) : Bool :=
  let r := beNat (sig.take 48)
  let t := beNat ((sig.drop 48).take 48)
  match p384Point pub with
  | none => false
  | some (x, y) =>
    if sig.length = 96 ∧ 0 < r ∧ r < p384n ∧ 0 < t ∧ t < p384n then
      let w := invMod p384n t
      let q := (Jac.mul ⟨p384gx, p384gy, 1⟩ 384 (beNat (sha384 msg) * w % p384n)).add (Jac.mul ⟨x, y, 1⟩ 384 (r * w % p384n))
      q.z != 0 && q.affX % p384n == r
    else false

/-! ## LMS (RFC 8554) -/

/-- Height of an LMS_SHA256_M32 type; w, p and ls of an LMOTS_SHA256_N32 type. -/
def lmsHeight (t : Nat) : Option Nat :=
  if t = 5 then some 5 else if t = 6 then some 10 else if t = 7 then some 15 else if t = 8 then some 20 else if t = 9 then some 25 else none
def lmotsParams (t : Nat) : Option (Nat × Nat × Nat) :=
  if t = 1 then some (1, 265, 7) else if t = 2 then some (2, 133, 6) else if t = 3 then some (4, 67, 4)
  else if t = 4 then some (8, 34, 0) else none

/-- The `i`-th `w`-bit value of an octet string. -/
def coef (s : List Byte) (i w : Nat) : Nat := (s.getD (i * w / 8) 0).toNat / 2 ^ (8 - w * (i % (8 / w) + 1)) % 2 ^ w

/-- `n` steps of a one-time signature chain from digit `j` on. -/
def lmsChain (pre : List Byte) : Nat → Nat → List Byte → List Byte
  | 0, _, t => t
  | n + 1, j, t => lmsChain pre n (j + 1) (sha256 (pre ++ toBE 1 j ++ t))

/-- The one-time public key candidate of a signature. -/
def lmotsKey (id q : List Byte) (w p ls : Nat) (c : List Byte) (ys : List (List Byte)) (msg : List Byte) : List Byte :=
  let d := sha256 (id ++ q ++ toBE 2 0x8181 ++ c ++ msg)
  let sum := ((List.range (256 / w)).map fun i => 2 ^ w - 1 - coef d i w).foldl (· + ·) 0
  let v := d ++ toBE 2 (sum * 2 ^ ls)
  let zs := (ys.zip (List.range p)).flatMap fun (y, i) => lmsChain (id ++ q ++ toBE 2 i) (2 ^ w - 1 - coef v i w) (coef v i w) y
  sha256 (id ++ q ++ toBE 2 0x8080 ++ zs)

/-- The root reached from a node along a path. -/
def lmsRoot (id : List Byte) : List (List Byte) → Nat → List Byte → List Byte
  | [], _, t => t
  | y :: ys, n, t =>
    lmsRoot id ys (n / 2) (sha256 (id ++ toBE 4 (n / 2) ++ toBE 2 0x8383 ++ (if n % 2 = 1 then y ++ t else t ++ y)))

/-- LMS verification; the key's types must be among those permitted. -/
def lmsVerify (okTypes : Nat → Nat → Bool) (pub msg sig : List Byte) : Bool :=
  let t := beNat (pub.take 4)
  let o := beNat ((pub.drop 4).take 4)
  match lmsHeight t, lmotsParams o with
  | some h, some (w, p, ls) =>
    let id := (pub.drop 8).take 16
    let q := sig.take 4
    let ots := sig.drop 4
    let rest := ots.drop (36 + 32 * p)
    let node := 2 ^ h + beNat q
    if okTypes t o && pub.length == 56 && sig.length == 12 + 32 + 32 * p + 32 * h && beNat q < 2 ^ h && beNat (ots.take 4) == o &&
        beNat (rest.take 4) == t then
      let k := lmotsKey id q w p ls ((ots.drop 4).take 32) (chunks 32 p (ots.drop 36)) msg
      lmsRoot id (chunks 32 h (rest.drop 4)) node (sha256 (id ++ toBE 4 node ++ toBE 2 0x8282 ++ k)) == pub.drop 24
    else false
  | _, _ => false

end Sys2Proof.Machine
end

