-- ==== Sys2Proof/Config.lean ====
section
/-! DEFINITION. What one implementation fixes and the spec leaves open: opaque constants with no body, so that no proof can see a
value of them (log entries 8, 10 to 14). -/

namespace Sys2Proof.Config

/-- The n-th value the spec leaves undefined; `State.free` is n. -/
opaque freeNat : Nat → Nat

/-- The device's choice of a placement (11 R587), by the same counter. -/
opaque place : Nat → Nat

/-- For an FP32 input, which of the values within 1 ulp rsqrt returns (05 R173: fixed for stepping A1). -/
opaque rsqrtPick : Nat → Nat

/-- Which of the NaN codes of FP8 E4M3 (type code 0) and E5M2 (1) the device produces: R166 names the canonical NaN of FP32, BF16 and FP16
only (05 R163, R166, R171, 13 R438). -/
opaque fp8Nan : Nat → Nat

/-- In Fast mode, how many blocks are summed before a rounding, and in which order a row sum is taken (05 R169, R174). -/
opaque fastPick : Nat → Nat

/-- T1 and T2 capacity shown in a job's view, by job and composed slice mask: the shares of pool resources are not stated (01 R19, R35;
16 R518). -/
opaque jobT1 : Nat → Nat → Nat
opaque jobT2 : Nat → Nat → Nat

/-- Set of the remote-line cache that a line, by fabric address / 128, belongs to within its slice (12 R389). -/
opaque rlcSet : Nat → Nat

/-- LOCAL offset at which the firmware reserve begins (11 R342, R587). -/
opaque fwBase : Nat

/-- The private bit layout of hinge messages (12 R380). -/
opaque hingeBytes : HHdr → HMsg → List Byte

/-- A hinge message read back from its private layout. -/
opaque hingeRead : List Byte → Option (HHdr × HMsg)

/-- A MGMT message read back from its payload: the place of the message type in a MGMT packet is not stated (16 R525, 17 R539). -/
opaque mgmtRead : List Byte → Option MMsg

/-- Device unique ID fuses, 64 bits (16 R497). -/
opaque uniqueId : W64

/-- Fused SHA-384 digest of the firmware P-384 key of a key index, as 48 bytes (16 R497). -/
opaque fwP384Digest : Nat → List Byte

/-- Fused SHA-384 digest of the firmware LMS key of a key index, as 48 bytes (16 R497). -/
opaque fwLmsDigest : Nat → List Byte

/-- The device P-384 public key derived from the device secret, 97 bytes (16 R498). -/
opaque devP384Pub : List Byte

/-- The device HSS public key derived from the device secret, 60 bytes (16 R498, R506). -/
opaque devHssPub : List Byte

/-- The device's ECDSA P-384 signature of a message (16 R510). -/
opaque ecdsaSign : List Byte → List Byte

/-- The device's HSS signature of a message with a subtree's leaf (16 R510). -/
opaque hssSign : Nat → Nat → List Byte → List Byte

/-- The X.509 chain of slot 0, DER, root first, concatenated (16 R509). -/
opaque x509Chain : List Byte

/-- What was written into the identity record at manufacture: `dev_p384_pub`, `dev_hss_pub`, `ca_ecdsa_sig`, `ca_lms_sig` (16 R509). -/
opaque recP384Pub : List Byte
opaque recHssPub : List Byte
opaque recEcdsaSig : List Byte
opaque recLmsSig : List Byte

/-- The fuse groups but the device secret, in table order, as measurement 5 reads them: key revocation, security version, subtree
thermometer, owner slots, owner revocation; how bits are laid in bytes is not stated (16 R497, R505). -/
opaque fuseImage : Nat → Nat → Nat → List (List Byte) → Nat → List Byte

/-- The response to an SPDM request, from the six measurements; the last argument numbers its fresh randomness (16 R513). -/
opaque spdmAnswer : SpdmReq → List (List Byte) → Nat → List Byte

/-- ERROR ResponseNotReady to an SPDM request (16 R513). -/
opaque spdmNotReady : SpdmReq → List Byte

/-- ERROR in answer to an SPDM request that cannot be answered: not supported, or no signature can be made; its code is not stated (16
R509, R513). -/
opaque spdmRefused : SpdmReq → List Byte

/-- The SPDM message hash M of a signed response (16 R514). -/
opaque spdmHash : SpdmReq → List (List Byte) → Nat → List Byte

/-- The device's answer to an MCTP control message (16 R515). -/
opaque mctpAnswer : List Byte → List Byte

end Sys2Proof.Config
end

