-- ==== Sys2Proof/Machine/Float.lean ====
section
/-! DEFINITION. Exact number formats and rounding (05 R163 to R174): element decoding, dyadic arithmetic with one rounding, exp,
reciprocal, and the candidates of rsqrt. A finite value is kept exactly, as ±m × 2^e. -/

namespace Sys2Proof.Machine

/-- A number as the engines see it: NaN, an infinity, or the exact value ±m × 2^e (the sign of a zero is kept). -/
inductive FV where
  | nan
  | inf (neg : Bool)
  | fin (neg : Bool) (m : Nat) (e : Int)
  deriving DecidableEq, Repr

/-- Positive zero. -/
def FV.zero : FV := .fin false 0 0

/-- Positive one. -/
def FV.one : FV := .fin false 1 0

/-- The value is a zero. -/
def FV.isZero : FV → Bool
  | .fin _ m _ => m == 0
  | _ => false

/-- A sign, exponent, mantissa field triple of a format with `mb` mantissa bits and exponent bias `bias`, all encodings finite. -/
def decFin (neg : Bool) (ex mt mb : Nat) (bias : Int) : FV :=
  if ex = 0 then .fin neg mt (1 - bias - mb) else .fin neg (mt + 2 ^ mb) ((ex : Int) - bias - mb)

/-- An IEEE-style format of `eb` exponent bits and `mb` mantissa bits: infinities and NaNs in the top exponent (05 R163). -/
def decIeee (eb mb v : Nat) : FV :=
  let neg := bitAt v (eb + mb)
  let ex := fld v (eb + mb - 1) mb
  let mt := v % 2 ^ mb
  if ex = 2 ^ eb - 1 then (if mt = 0 then .inf neg else .nan) else decFin neg ex mt mb (2 ^ (eb - 1) - 1 : Nat)

/-- FP32. -/
def dec32 (v : Nat) : FV := decIeee 8 23 v

/-- An integer as a value. -/
def ofInt (i : Int) : FV := .fin (decide (i < 0)) i.natAbs 0

/-- Value times 2^k. -/
def FV.scale : FV → Int → FV
  | .fin n m e, k => .fin n m (e + k)
  | x, _ => x

/-- Negation. -/
def FV.neg : FV → FV
  | .nan => .nan
  | .inf s => .inf (!s)
  | .fin s m e => .fin (!s) m e

/-- An element of type code `t` (06 R221), without its block scale (05 R163). -/
def decElem (t v : Nat) : FV :=
  match t with
  | 0 => if fld v 6 0 = 127 then .nan else decFin (bitAt v 7) (fld v 6 3) (fld v 2 0) 3 7
  | 1 => decIeee 5 2 v
  | 2 => decFin (bitAt v 5) (fld v 4 2) (fld v 1 0) 2 3
  | 3 => decFin (bitAt v 5) (fld v 4 3) (fld v 2 0) 3 1
  | 4 => decFin (bitAt v 3) (fld v 2 1) (fld v 0 0) 1 1
  | 5 => (ofInt (sext 8 v)).scale (-6)
  | 6 => ofInt (sext 8 v)
  | 7 => ofInt (sext 4 v)
  | 8 => decIeee 8 7 v
  | 9 => decIeee 5 10 v
  | _ => dec32 v

/-- Bits per element of a type code (06 R221). -/
def elemBits (t : Nat) : Nat :=
  match t with
  | 0 | 1 | 5 | 6 => 8
  | 2 | 3 => 6
  | 4 | 7 => 4
  | 8 | 9 => 16
  | _ => 32

/-- MX types carry a scale byte per block of 32 (06 R221). -/
def isMx (t : Nat) : Bool := t ≤ 5

/-- Bytes of a packed run of `k` elements, scale bytes included (06 R221). -/
def runBytes (t k : Nat) : Nat := ceilDiv (k * elemBits t) 8 + (if isMx t then ceilDiv k 32 else 0)

/-- An E8M0 scale: `none` for the NaN scale 0xFF (05 R164). -/
def decScale (v : Nat) : Option Int := if v = 255 then none else some ((v : Int) - 127)

/-- Element `i` of a packed run of `k` elements of type `t` held as a number, its block's scale applied (05 R163, R164, 06 R221). -/
def runElem (t k run i : Nat) : FV :=
  let b := elemBits t
  let x := decElem t (fld run (b * i + b - 1) (b * i))
  if isMx t then
    match decScale (fld run (b * k + 8 * (i / 32) + 7) (b * k + 8 * (i / 32))) with
    | none => .nan
    | some s => x.scale s
  else x

/-- Blocks of a run of `k` elements whose scale is NaN (05 R164). -/
def nanBlocks (t k run : Nat) : Nat :=
  if isMx t then
    ((List.range (ceilDiv k 32)).filter fun j => fld run (elemBits t * k + 8 * j + 7) (elemBits t * k + 8 * j) == 255).length
  else 0

/-- The signed integer of a finite value at exponent `e0` (`e0` at most its own exponent). -/
def atExp (neg : Bool) (m : Nat) (e e0 : Int) : Int :=
  let v : Int := (m * 2 ^ (e - e0).toNat : Nat)
  if neg then -v else v

/-- Exact sum of two values, infinities and NaNs as 05 R166; a zero sum is +0 unless both terms are −0. -/
def FV.add : FV → FV → FV
  | .nan, _ => .nan
  | _, .nan => .nan
  | .inf a, .inf b => if a = b then .inf a else .nan
  | .inf a, .fin .. => .inf a
  | .fin .., .inf b => .inf b
  | .fin s m e, .fin t n f =>
    let g := min e f
    let v := atExp s m e g + atExp t n f g
    if v = 0 then .fin (s && t && m == 0 && n == 0) 0 0 else .fin (decide (v < 0)) v.natAbs g

/-- Exact product, infinity times zero giving NaN (05 R166). -/
def FV.mul : FV → FV → FV
  | .nan, _ => .nan
  | _, .nan => .nan
  | .inf a, .inf b => .inf (a != b)
  | .inf a, .fin t n _ => if n = 0 then .nan else .inf (a != t)
  | .fin s m _, .inf b => if m = 0 then .nan else .inf (s != b)
  | .fin s m e, .fin t n f => .fin (s != t) (m * n) (e + f)

/-- Number of bits of a natural number (0 for 0). -/
def bitLen (n : Nat) : Nat := if n = 0 then 0 else Nat.log2 n + 1

/-- A natural number divided by 2^k and rounded to an integer: to nearest with ties to even, or (`rtz`) toward zero. -/
def shiftRound (rtz : Bool) (m k : Nat) : Nat :=
  let q := m / 2 ^ k
  let r := m % 2 ^ k
  if rtz || k = 0 then q
  else if 2 * r > 2 ^ k then q + 1
  else if 2 * r = 2 ^ k then q + q % 2
  else q

/-- The magnitude m × 2^e rounded onto a grid of `mb`+1 significant bits with least exponent `emin` (subnormals below): the
rounded magnitude as an integer multiple of 2^`g`, with `g`. -/
def roundMag (rtz : Bool) (mb : Nat) (emin : Int) (m : Nat) (e : Int) : Nat × Int :=
  let g : Int := max (e + bitLen m - (mb + 1)) (emin - mb)
  if g ≤ e then (m * 2 ^ (e - g).toNat, g) else (shiftRound rtz m (g - e).toNat, g)

/-- Bits of an IEEE-style result with `eb` exponent and `mb` mantissa bits (05 R168, R170): overflow gives an infinity, NaN the
canonical NaN of 05 R166. -/
def encIeee (eb mb : Nat) (rtz : Bool) (x : FV) : Nat :=
  let sgn (s : Bool) := b2n s * 2 ^ (eb + mb)
  match x with
  | .nan => (2 ^ eb - 1) * 2 ^ mb + 2 ^ (mb - 1)
  | .inf s => sgn s + (2 ^ eb - 1) * 2 ^ mb
  | .fin s m e =>
    let bias : Int := (2 ^ (eb - 1) - 1 : Nat)
    let r := roundMag rtz mb (1 - bias) m e
    if r.1 = 0 then sgn s
    else
      let top : Int := r.2 + bitLen r.1 - 1
      if top > bias then sgn s + (2 ^ eb - 1) * 2 ^ mb
      else if top < 1 - bias then sgn s + r.1
      else sgn s + (top + bias).toNat * 2 ^ mb + (r.1 * 2 ^ mb / 2 ^ (bitLen r.1 - 1)) % 2 ^ mb

/-- The FP32 bits nearest to a value, ties to even (05 R168). -/
def enc32 (x : FV) : Nat := encIeee 8 23 false x

/-- A value rounded to FP32. -/
def rne (x : FV) : FV := dec32 (enc32 x)

/-- Order of two values: `a < b`; false where either is NaN; the two zeros are equal. -/
def FV.lt (a b : FV) : Bool :=
  match a, b with
  | .nan, _ => false
  | _, .nan => false
  | .inf s, .inf t => s && !t
  | .inf s, .fin .. => s
  | .fin .., .inf t => !t
  | .fin s m e, .fin t n f => let g := min e f; decide (atExp s m e g < atExp t n f g)

/-- Equality of numbers; the two zeros are equal. -/
def FV.eqv (a b : FV) : Bool := (match a, b with | .nan, _ => false | _, .nan => false | _, _ => true) && !FV.lt a b && !FV.lt b a

/-- The sign of a value; false for NaN. -/
def FV.isNeg : FV → Bool
  | .nan => false
  | .inf s => s
  | .fin s _ _ => s

/-- Greater of two values: NaN if either is NaN, +0 above −0 (06 R225). -/
def FV.max (a b : FV) : FV :=
  if a = .nan ∨ b = .nan then .nan
  else if FV.lt a b then b else if FV.lt b a then a else if a.isNeg then b else a

/-- Lesser of two values, with the same rules (06 R225). -/
def FV.min (a b : FV) : FV :=
  if a = .nan ∨ b = .nan then .nan
  else if FV.lt a b then a else if FV.lt b a then b else if a.isNeg then a else b

/-- 1/x, correctly rounded (05 R173). -/
def recip32 : FV → Nat
  | .nan => enc32 .nan
  | .inf s => enc32 (.fin s 0 0)
  | .fin s m e =>
    if m = 0 then enc32 (.inf s)
    else
      -- 2^(len+40) / m has more than 40 significant bits; a remainder makes the last bit sticky
      let k := bitLen m + 40
      let q := 2 ^ k / m
      let q' := 2 * q + (if 2 ^ k % m = 0 then 0 else 1)
      enc32 (.fin s q' (-e - k - 1))

/-- Fixed-point working precision of `exp32`. -/
def expBits : Nat := 256

/-- Taylor terms of e^y, y = x / 2^`expBits` below 1/2, summed in fixed point; `fuel` terms. -/
def expTaylor (x : Nat) : Nat → Nat → Nat → Nat → Nat
  | 0, _, _, acc => acc
  | fuel + 1, n, term, acc =>
    let t := term * x / 2 ^ expBits / n
    expTaylor x fuel (n + 1) t (acc + t)

/-- Repeated squaring of a fixed-point number. -/
def fixSquare : Nat → Nat → Nat
  | 0, v => v
  | k + 1, v => fixSquare k (v * v / 2 ^ expBits)

/-- e^x for 0 ≤ x ≤ 128 in fixed point. -/
def expFix (x : Nat) : Nat := fixSquare 9 (expTaylor (x / 2 ^ 9) 64 1 (2 ^ expBits) (2 ^ expBits))

/-- exp(x), correctly rounded (05 R173). Below −104 the result rounds to +0 and above 89 to +∞. -/
def exp32 : FV → Nat
  | .nan => enc32 .nan
  | .inf s => if s then enc32 FV.zero else enc32 (.inf false)
  | .fin s m e =>
    if m = 0 then enc32 FV.one
    else if FV.lt (.fin false 104 0) (.fin false m e) then (if s then enc32 FV.zero else enc32 (.inf false))
    else
      let x := if 0 ≤ e + expBits then m * 2 ^ (e + expBits).toNat else m / 2 ^ (-(e + expBits)).toNat
      let v := expFix x
      if s then enc32 (.fin false (2 * (2 ^ (2 * expBits) / v) + 1) (-(expBits : Int) - 1))
      else enc32 (.fin false (2 * v + 1) (-(expBits : Int) - 1))

/-- Integer square root by bisection on bits. -/
def isqrtGo (n : Nat) : Nat → Nat → Nat
  | 0, r => r
  | k + 1, r => let r' := r + 2 ^ k; isqrtGo n k (if r' * r' ≤ n then r' else r)

/-- Integer square root. -/
def isqrt (n : Nat) : Nat := isqrtGo n (bitLen n / 2 + 1) 0

/-- The FP32 values within 1 ulp of 1/√x, lowest first (05 R173); one value in the special cases. -/
def rsqrtCands : FV → List Nat
  | .nan => [enc32 .nan]
  | .inf s => if s then [enc32 .nan] else [enc32 FV.zero]
  | .fin s m e =>
    if m = 0 then [enc32 (.inf s)]
    else if s then [enc32 .nan]
    else
      -- make the exponent even, then 1/√(m·2^e) = √(2^(2k)/m) · 2^(-k - e/2)
      let m' := if e % 2 = 0 then m else 2 * m
      let e' := if e % 2 = 0 then e else e - 1
      let k := bitLen m' + 40
      let n := 2 ^ (2 * k) / m'
      let r := isqrt n
      let exact := 2 ^ (2 * k) % m' = 0 && r * r = n
      let v := FV.fin false r (-(k : Int) - e' / 2)
      let lo := encIeee 8 23 true v
      if exact && FV.eqv (dec32 lo) v then [lo - 1, lo, lo + 1] else [lo, lo + 1]

/-- Row sum of 05 R174: one halving of a chunk. -/
def halve (t : List FV) : List FV :=
  let w := t.length / 2
  List.zipWith (fun a b => rne (FV.add a b)) (t.take w) (t.drop w)

/-- Row sum of 05 R174: eight halvings of a chunk of 256. -/
def chunkSum (t : List FV) : FV := ((List.range 8).foldl (fun u _ => halve u) t).headD FV.zero

/-- Row sum in Deterministic mode (05 R174); `fuel` bounds the chunks. -/
def rowSumDet : Nat → List FV → FV → FV
  | 0, _, acc => acc
  | _ + 1, [], acc => acc
  | k + 1, xs, acc =>
    let c := xs.take 256
    rowSumDet k (xs.drop 256) (rne (FV.add acc (chunkSum (c ++ List.replicate (256 - c.length) FV.zero))))

/-- A sum taken in some order: `pick` names, for each addition, which two of the terms left are added next (05 R174, Fast mode). -/
def sumAny (pick : Nat → Nat) : Nat → List FV → FV
  | 0, xs => xs.headD FV.zero
  | k + 1, xs =>
    match xs with
    | [] => FV.zero
    | [x] => x
    | _ =>
      let i := pick (2 * k) % xs.length
      let ys := xs.eraseIdx i
      let j := pick (2 * k + 1) % ys.length
      sumAny pick k (rne (FV.add (xs.getD i FV.zero) (ys.getD j FV.zero)) :: ys.eraseIdx j)

/-- The largest magnitude of finite elements of an MX or integer type code, and its element grid (mantissa bits, least normal
exponent); 05 R163. -/
def elemMax (t : Nat) : FV × Nat × Int :=
  match t with
  | 0 => (.fin false 448 0, 3, -6)
  | 1 => (.fin false 57344 0, 2, -14)
  | 2 => (.fin false 28 0, 2, -2)
  | 3 => (.fin false 15 (-1), 3, 0)
  | 4 => (.fin false 6 0, 1, 0)
  | _ => (.fin false 127 (-6), 0, 0)

/-- emax of an MX element type (05 R163). -/
def elemEmax (t : Nat) : Int :=
  match t with
  | 0 => 8
  | 1 => 15
  | 2 => 4
  | 3 => 2
  | 4 => 2
  | _ => 0

/-- A value rounded to a signed integer of `w` bits, saturating; NaN gives 0 (05 R170). -/
def encInt (w : Nat) (rtz : Bool) (x : FV) : Nat :=
  match x with
  | .nan => 0
  | .inf s => if s then 2 ^ (w - 1) else 2 ^ (w - 1) - 1
  | .fin s m e =>
    let q := if 0 ≤ e then m * 2 ^ e.toNat else shiftRound rtz m (-e).toNat
    if s then (if q ≥ 2 ^ (w - 1) then 2 ^ (w - 1) else wrapInt w (-(q : Int)))
    else min q (2 ^ (w - 1) - 1)

/-- Bits of an MX floating-point element (types 0 to 4) of a finite value already divided by the block scale: rounded, then
saturated, or (E5M2 with `toInf`) overflowing to infinity (05 R171). -/
def encMxFloat (t : Nat) (rtz toInf : Bool) (s : Bool) (m : Nat) (e : Int) : Nat :=
  let p := elemMax t
  let b := elemBits t
  let r := roundMag rtz p.2.1 p.2.2 m e
  let sg := b2n s * 2 ^ (b - 1)
  let big := FV.lt p.1 (.fin false r.1 r.2)
  if big && toInf && t = 1 then sg + 0x7C
  else
    let v : Nat × Int := if big then (match p.1 with | .fin _ mm ee => roundMag true p.2.1 p.2.2 mm ee | _ => r) else r
    if v.1 = 0 then sg
    else
      let top : Int := v.2 + bitLen v.1 - 1
      if top < p.2.2 then sg + v.1
      else sg + (top - p.2.2 + 1).toNat * 2 ^ p.2.1 + (v.1 * 2 ^ p.2.1 / 2 ^ (bitLen v.1 - 1)) % 2 ^ p.2.1

/-- Bits of an MXINT8 element: the multiple of 2^-6, rounded and saturated to the largest finite magnitude (05 R171). -/
def encMxInt8 (rtz s : Bool) (m : Nat) (e : Int) : Nat :=
  let q := if 0 ≤ e + 6 then m * 2 ^ (e + 6).toNat else shiftRound rtz m (-(e + 6)).toNat
  if s then wrapInt 8 (-((min q 128 : Nat) : Int)) else min q 127

/-- floor(log2 |x|) of a non-zero finite magnitude. -/
def ilog2 (m : Nat) (e : Int) : Int := e + bitLen m - 1

/-- The NaN code the device produces in E4M3 (S.1111.111) or E5M2 (S.11111.01 to .11); which one is open. -/
def fp8NanCode (t : Nat) : Nat :=
  let p := Config.fp8Nan t
  128 * (p % 2) + (if t = 0 then 0x7F else 0x7D + p / 2 % 3)

/-- An MX block of 32 FP32 values written as type `t` (05 R171): the scale byte and the 32 elements. -/
def encMxBlock (t : Nat) (rtz toInf : Bool) (xs : List FV) : Nat × List Nat :=
  let mags := xs.filterMap fun x => match x with | .fin _ m e => if m = 0 then none else some (ilog2 m e) | _ => none
  let special := xs.any fun x => match x with | .fin .. => false | _ => true
  let hasNan := t = 0 || t = 1
  if special && !hasNan then (255, xs.map fun _ => 0)
  else
    let x : Int := match mags with
      | [] => -127
      | a :: as => max (-127) (min 127 (as.foldl max a - elemEmax t))
    let enc (v : FV) : Nat := match v with
      | .nan => fp8NanCode t
      | .inf s =>
        if t = 0 then b2n s * 128 + 0x7E
        else b2n s * 128 + (if toInf then 0x7C else 0x7B)
      | .fin s m e => if t = 5 then encMxInt8 rtz s m (e - x) else encMxFloat t rtz toInf s m (e - x)
    ((x + 127).toNat, xs.map enc)

end Sys2Proof.Machine
end

