-- ==== Sys2Proof/Machine/Operands.lean ====
section
/-! DEFINITION. Engine descriptors: header, address operands, vector operands, bodies, and the static checks of LOAD_IMAGE (05 R158 to R160,
R178, 06 R199, R209 to R225, 08 R277, 09 R296). A descriptor is held as a number. -/

namespace Sys2Proof.Machine

/-! ## Header (06 R209) -/

def dOp (d : Nat) : Nat := fld d 7 0
/-- Token queues waited on, and signalled; a queue named twice stands twice (R211). -/
def dWaits (d : Nat) : List Nat := (if bitAt d 8 then [fld d 23 16] else []) ++ (if bitAt d 9 then [fld d 31 24] else [])
def dSigs (d : Nat) : List Nat := (if bitAt d 10 then [fld d 39 32] else []) ++ (if bitAt d 11 then [fld d 47 40] else [])
/-- Counter condition (index, least value), and the counter incremented. -/
def dCtrWait (d : Nat) : Option (Nat × Nat) := if bitAt d 12 then some (fld d 52 48, fld d 111 64) else none
def dCtrInc (d : Nat) : Option Nat := if bitAt d 13 then some (fld d 57 53) else none
def dYield (d : Nat) : Bool := bitAt d 14
def dYieldId (d : Nat) : Nat := fld d 127 112

/-- Operation codes (06 R210). -/
abbrev opNop := 0x01
abbrev opSet := 0x02
abbrev opAdd := 0x03
abbrev opMul := 0x04
abbrev opLdreg := 0x05
abbrev opLoop := 0x06
abbrev opHalt := 0x07
abbrev opLoad := 0x10
abbrev opGather := 0x11
abbrev opStore := 0x20
abbrev opScatter := 0x21
abbrev opAtomic := 0x22
abbrev opMatmul := 0x30
abbrev opVector := 0x40

/-- Engines of a core kind (05 R158). -/
def engCount (decode : Bool) : Nat := if decode then 5 else 9

/-- The engine accepts the operation. -/
def opOn (eng op : Nat) : Bool :=
  (1 ≤ op && op ≤ 7) ||
    (if eng = 0 then op == opLoad || op == opGather
     else if eng = 1 then op == opStore || op == opScatter || op == opAtomic
     else if eng = 2 then op == opVector
     else op == opMatmul)

/-! ## Operands -/

/-- An address operand (06 R213). -/
structure AddrOp where
  base : Nat
  /-- 0 SP, 1 LOCAL, 2 FABRIC. -/
  space : Nat
  disp : Int
  deriving DecidableEq, Repr

/-- The address operand at bit `lo`. -/
def addrOp (d lo : Nat) : AddrOp :=
  let v := fld d (lo + 63) lo
  { base := fld v 3 0, space := fld v 5 4, disp := sext 56 (fld v 63 8) }

/-- Effective address. -/
def AddrOp.ea (o : AddrOp) (regs : List Nat) : Nat := wrapInt 64 (regs.getD o.base 0 + o.disp)

/-- A vector operand (06 R223). -/
structure VecOp where
  base : Nat
  acc : Bool
  bank : Nat
  me : Nat
  disp : Nat
  stride : Nat
  deriving DecidableEq, Repr

def vecOp (d lo : Nat) : VecOp :=
  let v := fld d (lo + 63) lo
  { base := fld v 3 0, acc := bitAt v 4, bank := fld v 5 5, me := fld v 8 6, disp := fld v 35 10, stride := fld v 63 36 }

/-- Address of element row `r`. -/
def VecOp.row (o : VecOp) (regs : List Nat) (r : Nat) : Nat := (regs.getD o.base 0 + o.disp) % 2 ^ 64 + r * o.stride

/-! ## Types (05 R159, R160, 06 R221) -/

/-- Kt of a pass: 256 where both operands are of the 4-bit class. -/
def passKt (a w : Nat) : Nat :=
  let four (t : Nat) : Bool := t == 4 || t == 7
  if four a && four w then 256 else 128

/-- INT8 or INT4. -/
def isPlainInt (t : Nat) : Bool := t == 6 || t == 7

/-- The pairing rule; MXINT8 pairs with every type (DEDUCED, log entry 19). -/
def typesPair (a w : Nat) : Bool :=
  (!isPlainInt a || isPlainInt w || w == 5) && (!isPlainInt w || isPlainInt a || a == 5)

/-! ## Vector operations (06 R225) -/

def dVop (d : Nat) : Nat := fld d 391 384
def vopKnown (v : Nat) : Bool := (1 ≤ v && v ≤ 0x0C) || v == 0x10 || v == 0x11 || v == 0x12 || v == 0x20
def vopUsesB (v : Nat) : Bool := (1 ≤ v && v ≤ 8) || v == 0x12
def vopUsesC (v : Nat) : Bool := v == 4 || v == 8
def vopReduces (v : Nat) : Bool := v == 0x10 || v == 0x11

/-! ## Static checks (06 R199) -/

/-- Fields of an address operand are legal: reserved bits, and a space among those given. -/
def addrOk (d lo : Nat) (spaces : List Nat) : Bool := fld d (lo + 7) (lo + 6) == 0 && spaces.contains (addrOp d lo).space

/-- The header checks, for an engine of a core kind, with the image's count of yield cuts. -/
def headerOk (decode : Bool) (eng ymap d : Nat) : Bool :=
  let n := engCount decode
  let q (k : Nat) : Bool := k / 16 < n && k % 16 < n && k / 16 != k % 16
  opOn eng (dOp d) && rangesZero d [(15, 15), (63, 58)] &&
    (dWaits d).all (fun k => q k && k % 16 == eng) && (dSigs d).all (fun k => q k && k / 16 == eng) &&
    (match dCtrInc d with | some c => c != 28 && c != 29 && c != 31 | none => true) &&
    (if dYield d then dYieldId d < ymap else dYieldId d == 0)

/-- Control bodies (R215). -/
def controlOk (d : Nat) : Bool :=
  let usesRt := dOp d == opAdd || dOp d == opMul
  rangesZero d [(159, 141), (191, 184), (511, 256)] &&
    (if dOp d = opLoop then fld d 183 160 != 0 else fld d 183 160 == 0) &&
    ((usesRt && bitAt d 140) || (!bitAt d 140 && fld d 139 136 == 0))

/-- LOAD and STORE bodies (R217). -/
def blockOk (decode : Bool) (d : Nat) : Bool :=
  let load := dOp d == opLoad
  rangesZero d [(287, 277), (511, 480)] && addrOk d 128 (if load then [1, 2] else [0]) && addrOk d 192 (if load then [0] else [1, 2]) &&
    1 ≤ fld d 276 256 && fld d 276 256 ≤ 1048576 && 1 ≤ fld d 303 288 && 1 ≤ fld d 319 304 &&
    fld d 276 256 * fld d 303 288 * fld d 319 304 ≤ (if decode then 12582912 else 20971520)

/-- GATHER and SCATTER bodies (R218). -/
def listOk (d : Nat) : Bool :=
  let g := dOp d == opGather
  rangesZero d [(511, 337)] && addrOk d 128 (if g then [1, 2] else [0]) && addrOk d 192 (if g then [0] else [1, 2]) && addrOk d 256 [0] &&
    1 ≤ fld d 336 320 && fld d 336 320 ≤ 65536

/-- ATOMIC bodies (R219). -/
def atomicOk (d : Nat) : Bool :=
  rangesZero d [(511, 324)] && addrOk d 128 [1, 2] && addrOk d 192 [0] && addrOk d 256 [0] && fld d 323 320 ≤ 2

/-- MATMUL bodies (R220, 05 R160, 08 R277). -/
def matmulOk (d : Nat) : Bool :=
  let m := fld d 231 224
  let n := fld d 239 232
  let k := fld d 248 240
  let a := fld d 259 256
  let w := fld d 263 260
  let dv := bitAt d 266
  let reuse := bitAt d 267
  rangesZero d [(255, 249), (271, 268), (279, 279), (511, 448)] && addrOk d 128 [0] && addrOk d 320 [0] && addrOk d 384 [0] &&
    fld d 223 192 % 4 == 0 && fld d 319 288 % 4 == 0 && 1 ≤ m && m ≤ 128 && fld d 278 272 + m ≤ 128 && a ≤ 9 &&
    (if reuse then n == 0 && k == 0 && w == 0 && !dv
     else 1 ≤ n && n ≤ 128 && 32 ≤ k && k ≤ passKt a w && k % 32 == 0 && w ≤ 9 && typesPair a w) &&
    (if dv then n * k % 256 == 0 && fld d 287 280 == n * k / 256 else fld d 287 280 == 0)

/-- WARD bodies (09 R296). -/
def wardOk (decode : Bool) (d : Nat) : Bool :=
  decode && !bitAt d 132 && !bitAt d 196 && !bitAt d 260 && rangesZero d [(137, 133), (201, 197), (265, 261)] &&
    fld d 399 396 == 10 && fld d 395 392 == 0 && fld d 403 400 == 0 && rangesZero d [(383, 320), (407, 404), (415, 408), (479, 453), (511, 480)] &&
    1 ≤ fld d 431 416 && fld d 431 416 ≤ 64 && 2 ≤ fld d 452 432 && fld d 452 432 ≤ 262144

/-- VECTOR bodies (R224, R225); a reduction into an MX type and one MX element per row are refused (DEDUCED, log entry 19). -/
def vectorOk (decode : Bool) (d : Nat) : Bool :=
  let v := dVop d
  let rows := fld d 431 416
  let cols := fld d 452 432
  let td := fld d 395 392
  let ta := fld d 399 396
  let tb := fld d 403 400
  let tc := fld d 407 404
  let shape := fld d 411 410
  let usesB := vopUsesB v && shape != 3
  let a := vecOp d 192
  let runs (t : Nat) : Bool := !isMx t || cols % 32 == 0
  vopKnown v && !(vecOp d 128).acc && !(vecOp d 256).acc && !(vecOp d 320).acc && rangesZero d [(137, 137), (201, 201), (265, 265), (329, 329)] &&
    (if v = 0x20 then wardOk decode d
     else
       rangesZero d [(415, 413), (479, 453)] && td ≤ 10 && ta ≤ 10 && tb ≤ 10 && tc ≤ 10 && 1 ≤ rows && 1 ≤ cols && cols ≤ 1048576 &&
         (usesB || fld d 319 256 == 0) && (vopUsesC v || fld d 383 320 == 0) &&
         (!a.acc || (ta == 10 && a.me < engCount decode - 3)) && (v != 0x12 || a.acc) && runs ta &&
         (!usesB || (if shape = 2 then !isMx tb else runs tb)) && (!vopUsesC v || runs tc) &&
         (if vopReduces v then !isMx td else runs td))

/-- The static checks of one descriptor by itself. -/
def descOk (decode : Bool) (eng ymap d : Nat) : Bool :=
  headerOk decode eng ymap d &&
    (let op := dOp d
     if op ≤ 7 then controlOk d
     else if op = opLoad ∨ op = opStore then blockOk decode d
     else if op = opGather ∨ op = opScatter then listOk d
     else if op = opAtomic then atomicOk d
     else if op = opMatmul then matmulOk d
     else vectorOk decode d)

/-- Indexes of a stream's descriptors that break the LOOP rules: a body past the end of the stream or of an enclosing body, or more than
four bodies around a descriptor. `ends` are the ends of the enclosing bodies, innermost first. -/
def loopFaults (count : Nat) : List Nat → Nat → List Nat → List Nat
  | [], _, _ => []
  | d :: ds, i, ends =>
    let ends := ends.filter fun e => i < e
    let stop := i + 1 + fld d 183 160
    let bad : Bool := 4 < ends.length || (dOp d == opLoop && (count < stop || (match ends with | e :: _ => e < stop | [] => false)))
    (if bad then [i] else []) ++ loopFaults count ds (i + 1) (if dOp d = opLoop then stop :: ends else ends)

end Sys2Proof.Machine
end

