-- ==== Sys2Proof/Machine/Tab.lean ====
section
/-! DEFINITION. Sparse tables in one canonical form: (key, value) pairs, keys strictly rising, no entry equal to what an
unlisted key reads as. Memories (`Tab Byte`, whose entries are `Host.Cell`) and the device's large register arrays use it. -/

namespace Sys2Proof.Machine

/-- A sparse table. -/
abbrev Tab (α : Type) := List (Nat × α)

variable {α : Type}

/-- The entry of a key, if listed. -/
def Tab.find? : Tab α → Nat → Option α
  | [], _ => none
  | (k, v) :: t, a => if k = a then some v else Tab.find? t a

/-- The value of a key; an unlisted key reads as `d`. -/
def Tab.getD (d : α) (t : Tab α) (a : Nat) : α := (Tab.find? t a).getD d

/-- The table without an entry for the key. -/
def Tab.erase : Tab α → Nat → Tab α
  | [], _ => []
  | (k, v) :: t, a => if k = a then Tab.erase t a else (k, v) :: Tab.erase t a

/-- The table with the key's entry set, keys kept rising. -/
def Tab.set : Tab α → Nat → α → Tab α
  | [], a, x => [(a, x)]
  | (k, v) :: t, a, x =>
    if a < k then (a, x) :: (k, v) :: t
    else if a = k then (a, x) :: t
    else (k, v) :: Tab.set t a x

/-- A write of `x` at `a`: writing the value `d` an unlisted key reads as removes the entry. -/
def Tab.put [DecidableEq α] (d : α) (t : Tab α) (a : Nat) (x : α) : Tab α :=
  if x = d then Tab.erase t a else Tab.set t a x

/-- Keys strictly rise and every key is above `lo`, where one is given. -/
def Tab.sorted : Option Nat → Tab α → Bool
  | _, [] => true
  | none, (k, _) :: t => Tab.sorted (some k) t
  | some lo, (k, _) :: t => decide (lo < k) && Tab.sorted (some k) t

/-- The canonical form of a table whose unlisted keys read as `d`. -/
def Tab.wf [DecidableEq α] (d : α) (t : Tab α) : Bool := Tab.sorted none t && t.all fun e => decide (e.2 ≠ d)

/-- Apply `f` to the value of a key. -/
def Tab.modify [DecidableEq α] (d : α) (t : Tab α) (a : Nat) (f : α → α) : Tab α := Tab.put d t a (f (Tab.getD d t a))

/-- First key whose entry satisfies a test. -/
def Tab.first? (t : Tab α) (p : Nat → α → Bool) : Option Nat := (List.find? (fun e => p e.1 e.2) t).map (·.1)

/-- `f` applied to every listed value; entries that become `d` leave the table. -/
def Tab.update [DecidableEq α] (d : α) (t : Tab α) (f : Nat → α → α) : Tab α :=
  (List.map (fun e => (e.1, f e.1 e.2)) t).filter fun e => decide (e.2 ≠ d)

/-- Keys whose entries satisfy a test, ascending. -/
def Tab.keysOf (t : Tab α) (p : Nat → α → Bool) : List Nat := (List.filter (fun e => p e.1 e.2) t).map (·.1)

/-- A memory: bytes by address, an unlisted address reading as zero. -/
abbrev Mem := Tab Byte

/-- The byte at an address. -/
def Mem.read (m : Mem) (a : Nat) : Byte := Tab.getD (0 : Byte) m a

/-- One byte written. -/
def Mem.write (m : Mem) (a : Nat) (b : Byte) : Mem := Tab.put (0 : Byte) m a b

/-- `n` bytes from an address on. -/
def Mem.readN (m : Mem) (a : Nat) : Nat → List Byte
  | 0 => []
  | n + 1 => Mem.read m a :: Mem.readN m (a + 1) n

/-- Bytes written from an address on. -/
def Mem.writeN (m : Mem) (a : Nat) : List Byte → Mem
  | [] => m
  | b :: bs => Mem.writeN (Mem.write m a b) (a + 1) bs

/-- `n` bytes from an address on set to zero. -/
def Mem.zero (m : Mem) (a n : Nat) : Mem := m.filter fun c => decide (c.1 < a ∨ a + n ≤ c.1)

/-- The canonical form of a memory. -/
def Mem.wf (m : Mem) : Bool := Tab.wf (0 : Byte) m

/-- A set of numbers, rising, without repeats. -/
abbrev NSet := List Nat

/-- A number added to a set. -/
def NSet.add : NSet → Nat → NSet
  | [], a => [a]
  | k :: t, a => if a < k then a :: k :: t else if a = k then k :: t else k :: NSet.add t a

/-- A number removed from a set. -/
def NSet.del (t : NSet) (a : Nat) : NSet := t.filter (· ≠ a)

/-- A range of numbers removed from a set. -/
def NSet.delRange (t : NSet) (a n : Nat) : NSet := t.filter fun k => decide (k < a ∨ a + n ≤ k)

end Sys2Proof.Machine
end

