-- ==== Sys2Proof/Machine/TypesBoot.lean ====
section
/-! DEFINITION. Plain-data types of the Tumbler engine (chapter 15), of boot, identity and composition (chapter 16). -/

namespace Sys2Proof.Machine

/-- A valid entry of a host table (15 R471). -/
structure TEntry where
  /-- Key, 160 × w bits. -/
  key : Nat := 0
  /-- Priority, 16 bits. -/
  pri : Nat := 0
  /-- Result, 32 bits. -/
  result : Nat := 0
  /-- `user_flags`, 4 bits. -/
  flags : Nat := 0
  deriving DecidableEq, Repr

/-- A host table (15 R467, R468, R480, R486). -/
structure Table where
  /-- ACTIVE, 1 bit; 15 R468; reset ABSENT. -/
  active : Bool := false
  /-- Rows per entry w: 1, 2 or 4; 15 R467; reset 1. -/
  width : Nat := 1
  /-- The table has a shadow copy, 1 bit; 15 R480; reset 0. -/
  shadow : Bool := false
  /-- `cascade`, 1 bit; 15 R486; reset 0. -/
  cascade : Bool := false
  /-- Match die, 1 bit; 15 R486; reset 0. -/
  die : Nat := 0
  /-- First row, 17 bits; 15 R486; reset 0. -/
  first : Nat := 0
  /-- Entries per copy, 18 bits; 15 R486; reset 0. -/
  depth : Nat := 0
  /-- `job_id`, 12 bits; 15 R486; reset 0. -/
  job : Nat := 0
  /-- The second copy is the live one, 1 bit; 15 R480; reset 0. -/
  liveSecond : Bool := false
  /-- Valid entries of the first copy, by slot; 15 R471; reset none. -/
  copyA : List (Nat × TEntry) := []
  /-- Valid entries of the second copy, by slot; 15 R471; reset none. -/
  copyB : List (Nat × TEntry) := []
  deriving DecidableEq, Repr

/-- What a write of a match die does (15 R475 to R479). -/
inductive TWrite where
  /-- An insertion in progress: moves made so far. -/
  | insert (e : TEntry) (moves : Nat)
  /-- An update: the slot cleared already (0 no, 1 cleared, 2 written), the old key, the new entry and its slot. -/
  | update (stage : Nat) (old : Nat) (e : TEntry) (slot : Nat)
  | delete (key : Nat)
  | clearAll
  | swap
  | destroy
  deriving DecidableEq, Repr

/-- A write waiting for idle cycles of a die (15 R475). -/
structure TJob where
  /-- In-flight command plus 1; 0 for an insertion or a removal the device makes itself. -/
  cmd : Nat := 0
  /-- SEAL_PREFIX command (in-flight number plus 1) whose index entry it is; 0 none. -/
  sealCmd : Nat := 0
  /-- Table. -/
  table : Nat := 0
  /-- The shadow copy is named. -/
  shadow : Bool := false
  /-- The write. -/
  op : TWrite := .swap
  /-- XD0 time at which its bound expires. -/
  due : Nat := 0
  deriving DecidableEq, Repr

/-- A cascaded search whose token is out (15 R482, R484). -/
structure CascOut where
  /-- Token sequence number. -/
  seq : Nat := 0
  /-- SEARCH command (in-flight number plus 1); 0 for a probe. -/
  cmd : Nat := 0
  /-- Context plus 1 whose prefix lookup it is; 0 none. -/
  ctx : Nat := 0
  /-- Index of the key in its command, or block of the prompt. -/
  ix : Nat := 0
  /-- XD0 time at which it times out. -/
  due : Nat := 0
  deriving DecidableEq, Repr

/-- The Tumbler engine (chapter 15). -/
structure Tumbler where
  /-- Host tables 0 to 15; 15 R468; reset ABSENT. -/
  tables : Tab Table := []
  /-- Writes of MD0 and MD1 waiting or in progress, in order taken; 15 R475; reset none. -/
  jobs : List TJob := []
  /-- Rows reserved for the route table; 15 R469; reset 0. -/
  routeRows : Nat := 0
  /-- Sequence number of the next token, 16 bits; 15 R483; reset 0. -/
  casSeq : Nat := 0
  /-- Tokens out; 15 R484; reset none. -/
  casOut : List CascOut := []
  /-- Tokens sent on MATCH_OUT, latest last (an output); 15 R481; reset none. -/
  sent : List (BitVec 512) := []
  /-- Consecutive timeouts; 15 R484; reset 0. -/
  casRun : Nat := 0
  /-- The ring is marked DOWN, 1 bit; 15 R484; reset 0. -/
  ringDown : Bool := false
  /-- XD0 time of the last probe token; 15 R484; reset 0. -/
  probeAt : Nat := 0
  deriving DecidableEq, Repr

/-- How far the cold boot has come (16 R502, R504). -/
inductive BootSt where
  /-- The mask ROM runs. -/
  | rom
  /-- Both slots failed: boot stopped in the mask ROM. -/
  | stopped
  /-- Stage 1 runs; the other images are being checked. -/
  | stage1
  /-- The control firmware runs. -/
  | running
  deriving DecidableEq, Repr

/-- Phases of a fabric boot (16 R524). -/
inductive FbPhase where
  | idle | link | flood | agree
  deriving DecidableEq, Repr

/-- A manifest held: its body and the digest of it (16 R516). -/
structure Manifest where
  /-- Body bytes. -/
  body : List Byte := []
  /-- SHA-384 of the body. -/
  digest : List Byte := []
  deriving DecidableEq, Repr

/-- Fuses, firmware, identity and the management bus (16 R497 to R515). -/
structure Ident16 where
  /-- Device unique ID fuses, 64 bits; 16 R497; reset `Config.uniqueId` (what the part was fused with, log entry 13). -/
  uid : Nat := 0
  /-- LOCAL offset of the firmware reserve, chosen by the control firmware at the cold boot; 11 R342, R587; reset 0 (log entry 12). -/
  fwAt : Nat := 0
  /-- Firmware key revocation fuses, 4 bits; 16 R497; reset 0. -/
  keyRevoked : Nat := 0
  /-- Security version fuses burnt, 0 to 64; 16 R497; reset 0. -/
  svnFused : Nat := 0
  /-- LMS subtree thermometer fuses burnt, 0 to 4,096; 16 R497; reset 0. -/
  thermo : Nat := 0
  /-- Owner key slots, 4 of 48 bytes, an empty list where not fused; 16 R497; reset empty. -/
  ownerSlots : List (List Byte) := [[], [], [], []]
  /-- Owner slot revocation fuses, 4 bits; 16 R497; reset 0. -/
  ownerRevoked : Nat := 0
  /-- The boot flash, 128 MiB by offset; 16 R500; reset 0 (contents are the board's). -/
  flash : Mem := []
  /-- State of the cold boot; 16 R504; reset the mask ROM. -/
  boot : BootSt := .rom
  /-- `boot_slot`, 1 bit (true B); 16 R502; reset 0. -/
  slotB : Bool := false
  /-- A slot has been abandoned in this cold boot: A, B; 16 R502; reset none. -/
  badA : Bool := false
  badB : Bool := false
  /-- HBM training is complete, 1 bit; 16 R504; reset 0. -/
  hbmUp : Bool := false
  /-- The subtree in use is generated and certified, 1 bit; 16 R504; reset 0. -/
  signing : Bool := false
  /-- Index of the subtree in use, 12 bits; 16 R507; reset 0. -/
  subtree : Nat := 0
  /-- Next leaf of the subtree, 15 bits; 16 R507; reset 0. -/
  leaf : Nat := 0
  /-- The thermometer was exhausted when a subtree was needed, 1 bit; 16 R508; reset 0. -/
  exhausted : Bool := false
  /-- The identity record's keys equal the derived keys, 1 bit; 16 R509; reset 1. -/
  identityOk : Bool := true
  /-- Measurements 1 to 6, 48 bytes each; 16 R505; reset zero bytes. -/
  meas : List (List Byte) := []
  /-- SPDM message hash M of the last signed response over DOE, over MCTP; 16 R514; reset none. -/
  mDoe : Option (List Byte) := none
  mMctp : Option (List Byte) := none
  /-- Responses sent over the two SPDM transports and MCTP control, latest last (an output): (MCTP, bytes); 16 R513; reset none. -/
  out : List (Bool × List Byte) := []
  /-- I3C dynamic address, 7 bits, 0 none; 16 R515; reset 0. -/
  i3cAddr : Nat := 0
  /-- A manifest write is in progress; 16 R521; reset 0. -/
  flashBusy : Bool := false
  deriving DecidableEq, Repr

/-- Composition and fabric boot (16 R516 to R530). -/
structure Compo where
  /-- Staged manifest; 16 R521; reset none. -/
  staged : Option Manifest := none
  /-- Manifest in force; 16 R529; reset none. -/
  inForce : Option Manifest := none
  /-- Manifest of the fabric boot in progress; 16 R523; reset none. -/
  bootMf : Option Manifest := none
  /-- `role_known`, 1 bit; 02 R42; reset 0. -/
  roleKnown : Bool := false
  /-- `role`, 2 bits; 01 R21; reset 0. -/
  role : Nat := 0
  /-- Node number, 14 bits; 16 R529; reset 0. -/
  node : Nat := 0
  /-- UNNUMBERED, 1 bit; 16 R526; reset 0. -/
  unnumbered : Bool := false
  /-- Map epoch in force, 16 bits; 16 R529; reset 0. -/
  epoch : Nat := 0
  /-- A map is in force, 1 bit; 16 R527; reset 0. -/
  mapped : Bool := false
  /-- Fabric boot phase; 16 R524; reset idle. -/
  phase : FbPhase := .idle
  /-- XD0 time at which the fabric boot started; 16 R522; reset 0. -/
  startAt : Nat := 0
  /-- XD0 time at which the phase started, or of the last new table or CLAIM; 16 R524; reset 0. -/
  phaseAt : Nat := 0
  /-- Boot count of R525, 32 bits: fabric boots this device initiated; 16 R525; reset 0. -/
  bootCount : Nat := 0
  /-- Initiator of the fabric boot in progress and its boot count; 16 R525; reset 0. -/
  bootOf : Nat := 0
  bootNo : Nat := 0
  /-- No map has been committed since the last fabric boot began, 1 bit; 16 R523; reset 0. -/
  uncommitted : Bool := false
  /-- Node number claimed in the fabric boot in progress, 14 bits; 16 R524; reset 0. -/
  claimNode : Nat := 0
  /-- Slice tables received, own one included; 16 R524; reset none. -/
  tables : List SliceTab := []
  /-- Map messages seen: (type, origin unique ID, epoch); 16 R525; reset none. -/
  seen : List (Nat × Nat × Nat) := []
  /-- AGREE rounds made; 16 R527; reset 0. -/
  rounds : Nat := 0
  /-- The proposer waits `flood_quiet_us` before it proposes again, 1 bit; 16 R527; reset 0. -/
  waiting : Bool := false
  /-- Epoch proposed, 16 bits; 16 R527; reset 0. -/
  propEpoch : Nat := 0
  /-- A proposal has been seen or made in this boot, 1 bit; 16 R527; reset 0. -/
  proposed : Bool := false
  /-- Acknowledged counts by child node in this round; 16 R527; reset none. -/
  acks : Tab Nat := []
  /-- This member has acknowledged in this round, 1 bit; 16 R527; reset 0. -/
  acked : Bool := false
  /-- Links in TRAINING on which BOOT is sent once they are trained; 16 R523; reset none. -/
  booting : NSet := []
  /-- `cap_sequence` by view, job ID or 4,096 for the device view, 32 bits; 01 R35; reset 0. -/
  capSeq : Tab Nat := []
  /-- Pool, drive and T2 capacity composed at fabric boot, in extents; 11 R347; reset 0. -/
  t2Extents : Nat := 0
  deriving DecidableEq, Repr

end Sys2Proof.Machine
end

