-- ==== Sys2Proof/Machine/TypesMem.lean ====
section
/-! DEFINITION. Plain-data types of extents, drives, quotas, the flash tier and partitions (chapters 10 and 11). -/

namespace Sys2Proof.Machine

/-- Extent states, in the order of their codes (11 R343). -/
inductive ExtSt where
  | free | granted | draining | scrubbing | object | reserved | cache | filling | unavailable | held
  deriving DecidableEq, Repr

/-- Who holds an extent (11 R364); `object` and `none` for extents no grantee holds. -/
inductive Grantee where
  | nobody
  | host
  | tenant (t : Nat)
  | job (t j : Nat)
  | region (ctx : Nat)
  | workset (ctx : Nat)
  | object (id : Nat)
  deriving DecidableEq, Repr

/-- An extent of T1 or T2 (11 R343, R362 to R367). -/
structure Ext where
  /-- State, 4 bits; 11 R343; reset FREE. -/
  st : ExtSt := .free
  /-- Grantee; 11 R364; reset nobody. -/
  who : Grantee := .nobody
  /-- Drain timeout of a DRAINING extent, XD0 time, 64 bits; 11 R367; reset 0. -/
  drainBy : Nat := 0
  /-- REVOKE_EXTENT command waiting for it (in-flight number plus 1); 11 R366; reset 0. -/
  cmd : Nat := 0
  deriving DecidableEq, Repr

/-- Drive states, in the order of their codes (11 R348). -/
inductive DriveSt where
  | absent | active | draining | safe | failed
  deriving DecidableEq, Repr

/-- A drive bay (11 R346 to R348, 17 R550). -/
structure Drive where
  /-- Drive state, 3 bits; 11 R348; reset ABSENT. -/
  st : DriveSt := .absent
  /-- A drive is present in the bay, 1 bit; 17 R550; reset 0. -/
  present : Bool := false
  /-- Capacity of the drive present in bytes, 64 bits; 11 R346; reset 0. -/
  capacity : Nat := 0
  /-- Extents contributed when last ACTIVE, 26 bits; 11 R346, R366; reset 0. -/
  extents : Nat := 0
  /-- The slot is powered and the drive trains, 1 bit; 17 R550; reset 0. -/
  training : Bool := false
  /-- End of the attention button's abort window, XD0 time, if one runs; 17 R550; reset none. -/
  windowEnd : Option Nat := none
  /-- Requests ended by the drain in progress; 17 R555; reset 0. -/
  ended : Nat := 0
  deriving DecidableEq, Repr

/-- What a drive operation is for (11 R348 to R355). -/
inductive TierFor where
  /-- A sector read into the tier cache. -/
  | sector
  /-- A write of a fill of GRANT_EXTENT: the in-flight command, the source T1 extent. -/
  | fill (cmd src : Nat)
  /-- A write of a demotion of a context's region: the source T1 extent. -/
  | demote (ctx src : Nat)
  /-- A read of a recall of a context's region: the destination T1 extent. -/
  | recall (ctx dst : Nat)
  /-- A read of a demoted region for MOVE_STATE: the context, and the READ requests of the destination that wait for it. -/
  | move (ctx : Nat)
  /-- The Flush that ends a fill or a demotion. -/
  | flushFill (cmd : Nat)
  | flushDemote (ctx : Nat)
  /-- The Flush of a move to OFF_READY (18 R570). -/
  | flushOff
  deriving DecidableEq, Repr

/-- A drive operation outstanding (11 R352). -/
structure TierOp where
  /-- Number. -/
  id : Nat := 0
  /-- Drive bay. -/
  drive : Nat := 0
  /-- Tier window offset. -/
  offset : Nat := 0
  /-- Bytes. -/
  len : Nat := 0
  /-- Purpose. -/
  why : TierFor := .sector
  /-- Attempts left after this one. -/
  left : Nat := 0
  /-- XD0 time at which this attempt times out. -/
  due : Nat := 0
  /-- READ requests of other nodes that wait for the sector (12 R378). -/
  wants : List FPkt := []
  deriving DecidableEq, Repr

/-- A frame of the tier cache (11 R349). -/
structure Frame where
  /-- Number of the frame among `tier_cache_extents`. -/
  ix : Nat := 0
  /-- T2 extent held (tier window offset / 2 MiB) plus 1; 0 none. -/
  t2 : Nat := 0
  /-- Sectors present, 32 bits. -/
  present : NSet := []
  deriving DecidableEq, Repr

/-- A sealed PREFIX object or replica (04 R140 to R144, 11 R368). -/
structure PrefixObj where
  /-- Object ID, 32 bits. -/
  id : Nat := 0
  /-- Tenant. -/
  tenant : Nat := 0
  /-- Whole blocks held. -/
  blocks : Nat := 0
  /-- Layers. -/
  layers : Nat := 0
  /-- Bytes per token-layer. -/
  rowBytes : Nat := 0
  /-- First T1 extent. -/
  first : Nat := 0
  /-- T1 extents. -/
  count : Nat := 0
  /-- Block hashes h(0) to h(n - 1), 128 bits each. -/
  hashes : List Nat := []
  /-- A copy of another node's object. -/
  replica : Bool := false
  /-- Time of last use. -/
  used : Nat := 0
  deriving DecidableEq, Repr

/-- Partition states, in the order of their codes (10 R317). -/
inductive PartSt where
  | absent | active | destroying
  deriving DecidableEq, Repr

/-- Phases of a switch of a rotation (10 R333 to R339). -/
inductive SwPhase where
  /-- A yield request is to be sent (10 R334). -/
  | asking
  /-- A yield request was sent; the cores are stopping (10 R334). -/
  | yielding
  /-- The context is being stopped at resumable points (10 R333). -/
  | stopping
  | saving
  | restoring
  deriving DecidableEq, Repr

/-- A switch in progress (10 R330, R334 to R339). -/
structure Switch where
  /-- Outgoing context slot plus 1; 0 none. -/
  out : Nat := 0
  /-- Incoming context slot plus 1; 0 none. -/
  inc : Nat := 0
  /-- Phase. -/
  phase : SwPhase := .stopping
  /-- XD0 time of the switch decision. -/
  at_ : Nat := 0
  /-- XD0 time of the yield request. -/
  askedAt : Nat := 0
  /-- The save is by live ranges. -/
  byYield : Bool := false
  /-- The switch pre-empts a BE context for an LC context. -/
  preempt : Bool := false
  deriving DecidableEq, Repr

/-- One rotation of a partition (10 R328 to R330). -/
structure Rot where
  /-- Slot of the context on cores plus 1; 0 none. -/
  cur : Nat := 0
  /-- Slot of the LC context that last ran. -/
  lastLc : Nat := 7
  /-- Slot of the BE context that last ran. -/
  lastBe : Nat := 7
  /-- XD0 time at which the slice in progress began. -/
  sliceAt : Nat := 0
  /-- `slice_us` in force for the slice. -/
  sliceUs : Nat := 0
  /-- The slice in progress has ended. -/
  ended : Bool := false
  /-- Switch in progress. -/
  sw : Option Switch := none
  deriving DecidableEq, Repr

/-- A partition (10 R317 to R332). -/
structure Part where
  /-- State, 2 bits; 10 R317; reset ABSENT. -/
  st : PartSt := .absent
  /-- `deterministic`, 1 bit; 10 R319; reset 0. -/
  det : Bool := false
  /-- `preempt_yield` of CREATE_PARTITION, 1 bit; 10 R321; reset 0. -/
  reqYield : Bool := false
  /-- Effective pre-emption mode YIELD, 1 bit; 10 R331; reset 0. -/
  effYield : Bool := false
  /-- Job, 12 bits; 10 R321; reset 0. -/
  job : Nat := 0
  /-- `model_id`, 32 bits; 10 R321; reset 0. -/
  model : Nat := 0
  /-- `prefill_core_mask`, 48 bits; 10 R321; reset 0. -/
  pMask : Nat := 0
  /-- `decode_core_mask`, 48 bits; 10 R321; reset 0. -/
  dMask : Nat := 0
  /-- Images bound, IDs; 10 R324; reset none. -/
  images : NSet := []
  /-- Prefill rotation; 10 R328; reset none on cores. -/
  pRot : Rot := {}
  /-- Decode rotation; 10 R328; reset none on cores. -/
  dRot : Rot := {}
  /-- Durations in µs of the last 16 committed steps, latest first; 03 R100; reset none. -/
  steps : List Nat := []
  /-- Step boundaries so far, 64 bits; 03 R100; reset 0. -/
  boundary : Nat := 0
  /-- XD0 time at which the step in progress started, if one is; 03 R100; reset none. -/
  stepAt : Option Nat := none
  /-- Contexts in the step in progress; 09 R310; reset none. -/
  batch : List Nat := []
  /-- DESTROY_PARTITION command waiting (in-flight number plus 1); 10 R323; reset 0. -/
  cmd : Nat := 0
  deriving DecidableEq, Repr

end Sys2Proof.Machine
end

