-- ==== Sys2Proof/Machine/TypesCmd.lean ====
section
/-! DEFINITION. Commands taken and not completed (02 R51, R61, R66): what each one waits for. -/

namespace Sys2Proof.Machine

/-- Kinds of object a load command copies (02 R584). -/
inductive ObjKind where
  | image | model | delta | replace | grammar
  deriving DecidableEq, Repr

/-- What a command in flight waits for. -/
inductive Wait where
  /-- Being performed: a command that waits for nothing. -/
  | performing
  /-- DELETE_RING of a ring: type and number (02 R74). -/
  | deleteRing (ty id : Nat)
  /-- SET_POWER_MODE: the transition (01 R32). -/
  | power (mode : Nat)
  /-- CANCEL of a context: the end of the layer, or of its drain (03 R112). -/
  | cancel (ctx : Nat)
  /-- PAUSE: the step boundary (03 R114). -/
  | pause (ctx : Nat)
  /-- RESUME: the recall (03 R115). -/
  | resume (ctx : Nat)
  /-- MOVE_STATE before its region is open: source node, handle, output ring (04 R146). -/
  | moveAsk (node handle ring : Nat)
  /-- MOVE_STATE with its destination context (04 R146). -/
  | move (ctx : Nat)
  /-- FETCH_PREFIX (04 R143). -/
  | fetch (prefixId tenant : Nat)
  /-- SEAL_PREFIX: context, blocks, object ID, extents, hashes still to be inserted (04 R144). -/
  | sealing (ctx n obj first count left : Nat)
  /-- SET_MIRROR (04 R149). -/
  | mirror (ctx : Nat) (on : Bool)
  /-- An object copy: kind, source offset, size, tenant, the object it names (02 R584). -/
  | copy (k : ObjKind) (src size tenant obj : Nat)
  /-- DESTROY_PARTITION, UNBIND_IMAGE (10 R323, R325). -/
  | destroyPart (part : Nat)
  | unbind (img part : Nat)
  /-- GRANT_EXTENT with a fill (11 R363): grantee, tenant charged, first T2 extent, extents. -/
  | fill (who : Grantee) (tenant first count : Nat)
  /-- REVOKE_EXTENT (11 R366): tier, first extent, extents, extents revoked, requests ended. -/
  | revoke (tier first count revoked ended : Nat)
  /-- FLUSH_RANGE: tags of the transactions waited for (12 R394). -/
  | flush (tags : List Nat)
  /-- ACQUIRE_RANGE waiting for VERSION_DATA: node, offset, length (12 R395). -/
  | acquire (node off len : Nat)
  /-- PUBLISH: fence tags, then the packet's answer (12 R397): node, offset, count, base, job, as host, sent. -/
  | publish (tags : List Nat) (node off count base job : Nat) (asHost sent : Bool)
  /-- PORT_CONTROL or a port drain: link (13 R429). -/
  | port (link : Nat)
  /-- A gather or filter run (13 R442). -/
  | collRun (eng sess : Nat)
  /-- A Tumbler write (15 R489 to R494). -/
  | tumbler (table : Nat)
  /-- SEARCH with cascaded keys out: result records so far by key index, keys, result address (15 R492). -/
  | search (table count resAddr : Nat) (recs : List (Nat × List Byte))
  /-- GET_EVIDENCE: nonce, buffer (16 R511). -/
  | evidence (nonce buf : Nat)
  /-- STAGE_MANIFEST with persist: the manifest (16 R521). -/
  | persist (body : List Byte) (whole : List Byte) (enroll : Bool)
  /-- FABRIC_BOOT (16 R522). -/
  | fabricBoot
  /-- SERVICE_DRAIN: target, index (17 R555). -/
  | drain (target index : Nat)
  /-- ENTER_LOW_POWER: level asked for (18 R569). -/
  | lowPower (level : Nat)
  deriving DecidableEq, Repr

/-- A command taken and not completed. -/
structure Inflight where
  /-- Number by which the events of the table name it. -/
  id : Nat := 0
  /-- Submission ring. -/
  sq : Nat := 0
  /-- `tag`. -/
  tag : Nat := 0
  /-- Opcode. -/
  opcode : Nat := 0
  /-- `handle` of the header. -/
  handle : Nat := 0
  /-- `fence`. -/
  fence : Bool := false
  /-- `irq`. -/
  irq : Bool := false
  /-- Writes to its result buffer fail (02 R57). -/
  wfault : Bool := false
  /-- XD0 time of its start. -/
  start : Nat := 0
  /-- XD0 time at which its bound expires. -/
  due : Nat := 0
  /-- It has passed its commit point. -/
  committed : Bool := false
  /-- What it waits for. -/
  wait : Wait := .performing
  deriving DecidableEq, Repr

end Sys2Proof.Machine
end

