-- ==== Sys2Proof/Machine/TypesFab.lean ====
section
/-! DEFINITION. Plain-data types of the fabric: transactions, liveness, links, queues, gate lists, collective sessions (chapters 12
to 14). -/

namespace Sys2Proof.Machine

/-- Liveness states, in the order of their codes (12 R404). -/
inductive Live where
  | unmapped | alive | suspect | dead
  deriving DecidableEq, Repr

/-- What the device keeps for a node number (12 R404, R412, 13 R432, 17 R536). -/
structure Node where
  /-- Liveness state, 2 bits; 12 R404; reset UNMAPPED. -/
  live : Live := .unmapped
  /-- Role code, 2 bits; 12 R412; reset 0. -/
  role : Nat := 0
  /-- Unique ID, 64 bits; 16 R525; reset 0. -/
  uid : Nat := 0
  /-- XD0 time of the last packet received from it, if any; 12 R412; reset none. -/
  heard : Option Nat := none
  /-- XD0 time of the last HEARTBEAT from it (neighbours); 17 R536; reset 0. -/
  beat : Nat := 0
  /-- Consecutive unanswered probe intervals, 8 bits; 17 R536; reset 0. -/
  missed : Nat := 0
  /-- XD0 time of the last PROBE sent; 17 R536; reset 0. -/
  probedAt : Nat := 0
  /-- Number of the last PROBE, 32 bits; 17 R539; reset 0. -/
  probeNo : Nat := 0
  /-- `heartbeat_miss_limit` taken when it became SUSPECT; 17 R557; reset 0. -/
  missLimit : Nat := 0
  /-- NODE_DOWN for it has been forwarded at this epoch, 1 bit; 17 R537; reset 0. -/
  downSeen : Bool := false
  /-- Level of 13 R431; reset 0. -/
  level : Nat := 0
  /-- Route set: links 0 to 39; 13 R432; reset none. -/
  route : NSet := []
  /-- Backup set: links 0 to 39; 13 R432; reset none. -/
  backup : NSet := []
  /-- Hops of the shortest legal route, 5 bits; 13 R432; reset 0. -/
  hops : Nat := 0
  deriving DecidableEq, Repr

/-- On whose behalf a request packet was sent (12 R376). -/
inductive TxnFor where
  /-- A line of a descriptor: program context, rank, engine, number of the line. -/
  | engine (pc rank eng line : Nat)
  /-- A line write of a layer push or prefix pass of a context. -/
  | push (ctx : Nat)
  /-- A line read of MOVE_STATE: context, byte offset in the region. -/
  | pull (ctx off : Nat)
  /-- A hinge message of a latch slot. -/
  | hinge (slot : Nat)
  /-- A mirror write of a context. -/
  | mirror (ctx : Nat)
  /-- PUBLISH or VERSION_READ of an in-flight command. -/
  | command (cmd : Nat)
  /-- A forwarded write of a reduce session: engine, session, line. -/
  | collFwd (eng sess line : Nat)
  /-- A read of a run: engine, session, k. -/
  | collRead (eng sess k : Nat)
  /-- A destination write of a run. -/
  | collWrite (eng sess : Nat)
  /-- A write or an atomic of a program context that has ended. -/
  | nobody
  deriving DecidableEq, Repr

/-- A request packet not yet answered (12 R383). -/
structure Txn where
  /-- `tag`. -/
  tag : Nat := 0
  /-- The packet as sent. -/
  pkt : FPkt := {}
  /-- For whom. -/
  who : TxnFor := .command 0
  /-- XD0 time at which the fabric transaction timeout expires. -/
  due : Nat := 0
  deriving DecidableEq, Repr

/-- A line of the remote-line cache (12 R389 to R392). -/
structure RlcLine where
  /-- Job that fetched it. -/
  job : Nat := 0
  /-- The 128 bytes, as a number. -/
  data : Nat := 0
  /-- WRITEs to it not yet acknowledged. -/
  unacked : Nat := 0
  /-- Use counter value at its last use. -/
  used : Nat := 0
  deriving DecidableEq, Repr

/-- Teardown state of a job (12 R408, R411). -/
structure JobTd where
  /-- `job_gen`, 16 bits; 12 R408; reset 0. -/
  gen : Nat := 0
  /-- The window of R411 is open, 1 bit; 12 R411; reset 0. -/
  open_ : Bool := false
  /-- Generation held at this node's own detection plus 1, 0 none; 12 R411; reset 0. -/
  detected : Nat := 0
  /-- JOB_FAULT not yet acknowledged: (generation, cause, target); 12 R408; reset none. -/
  report : Option (Nat × Nat × Nat) := none
  deriving DecidableEq, Repr

/-- The fabric memory layer (chapter 12). -/
structure Fab where
  /-- Nodes by number; 12 R404; reset UNMAPPED. -/
  nodes : Tab Node := []
  /-- Sequence counter per destination, 32 bits; 12 R382; reset 0. -/
  seqTx : Tab Nat := []
  /-- Next sequence number to perform per source, 32 bits; 12 R383; reset 0. -/
  seqRx : Tab Nat := []
  /-- Request packets that arrived early: (link, packet); 12 R383; reset none. -/
  early : List (Nat × FPkt) := []
  /-- Requests not yet answered, oldest first; 12 R383; reset none. -/
  txns : List Txn := []
  /-- Request packets that wait for an answer from their destination before they can be issued, oldest first; 12 R383; reset none. -/
  unsent : List Txn := []
  /-- Number of the next line of a descriptor sent to another node; the model's own; reset 0. -/
  lineNext : Nat := 0
  /-- Next transaction tag, 16 bits; 12 R379; reset 0. -/
  tagNext : Nat := 0
  /-- Remote-line cache by fabric line address / 128; 12 R389; reset empty. -/
  rlc : Tab RlcLine := []
  /-- Use counter of the cache's replacement order, 64 bits; 12 R389; reset 0. -/
  rlcUse : Nat := 0
  /-- Versions of T1 extents, 64 bits each; 12 R396; reset 0. -/
  versions : Tab Nat := []
  /-- Teardown state per job; 12 R408; reset generation 0. -/
  jobs : Tab JobTd := []
  /-- Poisoned lines of this node's HBM, by offset / 128; 06 R229; reset none. -/
  hbmPoison : NSet := []
  deriving DecidableEq, Repr

/-- Port states, in the order of their codes (13 R428). -/
inductive PortSt where
  | down | training | up | unmapped | draining | out | disabled | failed
  deriving DecidableEq, Repr

/-- A packet waiting in an egress queue (14 R449, R462). -/
structure QPkt where
  /-- The packet. -/
  pkt : FPkt := {}
  /-- Island counter when it joined. -/
  joined : Nat := 0
  /-- It is sampled; the depth in bytes when it joined. -/
  sample : Option Nat := none
  deriving DecidableEq, Repr

/-- A token-bucket shaper (14 R452, R453). -/
structure Shaper where
  /-- Enabled, 1 bit; 14 R452; reset 0. -/
  on : Bool := false
  /-- Rate in MB/s; 14 R452; reset 0. -/
  rate : Nat := 0
  /-- Depth in bytes; 14 R452; reset 0. -/
  depth : Nat := 0
  /-- Interval in port cycles; 14 R452; reset 0. -/
  interval : Nat := 0
  /-- Token count in bytes; 14 R452; reset 0. -/
  tokens : Nat := 0
  /-- Remainder in thousandths of a byte; 14 R452; reset 0. -/
  rem : Nat := 0
  /-- Island counter value of the next refill; 14 R453; reset 0. -/
  nextAt : Nat := 0
  /-- Pending change: rate, depth in bytes, interval; 14 R454; reset none. -/
  pend : Option (Nat × Nat × Nat) := none
  deriving DecidableEq, Repr

/-- An egress queue (14 R446 to R464). -/
structure Queue where
  /-- FIFO of responses, oldest first; 14 R449; reset empty. -/
  resp : List QPkt := []
  /-- FIFO of everything else, oldest first; 14 R449; reset empty. -/
  req : List QPkt := []
  /-- Deficit in bytes; 14 R451; reset 0. -/
  deficit : Nat := 0
  /-- Shaper. -/
  sh : Shaper := {}
  /-- Sampling enabled, 1 bit; 14 R464; reset 0. -/
  smpOn : Bool := false
  /-- `log2_rate`; 14 R464; reset 0. -/
  smpLog2 : Nat := 0
  /-- Packets joined since the settings' commit; 14 R462; reset 0. -/
  smpCount : Nat := 0
  deriving DecidableEq, Repr

/-- A gate list (14 R455, R456): (open mask, duration) pairs, and its adoption value. -/
structure GateList where
  /-- Entries. -/
  entries : List (Nat × Nat) := []
  /-- Adoption value T; 0 for the cold-boot list. -/
  adoptAt : Nat := 0
  deriving DecidableEq, Repr

/-- A link (13 R416 to R434, 14 R446 to R458). -/
structure Link where
  /-- Port state, 3 bits; 13 R428; reset DOWN. -/
  st : PortSt := .down
  /-- State to which a retrain or a drain returns; 13 R425, R429; reset DOWN. -/
  backTo : PortSt := .down
  /-- `peer_node`, 14 bits; 13 R430; reset 0. -/
  peerNode : Nat := 0
  /-- `peer_unnumbered`, 1 bit; 13 R430; reset 0. -/
  peerUnnumbered : Bool := false
  /-- `peer_ident`, 1 bit; 13 R430; reset 0. -/
  peerIdent : Bool := false
  /-- `peer_uid`, 64 bits; 13 R430; reset 0. -/
  peerUid : Nat := 0
  /-- `peer_link`, 6 bits; 13 R430; reset 0. -/
  peerLink : Nat := 0
  /-- `peer_epoch`, 16 bits; 13 R430; reset 0. -/
  peerEpoch : Nat := 0
  /-- `fec_corrected`, 64 bits; 13 R430; reset 0. -/
  fecCorrected : Nat := 0
  /-- `fec_uncorrectable`, 32 bits; 13 R430; reset 0. -/
  fecUncorrectable : Nat := 0
  /-- `replays`, 32 bits; 13 R430; reset 0. -/
  replays : Nat := 0
  /-- `retrains`, 16 bits; 13 R430; reset 0. -/
  retrains : Nat := 0
  /-- `tx_slots`, 64 bits; 13 R430; reset 0. -/
  txSlots : Nat := 0
  /-- `rx_slots`, 64 bits; 13 R430; reset 0. -/
  rxSlots : Nat := 0
  /-- Sequence number of the next new flit, 12 bits; 13 R422; reset 0. -/
  txSeq : Nat := 0
  /-- Replay buffer: flits kept until acknowledged, at most 256; 13 R422; reset empty. -/
  kept : List Flit := []
  /-- XD0 time of the last acknowledgement progress; 13 R422; reset 0. -/
  ackAt : Nat := 0
  /-- Replays since the last acknowledgement progress; 13 R422; reset 0. -/
  replayRun : Nat := 0
  /-- Sequence number expected next, 12 bits; 13 R422; reset 0. -/
  expected : Nat := 0
  /-- A nak was sent for the present gap, 1 bit; 13 R422; reset 0. -/
  nakSent : Bool := false
  /-- Accepted flits not yet acknowledged; 13 R422; reset 0. -/
  ackOwed : Nat := 0
  /-- XD0 time by which the owed acknowledgement is due; 13 R422; reset 0. -/
  ackDue : Nat := 0
  /-- Credits held for the peer's eight lanes, in slots; 13 R426, R427; reset the table of R426. -/
  credits : List Nat := [256, 256, 768, 768, 768, 768, 256, 256]
  /-- Credits to return to the peer by lane; 13 R427; reset 0. -/
  creditOwed : List Nat := [0, 0, 0, 0, 0, 0, 0, 0]
  /-- Lane whose owed credits are returned next; 13 R427; reset 0. -/
  creditPtr : Nat := 0
  /-- Slots of started packets not yet in a flit: (slot, begins a packet); 13 R421; reset empty. -/
  txStream : List (BitVec 256 × Bool) := []
  /-- Slots received and not yet made into packets; 13 R421; reset empty. -/
  rxStream : List (BitVec 256) := []
  /-- Packets received and not yet handled; 13 R426; reset empty. -/
  rx : List FPkt := []
  /-- Flits sent, as the peer sees them, latest last (an output); 13 R418; reset empty. -/
  sent : List Flit := []
  /-- Consecutive failed retrains, 8 bits; 13 R425; reset 0. -/
  retrainFails : Nat := 0
  /-- XD0 time at which the training in progress began; 13 R425; reset 0. -/
  trainAt : Nat := 0
  /-- XD0 time at which a drain gives up; 13 R429; reset 0. -/
  drainBy : Nat := 0
  /-- State the drain in progress ends in: OUT, DISABLED, or TRAINING for a RETRAIN; 13 R429; reset OUT. -/
  drainTo : PortSt := .out
  /-- Nodes whose route set held the link when it last left UP; 13 R425; reset none. -/
  hadRoute : NSet := []
  /-- Nodes whose backup set held the link when it last left UP; 13 R425; reset none. -/
  hadBackup : NSet := []
  /-- Queues 0 to 31; 14 R446; reset empty. -/
  queues : Tab Queue := []
  /-- Packets for this link that wait where they are for egress buffer room, oldest first; 14 R449; reset none. -/
  held : List FPkt := []
  /-- `ptr`; 14 R451; reset 0. -/
  ptr : Nat := 0
  /-- `fresh`; 14 R451; reset 1. -/
  fresh : Bool := true
  /-- Operational gate list; 14 R456; reset one entry, bits 0 to 24, duration 16,777,215. -/
  gate : GateList := ⟨[(0x1FFFFFF, 16777215)], 0⟩
  /-- Entry in force; 14 R456; reset 0. -/
  gateIx : Nat := 0
  /-- Island counter value at which the next entry takes over; 14 R456; reset 16,777,215. -/
  gateEnd : Nat := 16777215
  /-- Staged gate list; 14 R456; reset empty. -/
  staged : Option GateList := none
  deriving DecidableEq, Repr

/-- A line of a reduce session that has contributions (13 R437 to R439). -/
structure CollLine where
  /-- Contributions in arrival order: (node, line, poisoned). -/
  got : List (Nat × Nat × Bool) := []
  /-- XD0 time at which it times out. -/
  due : Nat := 0
  deriving DecidableEq, Repr

/-- Session states, in the order of their codes (13 R436). -/
inductive SessSt where
  | free | open_ | running | error
  deriving DecidableEq, Repr

/-- A collective session (13 R435 to R443). -/
structure Sess where
  /-- State, 2 bits; 13 R436; reset FREE. -/
  st : SessSt := .free
  /-- Job. -/
  job : Nat := 0
  /-- `range_off`. -/
  rangeOff : Nat := 0
  /-- `range_lines`. -/
  rangeLines : Nat := 0
  /-- `elem`. -/
  elem : Nat := 0
  /-- `op` (true MAX). -/
  isMax : Bool := false
  /-- `deterministic`. -/
  det : Bool := false
  /-- `fwd_v`. -/
  fwd : Bool := false
  /-- `fwd_addr`. -/
  fwdAddr : Nat := 0
  /-- `class`. -/
  cls : Nat := 0
  /-- Contributors, ascending. -/
  contrib : List Nat := []
  /-- Lines with contributions, by line index. -/
  lines : Tab CollLine := []
  /-- RUN: it is a filter run. -/
  filter : Bool := false
  /-- RUN: source line addresses in order of k. -/
  srcs : List Nat := []
  /-- RUN: lines read so far: (k, line, poisoned). -/
  got : List (Nat × Nat × Bool) := []
  /-- RUN: lines arrived. -/
  next : Nat := 0
  /-- RUN: `dst_addr`. -/
  dst : Nat := 0
  /-- RUN_FILTER: TOPK. -/
  topk : Bool := false
  /-- RUN_FILTER: `field_type`. -/
  fty : Nat := 0
  /-- RUN_FILTER: `cmp`. -/
  cmp : Nat := 0
  /-- RUN_FILTER: `field_off`. -/
  foff : Nat := 0
  /-- RUN_FILTER: `k`. -/
  k : Nat := 0
  /-- RUN_FILTER: `constant`. -/
  const : Nat := 0
  /-- RUN: destination writes not yet acknowledged. -/
  writes : Nat := 0
  /-- RUN: lines written. -/
  written : Nat := 0
  /-- RUN: lines that wait for a drive: (number of the operation, k). -/
  waits : List (Nat × Nat) := []
  /-- RUN: in-flight command plus 1. -/
  cmd : Nat := 0
  deriving DecidableEq, Repr

/-- The switch, its links and the collective engines (chapters 13 and 14). -/
structure Net where
  /-- Links 0 to 39; 13 R416; reset DOWN. -/
  links : Tab Link := []
  /-- Collective sessions, by engine × 16 + session; 13 R435; reset FREE. -/
  sess : Tab Sess := []
  /-- The sample ring: enabled; 14 R463; reset 0. -/
  ringOn : Bool := false
  /-- `ring_offset`; 14 R464; reset 0. -/
  ringOff : Nat := 0
  /-- `ring_extents`; 14 R464; reset 0. -/
  ringExt : Nat := 0
  deriving DecidableEq, Repr

end Sys2Proof.Machine
end

