-- ==== Sys2Proof/Machine/TypesHost.lean ====
section
/-! DEFINITION. Plain-data types of the host attachment, keys, events, power, board and recovery (chapters 01, 02, 17, 18). -/

namespace Sys2Proof.Machine

/-- Ring states (02 R70). -/
inductive RingSt where
  | absent | active | error | deleting
  deriving DecidableEq, Repr

/-- A submission ring (02 R47 to R51, R72). -/
structure SubRing where
  /-- Ring state, 2 bits; 02 R70; reset ABSENT. -/
  st : RingSt := .absent
  /-- Host address of entry 0, 64 bits; 02 R72; reset 0. -/
  base : Nat := 0
  /-- log2 of the entry count, 5 bits; 02 R72; reset 0. -/
  log2 : Nat := 0
  /-- Index of the next entry the device takes, 16 bits; 02 R58; reset 0. -/
  head : Nat := 0
  /-- Index one past the last entry placed, 20 bits; 02 R49; reset 0. -/
  tail : Nat := 0
  /-- Completion ring bound, 6 bits; 02 R72; reset 0. -/
  cq : Nat := 0
  /-- Round-robin weight, 4 bits; 02 R51; reset 0. -/
  weight : Nat := 0
  deriving DecidableEq, Repr

/-- A completion or output ring (02 R47 to R54, R72). -/
structure DevRing where
  /-- Ring state, 2 bits; 02 R70; reset ABSENT. -/
  st : RingSt := .absent
  /-- Host address of entry 0, 64 bits; 02 R72; reset 0. -/
  base : Nat := 0
  /-- log2 of the entry count, 5 bits; 02 R72; reset 0. -/
  log2 : Nat := 0
  /-- Index one past the last entry the host consumed, 20 bits; 02 R49; reset 0. -/
  head : Nat := 0
  /-- Index of the next entry the device writes, 20 bits; 02 R48; reset 0. -/
  tail : Nat := 0
  /-- Phase bit of the present pass; 02 R48; reset 1. -/
  phase : Bool := true
  /-- MSI-X vector, 11 bits; 02 R72; reset 0. -/
  vector : Nat := 0
  /-- `irq_threshold`, 21 bits; 02 R54; reset 0. -/
  thr : Nat := 0
  /-- `irq_delay_us`, 16 bits; 02 R54; reset 0. -/
  delay : Nat := 0
  /-- Entries posted since the last signal, 21 bits; 02 R54; reset 0. -/
  posts : Nat := 0
  /-- Time of the first entry posted after the last signal, 64 bits; 02 R54; reset none. -/
  firstAt : Option Nat := none
  deriving DecidableEq, Repr

/-- The host interface (02 R40 to R54). -/
structure HostIf where
  /-- `host_if_avail`, 1 bit; 02 R42; reset 0. -/
  avail : Bool := false
  /-- `enable` of `host_if_ctrl`, 1 bit; 02 R41; reset 0. -/
  enable : Bool := false
  /-- `ready`, 1 bit; 02 R42; reset 0. -/
  ready : Bool := false
  /-- `cfg_error`, 1 bit; 02 R42; reset 0. -/
  cfgError : Bool := false
  /-- A teardown of 02 R44 is in progress, 1 bit; 02 R44; reset 0. -/
  tearing : Bool := false
  /-- `adm_sq_base`, 64 bits; 02 R41; reset 0. -/
  admSqBase : Nat := 0
  /-- `adm_cq_base`, 64 bits; 02 R41; reset 0. -/
  admCqBase : Nat := 0
  /-- `adm_ring_cfg`, 64 bits; 02 R42; reset 0. -/
  admRingCfg : Nat := 0
  /-- MSI-X table message addresses by vector, 2,048 of 64 bits; 02 R40; reset 0. -/
  msixAddr : Tab Nat := []
  /-- MSI-X table message data by vector, 2,048 of 32 bits; 02 R40; reset 0. -/
  msixData : Tab Nat := []
  /-- MSI-X vectors the host has unmasked, 2,048 bits; 02 R54; reset none (every mask bit 1). -/
  msixOpen : NSet := []
  /-- MSI-X pending bit array, 2,048 bits; 02 R40; reset 0. -/
  msixPba : NSet := []
  /-- Data the last BAR2 read returned, an output; 02 R45; reset none. -/
  bar2Data : List Byte := []
  /-- Submission rings 0 to 63; 02 R47; reset ABSENT. -/
  sq : Tab SubRing := []
  /-- Completion rings 0 to 63; 02 R47; reset ABSENT. -/
  cq : Tab DevRing := []
  /-- Output rings 0 to 255; 02 R47; reset ABSENT. -/
  oq : Tab DevRing := []
  /-- Ring 1 to 63 the weighted round robin serves now, 6 bits; 02 R51; reset 1. -/
  wrrRing : Nat := 1
  /-- Commands taken from it in this round, 4 bits; 02 R51; reset 0. -/
  wrrTaken : Nat := 0
  /-- Event sequence number, 16 bits; 02 R58; reset 0. -/
  evSeq : Nat := 0
  /-- Events lost since the last EVENTS_LOST, 64 bits; 02 R52; reset 0. -/
  evLost : Nat := 0
  /-- Doorbell writes latched during a control-core restart, oldest first: (ring type, ring, value, well formed); 02 R49; reset
  none. -/
  latched : List (Nat × Nat × Nat × Bool) := []
  deriving DecidableEq, Repr

/-- An event log entry (17 R546). -/
structure LogEntry where
  /-- Event code. -/
  event : Nat := 0
  /-- Log sequence. -/
  seq : Nat := 0
  /-- XD0 counter at posting. -/
  time : Nat := 0
  /-- `handle`. -/
  handle : Nat := 0
  /-- `result0`. -/
  r0 : Nat := 0
  /-- `result1`. -/
  r1 : Nat := 0
  deriving DecidableEq, Repr

/-- Why a budget transition is running, and where it goes (01 R30). -/
structure Trans where
  /-- Mode that comes into force when it completes. -/
  mode : Nat := 2
  /-- Target compute budget in W. -/
  compute : Nat := 0
  /-- Target HBM budget in W. -/
  hbm : Nat := 0
  /-- Target fabric budget in W. -/
  fabric : Nat := 0
  /-- Power windows since its start. -/
  windows : Nat := 0
  deriving DecidableEq, Repr

/-- Power, clocks and throttling (01 R14 to R33, 18 R569, R576, R577). -/
structure Power where
  /-- Power mode in force, 2 bits; 01 R23; reset 2 (the Cache budgets). -/
  mode : Nat := 2
  /-- Compute budget in force in W; 01 R23; reset 600. -/
  bCompute : Nat := 600
  /-- HBM budget in force in W; 01 R23; reset 912. -/
  bHbm : Nat := 912
  /-- Fabric budget in force in W; 01 R23; reset 464. -/
  bFabric : Nat := 464
  /-- Budget transition in progress; 01 R30; reset none. -/
  trans : Option Trans := none
  /-- Role default mode that applies on the return to RUN; 18 R569; reset none. -/
  pendMode : Option Nat := none
  /-- Low-power level, 2 bits; 18 R568; reset 0. -/
  level : Nat := 0
  /-- Capped clock of the prefill cores in MHz; 01 R24; reset 800. -/
  prefillMhz : Nat := 800
  /-- Capped clock of the decode cores in MHz; 01 R24; reset 800. -/
  decodeMhz : Nat := 800
  /-- Sixteenths of cycles withheld from matrix engine issue, 0 to 16; 01 R24; reset 0. -/
  issueCut : Nat := 0
  /-- HBM pacing active, 1 bit; 01 R24; reset 0. -/
  hbmPaced : Bool := false
  /-- Fabric pacing: 0 none, 1 collective engines, 2 BULK too, 3 PUSH too; 01 R24; reset 0. -/
  fabricPace : Nat := 0
  /-- Throttling steps of compute dies and pacing steps of fabric dies, by die code; 18 R576; reset 0. -/
  dieSteps : Tab Nat := []
  /-- Dies being throttled, by die code; 18 R576; reset none. -/
  throttled : NSet := []
  /-- Stacks being paced to 1,024 GB/s; 18 R576; reset none. -/
  stackPaced : NSet := []
  /-- Die temperatures in °C by die code; 18 R575; reset 0. -/
  dieTemp : Tab Nat := []
  /-- Stack temperatures in °C; 18 R575; reset 0. -/
  stackTemp : Tab Nat := []
  /-- PROCHOT_N is low, 1 bit; 18 R577; reset 0. -/
  prochot : Bool := false
  /-- Time PROCHOT_N fell, 64 bits; 18 R577; reset 0. -/
  prochotAt : Nat := 0
  /-- Time of the last power window's end, 64 bits; 01 R24; reset 0. -/
  windowAt : Nat := 0
  deriving DecidableEq, Repr

/-- Rails and board signals (18 R561 to R578). -/
structure Board where
  /-- SYS_PWROK is high, 1 bit; 18 R566; reset 1 (its rise is the reset release). -/
  pwrok : Bool := true
  /-- FATAL_N is driven low, 1 bit; 18 R565; reset 0. -/
  fatalN : Bool := false
  /-- THERMTRIP_N is driven low, 1 bit; 18 R578; reset 0. -/
  thermtripN : Bool := false
  /-- OFF_READY is high, 1 bit; 18 R570; reset 0. -/
  offReady : Bool := false
  /-- FLASH_REQ_N is low, 1 bit; 18 R574; reset 0. -/
  flashReq : Bool := false
  /-- FLASH_GNT_N is driven low, 1 bit; 18 R574; reset 0. -/
  flashGnt : Bool := false
  /-- Latest READ_VOUT of each rail in mV, row order of R561; 18 R563; reset 0. -/
  vout : Tab Nat := []
  /-- Latest READ_IOUT of each rail in A; 18 R563; reset 0. -/
  iout : Tab Nat := []
  /-- Since when a rail's reading is outside its tolerance; 18 R565; reset none. -/
  railBad : Tab Nat := []
  /-- Voltage last commanded on VDD_CD in mV, 16 bits; 18 R564; reset 750. -/
  vddCd : Nat := 750
  /-- Voltage last commanded on VDD_FD in mV, 16 bits; 18 R564; reset 800. -/
  vddFd : Nat := 800
  /-- Time of the last VOUT_COMMAND, if one was sent; 18 R564; reset none. -/
  voutAt : Option Nat := none
  deriving DecidableEq, Repr

/-- Module states (17 R552). -/
inductive ModSt where
  | inService | abortWindow | draining | safe
  deriving DecidableEq, Repr

/-- Device status, watchdogs, module service and the event log (17). -/
structure Recov where
  /-- `fatal`, 1 bit; 02 R42; reset 0. -/
  fatal : Bool := false
  /-- `fatal_code`, 16 bits; 02 R41; reset 0. -/
  fatalCode : Nat := 0
  /-- `ctl_restart`, 1 bit; 02 R42; reset 0. -/
  ctlRestart : Bool := false
  /-- Times of the restarts of the last 60 s; 17 R543; reset none. -/
  restarts : List Nat := []
  /-- Commands completed RETRY_LATER in the restart in progress, 32 bits; 17 R548; reset 0. -/
  retried : Nat := 0
  /-- Module state; 17 R552; reset IN_SERVICE. -/
  modSt : ModSt := .inService
  /-- XD0 time at which the module's abort window closes, or its drain gives up, 64 bits; 17 R552, R554; reset 0. -/
  modAt : Nat := 0
  /-- The module drain has given up and its ports are being disabled, 1 bit; 17 R554; reset 0. -/
  modClosing : Bool := false
  /-- Requests ended with STATE_LOST by the module drain, 16 bits; 17 R548; reset 0. -/
  modEnded : Nat := 0
  /-- Fenced dies, by the die code of R548; 17 R544; reset none. -/
  fenced : NSet := []
  /-- Ports showing the drain-refused pattern, with the XD0 time at which it ends; 17 R551; reset none. -/
  refusedPat : Tab Nat := []
  /-- Button presses latched during a control-core restart (0 to 35 ports, 64 to 71 drives, 128 module), oldest first; 17 R540; reset none. -/
  buttons : List Nat := []
  /-- This device isolated itself, 1 bit; 17 R538; reset 0. -/
  isolated : Bool := false
  /-- Heartbeat intervals in a row without any HEARTBEAT while a port was UP, 8 bits; 17 R538; reset 0. -/
  silent : Nat := 0
  /-- A HEARTBEAT arrived in this interval, 1 bit; 17 R538; reset 0. -/
  heard : Bool := false
  /-- A port was UP since this interval began, by link; 17 R538; reset none. -/
  upAll : NSet := []
  /-- Time of the last HEARTBEAT sent, 64 bits; 17 R535; reset 0. -/
  hbAt : Nat := 0
  /-- The event log, oldest first, at most 4,096 entries; 17 R545; reset empty. -/
  log : List LogEntry := []
  /-- Log sequence of the next entry, 32 bits; 17 R545; reset 0. -/
  logSeq : Nat := 0
  deriving DecidableEq, Repr

end Sys2Proof.Machine
end

