-- ==== Sys2Proof/Machine/TypesProg.lean ====
section
/-! DEFINITION. Plain-data types of images, program contexts, engines and cores (chapters 05 and 06), and of the sealed objects
MODEL, DELTA and GRAMMAR (chapters 07 to 09). -/

namespace Sys2Proof.Machine

/-- An IMAGE object (06 R195 to R201); its bytes are in T1. -/
structure Img where
  /-- Image ID, 32 bits; 06 R200. -/
  id : Nat := 0
  /-- Owning tenant. -/
  tenant : Nat := 0
  /-- `image_size`. -/
  size : Nat := 0
  /-- First T1 extent of the copy. -/
  first : Nat := 0
  deriving DecidableEq, Repr

/-- One enclosing LOOP of an engine (06 R216). -/
structure LoopFrame where
  /-- First descriptor of the body. -/
  start : Nat := 0
  /-- One past its last descriptor. -/
  stop : Nat := 0
  /-- Iterations left after this one. -/
  left : Nat := 0
  deriving DecidableEq, Repr

/-- A range of bytes of a core touched by a descriptor, with who touched it and when (05 R180). -/
structure Touch where
  /-- Engine. -/
  eng : Nat := 0
  /-- Descriptors started, by engine, as its engine knew when it started, itself included. -/
  clock : List Nat := []
  /-- A write. -/
  wr : Bool := false
  /-- Accumulator banks rather than scratchpad. -/
  acc : Bool := false
  /-- (first byte, bytes) of each piece. -/
  parts : List (Nat × Nat) := []
  deriving DecidableEq, Repr

/-- A line of a descriptor in progress that waits for data from elsewhere (06 R217, R218). -/
structure LineWait where
  /-- It waits for a drive operation; else for a fabric answer. -/
  tier : Bool := false
  /-- Number of the drive operation, or of the line. -/
  key : Nat := 0
  /-- Pieces: (byte in the answer, scratchpad byte, length). -/
  parts : List (Nat × Nat × Nat) := []
  deriving DecidableEq, Repr

/-- A descriptor that has started and is not complete, or complete and not yet signalled (06 R211, R212). -/
structure InProg where
  /-- Its index in the stream. -/
  index : Nat := 0
  /-- Its 512 bits. -/
  desc : Nat := 0
  /-- Answers it waits for. -/
  waits : List LineWait := []
  /-- It has received poison. -/
  poisoned : Bool := false
  /-- The clock of the engine when it started, one entry per engine (05 R180). -/
  clock : List Nat := []
  deriving DecidableEq, Repr

/-- A weight tile held by a matrix engine (05 R161, 06 R222, R233). -/
structure Tile where
  /-- Weight type code. -/
  ty : Nat := 0
  /-- `k_len`. -/
  k : Nat := 0
  /-- `n_cols`. -/
  n : Nat := 0
  /-- The MATMUL descriptor that loaded it (its recorded source). -/
  desc : Nat := 0
  /-- Address register values it was loaded under: EA of `wgt` and of `delta`. -/
  wgt : Nat := 0
  delta : Nat := 0
  /-- Columns: the elements as loaded, and whether a poisoned word was read. -/
  cols : List (List FV × Bool) := []
  deriving DecidableEq, Repr

/-- One engine of one core of a program context (06 R206, R233). -/
structure Engine where
  /-- A0 to A15, 64 bits each. -/
  regs : List Nat := []
  /-- Stream position. -/
  pos : Nat := 0
  /-- Enclosing LOOPs, innermost first. -/
  loops : List LoopFrame := []
  /-- `yseq`. -/
  yseq : Nat := 0
  /-- The engine has halted. -/
  halted : Bool := false
  /-- Descriptors in progress, in stream order. -/
  busy : List InProg := []
  /-- Tile of a matrix engine. -/
  tile : Option Tile := none
  /-- Descriptors started, by engine, as far as tokens have told this one (05 R180). -/
  clock : List Nat := []
  /-- XD0 time of its last progress (05 R182). -/
  progress : Nat := 0
  deriving DecidableEq, Repr

/-- One core of a program context. -/
structure CoreCtx where
  /-- Engines 0 to 8. -/
  engines : List Engine := []
  /-- Token queues by number 16 × producer + consumer: the clocks of the tokens held, oldest first (05 R178). -/
  queues : Tab (List (List Nat)) := []
  /-- Touches not yet ordered before every engine (05 R180). -/
  touches : List Touch := []
  /-- `target` of the yield request in progress (06 R232); 0 none. -/
  target : Nat := 0
  deriving DecidableEq, Repr

/-- A work item (06 R208). -/
structure WorkItem where
  /-- 1 PREFILL, 2 DECODE_STEP, 3 STOP. -/
  kind : Nat := 0
  /-- Contexts of its sequences. -/
  seqs : List Nat := []
  /-- First layer not yet counted. -/
  firstLayer : Nat := 0
  /-- Layers not yet counted. -/
  layerCount : Nat := 0
  /-- Value of counter 30 before its next unit is counted. -/
  base : Nat := 0
  /-- Place and bytes of its sequence entries and token arrays in the partition's arena of the firmware reserve. -/
  place : Nat := 0
  bytes : Nat := 0
  deriving DecidableEq, Repr

/-- Where a program context is (10 R328). -/
inductive PcPlace where
  | fresh | onCores | saved
  deriving DecidableEq, Repr

/-- A program context (06 R202 to R208). -/
structure ProgCtx where
  /-- The slot holds a context. -/
  live : Bool := false
  /-- Image ID. -/
  image : Nat := 0
  /-- `core_kind`: true decode. -/
  decode : Bool := false
  /-- `class`: true BE. -/
  be : Bool := false
  /-- `serving`. -/
  serving : Bool := false
  /-- The n cores of R204, indexes within the kind, ascending. -/
  cores : List Nat := []
  /-- `arg0` to `arg9`. -/
  args : List Nat := []
  /-- Partition counters, 32 of 64 bits; 06 R207. -/
  ctrs : List Nat := []
  /-- The cores' engines, queues and touches, in rank order. -/
  core : List CoreCtx := []
  /-- On cores, saved, or not yet started. -/
  place : PcPlace := .fresh
  /-- Saved scratchpad, keyed rank × 2^25 + byte (10 R335, R337). -/
  savedSp : Mem := []
  /-- Saved accumulator banks, keyed rank × 2^20 + (me × 2 + bank) × 2^16 + byte. -/
  savedAcc : Mem := []
  /-- Poisoned words of the two, keyed alike / 8. -/
  savedSpPoison : NSet := []
  savedAccPoison : NSet := []
  /-- The save kept live ranges only: what lies outside them is undefined after resume; per rank, the ranges (in bank space offset by
  2^25) (06 R233). -/
  savedLive : Option (List (List (Nat × Nat))) := none
  /-- Work items written and not complete, oldest first. -/
  items : List WorkItem := []
  /-- Items written so far. -/
  itemCount : Nat := 0
  /-- Completion units of the items written so far. -/
  units : Nat := 0
  /-- Its first poisoned load has been met (06 R229). -/
  poisonSeen : Bool := false
  /-- Its first bad expander block has been met (08). -/
  badBlockSeen : Bool := false
  /-- Status it is to end with once it has halted after STOP, plus 1; 0 none. -/
  endWith : Nat := 0
  /-- XD0 time at which the STOP was posted (06 R208). -/
  stopAt : Nat := 0
  deriving DecidableEq, Repr

/-- A MODEL object (07 R241 to R245). -/
structure Model where
  /-- Model ID. -/
  id : Nat := 0
  /-- Owning tenant. -/
  tenant : Nat := 0
  /-- Object size in bytes. -/
  size : Nat := 0
  /-- First T1 extent. -/
  first : Nat := 0
  deriving DecidableEq, Repr

/-- One resident version of a DELTA object (08). -/
structure DeltaVer where
  /-- Version number. -/
  ver : Nat := 0
  /-- Size in bytes. -/
  size : Nat := 0
  /-- First T1 extent. -/
  first : Nat := 0
  deriving DecidableEq, Repr

/-- A DELTA object (08). -/
structure Delta where
  /-- Delta ID. -/
  id : Nat := 0
  /-- Owning tenant. -/
  tenant : Nat := 0
  /-- MODEL object it is bound to. -/
  model : Nat := 0
  /-- Current version. -/
  current : Nat := 0
  /-- Resident versions, ascending. -/
  vers : List DeltaVer := []
  deriving DecidableEq, Repr

/-- A GRAMMAR object (09). -/
structure Grammar where
  /-- Grammar ID. -/
  id : Nat := 0
  /-- Owning tenant. -/
  tenant : Nat := 0
  /-- Size in bytes. -/
  size : Nat := 0
  /-- First T1 extent. -/
  first : Nat := 0
  deriving DecidableEq, Repr

/-- A REGION object (07 R246 to R250). -/
structure Region where
  /-- Region ID. -/
  id : Nat := 0
  /-- Context index. -/
  ctx : Nat := 0
  /-- First T1 extent of its run. -/
  first : Nat := 0
  /-- Extents of its run. -/
  count : Nat := 0
  /-- Bytes of the region. -/
  bytes : Nat := 0
  /-- The region's run of T1 extents is taken (not while the region is demoted, but for a recall). -/
  hasRun : Bool := true
  /-- Demoted extents, or extents being demoted: (region extent, tier extent). -/
  demoted : List (Nat × Nat) := []
  /-- Poisoned by 04 R154. -/
  poisoned : Bool := false
  deriving DecidableEq, Repr

end Sys2Proof.Machine
end

