-- ==== Sys2Proof/Machine/TypesReq.lean ====
section
/-! DEFINITION. Plain-data types of requests, contexts and home latches (chapters 03 and 04). -/

namespace Sys2Proof.Machine

/-- Context states, in the order of their codes (03 R84). -/
inductive CtxSt where
  | free | admitted | prefill | handoff | decode | paused | draining | done | ended
  deriving DecidableEq, Repr

/-- An output entry of a request, before it is placed on its ring (02 R60, 03 R103). -/
structure OutEnt where
  /-- `event_kind`: 1 TOKEN, 2 END, 3 FIRST_DEADLINE_MISS, 4 TOKEN_DEADLINE_MISS. -/
  kind : Nat := 1
  /-- Token ID, 0 except for TOKEN. -/
  token : Nat := 0
  /-- `position`. -/
  position : Nat := 0
  /-- `status`, for END. -/
  status : Nat := 0
  /-- XD0 counter when the entry was generated. -/
  time : Nat := 0
  deriving DecidableEq, Repr

/-- An output entry that has found no room in its ring: the entry, its context index, handle, cookie and ring (02 R53, 03 R103). -/
structure OutHeld where
  /-- Context index. -/
  ctx : Nat := 0
  /-- Context handle. -/
  handle : Nat := 0
  /-- `cookie`. -/
  cookie : Nat := 0
  /-- Output ring. -/
  ring : Nat := 0
  /-- The entry. -/
  ent : OutEnt := {}
  deriving DecidableEq, Repr

/-- Where the prefix rows of a request on its prompt node stand (04 R141, R142). -/
inductive PrefixSt where
  | unlooked | searching | fetching | inPlace
  deriving DecidableEq, Repr

/-- A request context: the record of 03 R85 and what the device keeps beside it. -/
structure Ctx where
  /-- `state`, 8 bits; 03 R84; reset FREE. -/
  st : CtxSt := .free
  /-- Generation, 16 bits; 03 R82; reset 1. -/
  gen : Nat := 1
  /-- `class`, 1 bit (true BE); 03 R85; reset 0. -/
  be : Bool := false
  /-- `moved`, 1 bit; 03 R85; reset 0. -/
  moved : Bool := false
  /-- `demoted`, 1 bit; 03 R85; reset 0. -/
  demoted : Bool := false
  /-- `first_done`, 1 bit; 03 R85; reset 0. -/
  firstDone : Bool := false
  /-- `pause_host`, 1 bit; 03 R85; reset 0. -/
  pauseHost : Bool := false
  /-- `pause_sched`, 1 bit; 03 R85; reset 0. -/
  pauseSched : Bool := false
  /-- `pause_parked`, 1 bit; 03 R85; reset 0. -/
  pauseParked : Bool := false
  /-- `first_miss`, 1 bit; 03 R85; reset 0. -/
  firstMiss : Bool := false
  /-- `tenant_id`, 10 bits; 03 R85; reset 0. -/
  tenant : Nat := 0
  /-- `job_id`, 12 bits; 03 R85; reset 0. -/
  job : Nat := 0
  /-- `end_status`, 16 bits; 03 R85; reset 0. -/
  endStatus : Nat := 0
  /-- `model_id`, 32 bits; 03 R85; reset 0. -/
  model : Nat := 0
  /-- `delta_id`, 32 bits; 03 R85; reset 0. -/
  delta : Nat := 0
  /-- `delta_version`, 32 bits; 03 R85; reset 0. -/
  deltaVer : Nat := 0
  /-- `grammar_id`, 32 bits; 03 R85; reset 0. -/
  grammar : Nat := 0
  /-- `grammar_state`, 32 bits; 03 R85; reset 0. -/
  grammarState : Nat := 0
  /-- `request_uid`, 64 bits; 03 R85; reset 0. -/
  uid : Nat := 0
  /-- `cookie`, 64 bits; 03 R85; reset 0. -/
  cookie : Nat := 0
  /-- `prompt_len`, 20 bits; 03 R85; reset 0. -/
  promptLen : Nat := 0
  /-- `max_len`, 21 bits; 03 R85; reset 0. -/
  maxLen : Nat := 0
  /-- `position`, 21 bits; 03 R85; reset 0. -/
  position : Nat := 0
  /-- `delivered`, 21 bits; 03 R85; reset 0. -/
  delivered : Nat := 0
  /-- `prefix_reused`, 20 bits; 03 R85; reset 0. -/
  prefixReused : Nat := 0
  /-- `layers_pushed`, 9 bits; 03 R85; reset 0. -/
  layersPushed : Nat := 0
  /-- `home_node`, 14 bits; 03 R85; reset 0. -/
  homeNode : Nat := 0
  /-- `forward_node`, 14 bits; 03 R85; reset 0. -/
  fwdNode : Nat := 0
  /-- `partition`, 4 bits; 03 R85; reset 0. -/
  partition : Nat := 0
  /-- The request is placed on that partition, 1 bit; 10 R326; reset 0. -/
  placed : Bool := false
  /-- `out_ring`, 8 bits; 03 R85; reset 0. -/
  outRing : Nat := 0
  /-- `forward_handle`, 32 bits; 03 R85; reset 0. -/
  fwdHandle : Nat := 0
  /-- `first_deadline_us`, 32 bits; 03 R85; reset 0. -/
  firstDeadlineUs : Nat := 0
  /-- `token_deadline_us`, 32 bits; 03 R85; reset 0. -/
  tokenDeadlineUs : Nat := 0
  /-- Request age at `ageAt`, 64 bits; 03 R86; reset 0. -/
  ageBase : Nat := 0
  /-- XD0 counter the age continues from, 64 bits; 03 R86; reset 0. -/
  ageAt : Nat := 0
  /-- `t_handoff_us`, 64 bits; 03 R85; reset 0. -/
  tHandoffUs : Nat := 0
  /-- `t_first_us`, 64 bits; 03 R85; reset 0. -/
  tFirstUs : Nat := 0
  /-- `t_last_us`, 64 bits; 03 R85; reset 0. -/
  tLastUs : Nat := 0
  /-- `token_misses`, 32 bits; 03 R85; reset 0. -/
  tokenMisses : Nat := 0
  /-- `sched_pauses`, 32 bits; 03 R85; reset 0. -/
  schedPauses : Nat := 0
  /-- `paused_us` of finished stays in PAUSED, 64 bits; 03 R85; reset 0. -/
  pausedUs : Nat := 0
  /-- `seed`, `temperature`, `top_p`, `min_p`, `top_k`, `stop_count`, `stop_tokens`; 03 R85; reset 0. -/
  samp : Sampling := {}
  /-- `region_id`, 32 bits; 03 R85; reset 0. -/
  region : Nat := 0
  /-- `dest_node`, 14 bits; 03 R85; reset 0. -/
  destNode : Nat := 0
  /-- The context is bound to an output ring of this node, 1 bit; 03 R103, R105; reset 0. -/
  bound : Bool := false
  /-- The context is (or was opened as) the destination of a handover and not yet home, 1 bit; 03 R91; reset 0. -/
  isDest : Bool := false
  /-- Tokens of the request known here, position order (prompt, then output); 03 R87, R96; reset none. -/
  tokens : List Nat := []
  /-- The first-token deadline was recorded as missed and is not yet written, 1 bit; 03 R99; reset 0. -/
  unwrittenFirst : Bool := false
  /-- Positions of per-token misses recorded and not yet written; 03 R99; reset none. -/
  unwrittenTok : List Nat := []
  /-- Position whose deadline's miss was recorded or written last, 21 bits; 03 R99; reset 0. -/
  missPos : Nat := 0
  /-- XD0 counter at entry to PAUSED, 64 bits; 03 R101; reset 0. -/
  pausedAt : Nat := 0
  /-- Step boundary at which the scheduler paused it, 64 bits; 03 R100; reset 0. -/
  pauseSeq : Nat := 0
  /-- XD0 counter at entry to DONE or ENDED, 64 bits; 03 R110; reset 0. -/
  overAt : Nat := 0
  /-- `ctx_retain_ms` in force at that entry, 32 bits; 03 R118; reset 0. -/
  retainMs : Nat := 0
  /-- R108's release has been made, 1 bit; 03 R108; reset 0. -/
  released : Bool := false
  /-- A CANCEL waits for the end of the layer in progress, 1 bit; 03 R112; reset 0. -/
  cancelAsked : Bool := false
  /-- A PAUSE waits for the step boundary, 1 bit; 03 R114; reset 0. -/
  pauseAsked : Bool := false
  /-- A RESUME waits for the recall of the region, 1 bit; 03 R115; reset 0. -/
  recalling : Bool := false
  /-- A demotion of the region is in progress, 1 bit; 03 R101; reset 0. -/
  demoting : Bool := false
  /-- XD0 time by which that recall must be done, 64 bits; 11 R355; reset 0. -/
  recallBy : Nat := 0
  /-- XD0 time from which a further `pause_demote_ms` is counted after a failed demotion, 64 bits; 11 R354; reset 0. -/
  demoteFrom : Nat := 0
  /-- Prefill layers complete in the working set, 9 bits; 04 R134; reset 0. -/
  layersDone : Nat := 0
  /-- The prefill has started its first layer, 1 bit; 03 R93; reset 0. -/
  prefillBegun : Bool := false
  /-- Prefix rows of the request; 04 R141; reset unlooked. -/
  prefixSt : PrefixSt := .unlooked
  /-- PREFIX object the reused rows come from, 32 bits; 04 R141; reset 0. -/
  prefixObj : Nat := 0
  /-- Destination of the attempt in progress, 14 bits; 04 R136; reset 0. -/
  curDest : Nat := 0
  /-- The opening has been sent and not answered, 1 bit; 04 R136; reset 0. -/
  opening : Bool := false
  /-- The prefix pass of the attempt in progress is acknowledged, 1 bit; 04 R142; reset 0. -/
  prefixPushed : Bool := false
  /-- Layer whose push is running, plus 1; 0 while none runs, 9 bits; 04 R134; reset 0. -/
  pushing : Nat := 0
  /-- Line writes of the running push not yet acknowledged, 32 bits; 04 R133; reset 0. -/
  pushLeft : Nat := 0
  /-- Index of its node in the cycle of 04 R136, 4 bits; reset 0. -/
  cycleIx : Nat := 0
  /-- Status of the last failed attempt, 16 bits; 04 R138; reset 0. -/
  lastFail : Nat := 0
  /-- Working-set extents (first extent); 11 R358; reset 0. -/
  wsFirst : Nat := 0
  /-- Working-set extents (count); 11 R358; reset 0. -/
  wsCount : Nat := 0
  /-- MOVE_STATE command that opened it (in-flight number plus 1), 0 none; 04 R146; reset 0. -/
  moveCmd : Nat := 0
  /-- The record that the step in progress is to commit has been sent to the twin, 1 bit; 04 R150; reset 0. -/
  mirrorSent : Bool := false
  /-- On a mirrored home, the twin's output ring; 04 R149; reset 0. -/
  mirrorRing : Nat := 0
  /-- On a mirrored home, the twin's partition; 04 R149; reset 0. -/
  twinPart : Nat := 0
  deriving DecidableEq, Repr

/-- Latch states, in the order of their codes (04 R123). -/
inductive LatchSt where
  | absent | pending | ready | home | committing | forwarding | poisoned
  deriving DecidableEq, Repr

/-- A home latch record (04 R122) and what the device keeps beside it. -/
structure Latch where
  /-- `region_id`, 32 bits; 04 R122; reset 0. -/
  region : Nat := 0
  /-- `latch_state`, 3 bits; 04 R123; reset ABSENT. -/
  st : LatchSt := .absent
  /-- `mirrored`, 1 bit; 04 R122; reset 0. -/
  mirrored : Bool := false
  /-- `mirror_active`, 1 bit; 04 R122; reset 0. -/
  mirrorActive : Bool := false
  /-- `primary`, 1 bit; 04 R122; reset 0. -/
  primary : Bool := false
  /-- `home_node`, 14 bits; 04 R122; reset 0. -/
  homeNode : Nat := 0
  /-- Node at the other end of the handover in progress, 14 bits; 04 R127; reset 0. -/
  peer : Nat := 0
  /-- Region opened on the destination of that handover, 32 bits, 0 while unknown; 04 R127; reset 0. -/
  openRegion : Nat := 0
  /-- Context handle at the other end of that handover, 32 bits; 04 R127; reset 0. -/
  peerHandle : Nat := 0
  /-- Offset of that region in the destination's offset space, 50 bits; 04 R132; reset 0. -/
  peerBase : Nat := 0
  /-- `twin_node`, 14 bits; 04 R122; reset 0. -/
  twinNode : Nat := 0
  /-- Region, context handle and region offset of the twin's copy, 32, 32 and 50 bits; 04 R149; reset 0. -/
  twinRegion : Nat := 0
  twinHandle : Nat := 0
  twinBase : Nat := 0
  /-- `forward_node`, 14 bits; 04 R122; reset 0. -/
  fwdNode : Nat := 0
  /-- `attempt`, 8 bits; 04 R122; reset 0. -/
  attempt : Nat := 0
  /-- `ctx_handle`, 32 bits; 04 R122; reset 0. -/
  handle : Nat := 0
  /-- `forward_handle`, 32 bits; 04 R122; reset 0. -/
  fwdHandle : Nat := 0
  /-- `write_stamp`, 64 bits; 04 R153; reset 0. -/
  stamp : Nat := 0
  /-- `map_epoch`, 16 bits; 04 R122; reset 0. -/
  epoch : Nat := 0
  /-- `channel`, 13 bits; 04 R125; reset 0. -/
  channel : Nat := 0
  /-- `redirects`, 32 bits; 04 R147; reset 0. -/
  redirects : Nat := 0
  /-- `moves`, 32 bits; 04 R122; reset 0. -/
  moves : Nat := 0
  /-- `t_state`, 64 bits; 04 R122; reset 0. -/
  tState : Nat := 0
  /-- XD0 counter at the last redirect, 64 bits; 04 R148; reset 0. -/
  lastRedirect : Nat := 0
  /-- ABANDON being sent with this status plus 1; 0 none, 17 bits; 04 R127; reset 0. -/
  abandon : Nat := 0
  /-- WITHDRAW being sent, 1 bit; 04 R127; reset 0. -/
  withdrawing : Bool := false
  /-- The MOVE_STATE being withdrawn completes with RETRY_LATER, 1 bit; 04 R146; reset 0. -/
  retryLater : Bool := false
  deriving DecidableEq, Repr

end Sys2Proof.Machine
end

