-- ==== Sys2Proof/Machine/State.lean ====
section
/-! DEFINITION. The block's whole state as plain data, the reasons a step can stop, and the state after reset: the moment SYS_PWROK
rises, time 0 of the cold boot (16 R504, 18 R566). -/

namespace Sys2Proof.Machine

/-- The state of the block. -/
structure State where
  /-- Commands waiting, first in, first out: the model's own queue; reset empty. -/
  pending : List Instr := []
  /-- XD0 island counter (island 100), 64 bits, 1,600 per µs: the model's clock; 01 R14; reset 0. -/
  now : Nat := 0
  /-- Counters of the other islands, 64 bits each, by island number; 01 R14; reset 0. -/
  islands : Tab Nat := []
  /-- Free-value counter: the model's own; each value the spec leaves open is `Config.freeNat` of it; reset 0 (DESIGN CHOICE, log
  entry 8). -/
  free : Nat := 0
  /-- Values of configuration keys last set, by key × 2^32 + index; 02 R75; reset the defaults of the key tables. -/
  keySet : Tab Nat := []
  /-- Values of configuration keys in force, likewise; 02 R76; reset the defaults of the key tables. -/
  keyEff : Tab Nat := []
  /-- Read-only counters of the key tables, by key × 2^32 + index; 02 R75; reset 0. -/
  ctrs : Tab Nat := []
  /-- Host interface. -/
  host : HostIf := {}
  /-- Writes to host memory, latest last: (address, bytes), an output; 02 R48; reset none. -/
  hostWr : List (Nat × List Byte) := []
  /-- MSI-X vectors signalled, latest last, an output; 02 R54; reset none. -/
  msix : List Nat := []
  /-- Commands taken and not completed, in order taken; 02 R61; reset none. -/
  inflight : List Inflight := []
  /-- Number of the next command taken; the model's own; reset 0. -/
  cmdNext : Nat := 0
  /-- Power. -/
  pow : Power := {}
  /-- Rails and board signals. -/
  board : Board := {}
  /-- Recovery and service. -/
  rcv : Recov := {}
  /-- Request contexts 0 to 8,191; 03 R81; reset FREE, generation 1. -/
  ctxs : Tab Ctx := []
  /-- Output entries that wait for room in their rings, oldest first; 02 R53; reset none. -/
  outHeld : List OutHeld := []
  /-- Latch slots 0 to 16,383; 04 R121; reset ABSENT. -/
  latches : Tab Latch := []
  /-- Context index groups of 2,048 withheld from allocation; 04 R125; reset none. -/
  withheld : NSet := []
  /-- IMAGE objects by ID; 06 R200; reset none. -/
  images : Tab Img := []
  /-- MODEL objects by ID; 07; reset none. -/
  models : Tab Model := []
  /-- DELTA objects by ID; 08; reset none. -/
  deltas : Tab Delta := []
  /-- GRAMMAR objects by ID; 09; reset none. -/
  grammars : Tab Grammar := []
  /-- PREFIX objects and replicas by ID; 04 R140; reset none. -/
  prefixes : Tab PrefixObj := []
  /-- REGION objects by ID; 07 R246; reset none. -/
  regions : Tab Region := []
  /-- Next object ID to assign, by kind (0 image, 1 model, 2 delta, 3 grammar, 4 prefix, 5 region); 06 R200; reset 1 (0 for 4 and 5). -/
  nextId : Tab Nat := []
  /-- Partitions 0 to 15; 10 R317; reset ABSENT. -/
  parts : Tab Part := []
  /-- Program contexts by ID, partition × 8 + slot; 06 R203; reset none. -/
  pcs : Tab ProgCtx := []
  /-- Scratchpads, by core × 2^25 + byte, cores 0 to 47 prefill, 48 to 95 decode; 05 R184; reset 0. -/
  sp : Mem := []
  /-- Accumulator banks, by core × 2^20 + (me × 2 + bank) × 2^16 + byte; 05 R162; reset 0. -/
  acc : Mem := []
  /-- Poisoned 64-bit words of the scratchpads (address / 8); 05 R185; reset none. -/
  spPoison : NSet := []
  /-- Poisoned 64-bit words of the banks (address / 8); 05 R185; reset none. -/
  accPoison : NSet := []
  /-- Core statistics counters, by core × 16 + field; 05 R192; reset 0. -/
  stats : Tab Nat := []
  /-- Expander statistics, by (core × 8 + matrix engine) × 16 + field; 08 R292; reset 0. -/
  expStats : Tab Nat := []
  /-- HBM bytes by window offset; 12 R373; reset 0. -/
  hbm : Mem := []
  /-- Firmware reserve bytes (launch records, work rings, sequence entries, sampling blocks, views), by place within the reserve; 11
  R342; reset 0. -/
  fw : Mem := []
  /-- T2 bytes by tier window offset; 11 R346; reset 0. -/
  t2 : Mem := []
  /-- T1 extents 0 to 1,179,647; 11 R343; reset FREE. -/
  t1x : Tab Ext := []
  /-- Runs (first extent, extents) of T1 reserved for the save areas and the firmware, ascending; 11 R342; reset none. -/
  t1Res : List (Nat × Nat) := []
  /-- Runs of T1 reserved for the T2 map; 11 R342; reset none. -/
  t1Map : List (Nat × Nat) := []
  /-- Runs of T1 reserved for the tier cache, ascending; 11 R342, R349; reset none. -/
  t1Cache : List (Nat × Nat) := []
  /-- T2 extents by tier window offset / 2 MiB; 11 R343; reset FREE. -/
  t2x : Tab Ext := []
  /-- Quota limits by tenant × 4 + tier; 11 R356; reset 0. -/
  quota : Tab Nat := []
  /-- Quota usages by tenant × 4 + tier; 11 R357; reset 0. -/
  usage : Tab Nat := []
  /-- Extents charged to `host_t1_limit`; 11 R356; reset 0. -/
  hostT1 : Nat := 0
  /-- Drive bays 0 to 7; 11 R348; reset ABSENT. -/
  drives : Tab Drive := []
  /-- Tier cache frames in use, least recently used first; 11 R349; reset none. -/
  frames : List Frame := []
  /-- Drive operations outstanding; 11 R352; reset none. -/
  tierOps : List TierOp := []
  /-- Number of the next drive operation; the model's own; reset 0. -/
  tierNext : Nat := 0
  /-- Fabric memory layer. -/
  fab : Fab := {}
  /-- Switch, links, collectives. -/
  net : Net := {}
  /-- Tumbler engine. -/
  tum : Tumbler := {}
  /-- Boot and identity. -/
  idn : Ident16 := {}
  /-- Composition and fabric boot. -/
  compo : Compo := {}
  deriving DecidableEq, Repr

/-- Reasons for which a command cannot be given a meaning by the spec because its sender broke a "must". -/
inductive Fault where
  /-- Raised by a host register write whose width the sender may not use (02 R41: the host must access the 64-bit words with single
  8-byte accesses); the spec gives the device no effect for it. Safe. -/
  | registerWidth
  deriving DecidableEq, Repr

/-- Reasons for which a command is refused by the model. -/
inductive Refusal where
  /-- Raised by an arm of `exec` whose command has no meaning yet. Safe. -/
  | notModelled (mnemonic : String)
  deriving DecidableEq, Repr

/-- The state at the rise of SYS_PWROK (18 R566). -/
def State.reset : State := { idn := { uid := Config.uniqueId.toNat } }

end Sys2Proof.Machine
end

