-- ==== Sys2Proof/Machine/Keys.lean ====
section
/-! DEFINITION. Configuration keys (02 R75 to R78 and every chapter's key table): the rows, the values set and in force, and the
values of read-only keys. -/

namespace Sys2Proof.Machine

/-- What a key's `index` selects. -/
inductive KeyIx where
  | one
  | upTo (n : Nat)
  | queue
  | bucket
  | delta
  deriving DecidableEq, Repr

/-- A row of a key table. -/
structure KeyRow where
  key : Nat
  /-- Type: 0 u8, 1 u16, 2 u32, 3 u64. -/
  ty : Nat
  ro : Bool := false
  dflt : Nat := 0
  lo : Nat := 0
  hi : Nat := 0
  /-- A length, count or size: out of range is BAD_LENGTH. -/
  count : Bool := false
  ix : KeyIx := .one
  /-- The value set takes effect at a later use, not at the commit. -/
  later : Bool := false
  deriving DecidableEq, Repr

/-- A writable key in force from its commit. -/
def kw (key ty dflt lo hi : Nat) (ix : KeyIx := .one) : KeyRow := { key, ty, dflt, lo, hi, ix }
/-- A writable key in force from its next use. -/
def kl (key ty dflt lo hi : Nat) (ix : KeyIx := .one) : KeyRow := { key, ty, dflt, lo, hi, ix, later := true }
/-- A read-only key. -/
def kr (key ty : Nat) (ix : KeyIx := .one) : KeyRow := { key, ty, ro := true, ix }
/-- The row with "a count" in its range column. -/
def KeyRow.cnt (r : KeyRow) : KeyRow := { r with count := true }

/-- Key numbers the operations name. -/
abbrev kEventCq := 0x00000001
abbrev kMaxInflight := 0x00000002
abbrev kBar2Window := 0x00000003
abbrev kFwVersion := 0x00000004
abbrev kEventsLost := 0x00000005
abbrev kRingErrors := 0x00000006
abbrev kBar2Denied := 0x00000007
abbrev kOutputStall := 0x00000008
abbrev kPowerMode := 0x01000001
abbrev kPkgLimit := 0x01000002
abbrev kPowerWindow := 0x01000003
abbrev kClockFloor := 0x01000004
abbrev kComputeCapped := 0x01000005
abbrev kHbmPaced := 0x01000006
abbrev kFabricPaced := 0x01000007
abbrev kRole := 0x01000008
abbrev kLpLevel := 0x01000009
abbrev kTjMax := 0x0100000A
abbrev kThrottleUs := 0x0100000B
abbrev kProchotUs := 0x0100000C
abbrev kVddCd := 0x0100000D
abbrev kVddFd := 0x0100000E
abbrev kRailFaults := 0x0100000F
abbrev kSlackGuard := 0x02000001
abbrev kSlackHyst := 0x02000002
abbrev kBeResume := 0x02000003
abbrev kPauseDemote := 0x02000004
abbrev kDemoteEnable := 0x02000005
abbrev kCtxRetain := 0x02000006
abbrev kCtxInUse := 0x02000007
abbrev kAdmitted := 0x02000008
abbrev kFirstMisses := 0x02000009
abbrev kTokenMisses := 0x0200000A
abbrev kSchedPauses := 0x0200000B
abbrev kRetryBudget := 0x03000001
abbrev kAltDest := 0x03000002
abbrev kMoveTimeout := 0x03000003
abbrev kFwdHold := 0x03000004
abbrev kFwdDrain := 0x03000005
abbrev kScrubMs := 0x03000006
abbrev kScrubEnable := 0x03000007
abbrev kPrefixTable := 0x03000008
abbrev kHingeSlice := 0x03000009
abbrev kLatchesInUse := 0x0300000A
abbrev kHandovers := 0x0300000B
abbrev kPushRetries := 0x0300000C
abbrev kStampRepairs := 0x0300000D
abbrev kCopyMismatches := 0x0300000E
abbrev kPrefixFallbacks := 0x0300000F
abbrev kDetAbi := 0x04000001
abbrev kNanScale := 0x04000002
abbrev kEccCorrected := 0x04000003
abbrev kEccUncorrected := 0x04000004
abbrev kEccEvent := 0x04000005
abbrev kImagesLoaded := 0x04000006
abbrev kProgContexts := 0x04000007
abbrev kProgramFaults := 0x04000008
abbrev kYieldFallbacks := 0x04000009
abbrev kYieldOverruns := 0x0400000A
abbrev kPoisonEvent := 0x0400000B
abbrev kModelsLoaded := 0x05000001
abbrev kModelBytes := 0x05000002
abbrev kRegionsOpen := 0x05000003
abbrev kRegionExtents := 0x05000004
abbrev kDeltasLoaded := 0x06000001
abbrev kDeltaVersions := 0x06000002
abbrev kDeltaBytes := 0x06000003
abbrev kDeltaCurrent := 0x06000004
abbrev kDeltaRefs := 0x06000005
abbrev kExpBadBlocks := 0x06000006
abbrev kExpBadEvent := 0x06000007
abbrev kGrammarsLoaded := 0x07000001
abbrev kGrammarBytes := 0x07000002
abbrev kWardRows := 0x07000003
abbrev kWardEmpty := 0x07000004
abbrev kWardNan := 0x07000005
abbrev kWardInf := 0x07000006
abbrev kSliceUs := 0x08000001
abbrev kPreemptBound := 0x08000002
abbrev kPreemptEff := 0x08000003
abbrev kSwitches := 0x08000004
abbrev kLcPreempt := 0x08000005
abbrev kYieldSaves := 0x08000006
abbrev kFullSaves := 0x08000007
abbrev kSwitchMax := 0x08000008
abbrev kPartsActive := 0x08000009
abbrev kSaveArea := 0x0800000A
abbrev kExtentDrain := 0x09000001
abbrev kTierTimeout := 0x09000002
abbrev kTierRetries := 0x09000003
abbrev kTierCache := 0x09000004
abbrev kReadahead := 0x09000005
abbrev kHostT1 := 0x09000006
abbrev kT1Free := 0x09000007
abbrev kT2Free := 0x09000008
abbrev kDriveState := 0x09000009
abbrev kCacheHits := 0x0900000A
abbrev kCacheMisses := 0x0900000B
abbrev kTierPoison := 0x0900000C
abbrev kDemotions := 0x0900000D
abbrev kRecalls := 0x0900000E
abbrev kDemoteFails := 0x0900000F
abbrev kPrefixReclaims := 0x09000010
abbrev kReserveShort := 0x09000011
abbrev kRlcMutable := 0x0A000001
abbrev kRlcLines := 0x0A000002
abbrev kRlcHits := 0x0A000003
abbrev kRlcMisses := 0x0A000004
abbrev kStaleMap := 0x0A000005
abbrev kRawDead := 0x0A000006
abbrev kTeardowns := 0x0A000007
abbrev kPubConflicts := 0x0A000008
abbrev kJobGen := 0x0A000009
abbrev kReplayTimer := 0x0B000001
abbrev kReplayLimit := 0x0B000002
abbrev kRetrainLimit := 0x0B000003
abbrev kAckInterval := 0x0B000004
abbrev kPortDrain := 0x0B000005
abbrev kCollSlice := 0x0B000006
abbrev kCollTimeout := 0x0B000007
abbrev kPortState := 0x0B000008
abbrev kNoRoute := 0x0B000009
abbrev kCollDup := 0x0B00000A
abbrev kCollPoisoned := 0x0B00000B
abbrev kQuantum := 0x0C000001
abbrev kSubqueue := 0x0C000002
abbrev kRawClass := 0x0C000003
abbrev kShaperTokens := 0x0C000004
abbrev kHistDepth := 0x0C000005
abbrev kHistDelay := 0x0C000006
abbrev kSampleWrites := 0x0C000007
abbrev kGateAdoptions := 0x0C000008
abbrev kQTxBytes := 0x0C000009
abbrev kQGate := 0x0C00000A
abbrev kQShaper := 0x0C00000B
abbrev kInsertBound := 0x0D000001
abbrev kCascTimeout := 0x0D000002
abbrev kCascPos := 0x0D000003
abbrev kCascSize := 0x0D000004
abbrev kTablesActive := 0x0D000005
abbrev kFreeRows := 0x0D000006
abbrev kRouteRows := 0x0D000007
abbrev kSearches := 0x0D000008
abbrev kIdleCycles := 0x0D000009
abbrev kMoves := 0x0D00000A
abbrev kInsertTimeouts := 0x0D00000B
abbrev kCascTimeouts := 0x0D00000C
abbrev kSvnFloor := 0x0E000001
abbrev kBootSlot := 0x0E000002
abbrev kLmsFuses := 0x0E000003
abbrev kLmsLeaves := 0x0E000004
abbrev kOwnerSlots := 0x0E000005
abbrev kManifestSeq := 0x0E000006
abbrev kManifestStaged := 0x0E000007
abbrev kI3c := 0x0E000008
abbrev kEvidence := 0x0E000009
abbrev kTxnTimeout := 0x0F000001
abbrev kHeartbeat := 0x0F000002
abbrev kMissLimit := 0x0F000003
abbrev kEngineTimeout := 0x0F000004
abbrev kCmdTimeout := 0x0F000005
abbrev kWatchdog := 0x0F000006
abbrev kRestartLimit := 0x0F000007
abbrev kDieHeartbeat := 0x0F000008
abbrev kModuleDrain := 0x0F000009
abbrev kButtonAbort := 0x0F00000A
abbrev kModuleState := 0x0F00000B
abbrev kCtlRestarts := 0x0F00000C
abbrev kNodesDead := 0x0F00000D
abbrev kDiesFenced := 0x0F00000E
abbrev kLogSeq := 0x0F00000F
abbrev kFbTimeout := 0x0F000101
abbrev kLinkPhase := 0x0F000102
abbrev kFloodQuiet := 0x0F000103
abbrev kAgreeTimeout := 0x0F000104
abbrev kAgreeRounds := 0x0F000105
abbrev kFabricBoots := 0x0F000106

/-- Keys of chapters 02, 01 and 18 (R78, R33, R582). -/
def keyRowsA : List KeyRow :=
  [kl kEventCq 0 0 0 63, (kl kMaxInflight 1 256 1 4096).cnt, kw kBar2Window 0 0 0 35, kr kFwVersion 3, kr kEventsLost 3,
   kr kRingErrors 2, kr kBar2Denied 3, kr kOutputStall 3,
   kr kPowerMode 0, kl kPkgLimit 1 3000 1710 3000, kl kPowerWindow 1 100 50 1000, kl kClockFloor 1 400 400 800,
   kr kComputeCapped 3, kr kHbmPaced 3, kr kFabricPaced 3, kr kRole 0, kr kLpLevel 0, kr kTjMax 0, kr kThrottleUs 3,
   kr kProchotUs 3, kr kVddCd 1, kr kVddFd 1, kr kRailFaults 2]

/-- Keys of chapters 03 and 04 (R118, R157). -/
def keyRowsB : List KeyRow :=
  [kl kSlackGuard 2 2000 0 1000000 (.upTo 16), kl kSlackHyst 2 500 0 1000000 (.upTo 16),
   (kl kBeResume 1 32 1 8192 (.upTo 16)).cnt, kl kPauseDemote 2 10000 1 3600000, kl kDemoteEnable 0 1 0 1,
   kw kCtxRetain 2 60000 1 3600000, kr kCtxInUse 1, kr kAdmitted 3, kr kFirstMisses 3, kr kTokenMisses 3, kr kSchedPauses 3,
   (kl kRetryBudget 0 3 1 16).cnt, kl kAltDest 1 0 0 0xFFFF (.upTo 32768), kw kMoveTimeout 2 10000 100 600000,
   kl kFwdHold 2 10000 1000 10000000, kl kFwdDrain 2 1000 100 1000000, kl kScrubMs 2 60000 1000 86400000,
   kl kScrubEnable 0 1 0 1, kl kPrefixTable 0 0 0 15, (kw kHingeSlice 1 64 8 1024).cnt, kr kLatchesInUse 1, kr kHandovers 3,
   kr kPushRetries 3, kr kStampRepairs 3, kr kCopyMismatches 3, kr kPrefixFallbacks 3]

/-- Keys of chapters 05 to 10 (R194, R239, R265, R294, R316, R340). -/
def keyRowsC : List KeyRow :=
  [kr kDetAbi 2, kr kNanScale 3, kr kEccCorrected 3, kr kEccUncorrected 3, kl kEccEvent 0 1 0 1, kr kImagesLoaded 1,
   kr kProgContexts 1, kr kProgramFaults 3, kr kYieldFallbacks 3, kr kYieldOverruns 3, kl kPoisonEvent 0 1 0 1,
   kr kModelsLoaded 1, kr kModelBytes 3, kr kRegionsOpen 1, kr kRegionExtents 2,
   kr kDeltasLoaded 1, kr kDeltaVersions 1, kr kDeltaBytes 3, kr kDeltaCurrent 2 .delta, kr kDeltaRefs 2 .delta,
   kr kExpBadBlocks 3, kl kExpBadEvent 0 1 0 1,
   kr kGrammarsLoaded 1, kr kGrammarBytes 3, kr kWardRows 3, kr kWardEmpty 3, kr kWardNan 3, kr kWardInf 3,
   kl kSliceUs 1 0 50 10000 (.upTo 16), kl kPreemptBound 1 0 5 10000 (.upTo 16), kr kPreemptEff 0 (.upTo 16),
   kr kSwitches 3 (.upTo 16), kr kLcPreempt 3 (.upTo 16), kr kYieldSaves 3 (.upTo 16), kr kFullSaves 3 (.upTo 16),
   kr kSwitchMax 2 (.upTo 16), kr kPartsActive 0, kr kSaveArea 2]

/-- Keys of chapters 11 to 14 (R371, R415, R445, R466). -/
def keyRowsD : List KeyRow :=
  [kw kExtentDrain 2 100 1 60000, kw kTierTimeout 2 20 1 10000, (kw kTierRetries 0 2 0 7).cnt,
   (kl kTierCache 2 16384 1024 131072).cnt, (kl kReadahead 0 4 0 31).cnt, (kl kHostT1 2 65536 0 1179648).cnt, kr kT1Free 2,
   kr kT2Free 2, kr kDriveState 0 (.upTo 8), kr kCacheHits 3, kr kCacheMisses 3, kr kTierPoison 3, kr kDemotions 3,
   kr kRecalls 3, kr kDemoteFails 3, kr kPrefixReclaims 3, kr kReserveShort 2,
   kw kRlcMutable 0 0 0 1 (.upTo 4096), kr kRlcLines 2, kr kRlcHits 3, kr kRlcMisses 3, kr kStaleMap 3, kr kRawDead 3,
   kr kTeardowns 3, kr kPubConflicts 3, kr kJobGen 1 (.upTo 4096),
   kl kReplayTimer 2 1500 500 20000, (kl kReplayLimit 0 16 1 64).cnt, (kl kRetrainLimit 0 3 1 15).cnt,
   (kl kAckInterval 0 8 1 64).cnt, kw kPortDrain 2 1000 10 1000000, (kw kCollSlice 1 64 8 4096).cnt,
   kw kCollTimeout 2 10000 10 10000000, kr kPortState 0 (.upTo 40), kr kNoRoute 3, kr kCollDup 3, kr kCollPoisoned 3,
   (kl kQuantum 1 32 1 65535 .queue).cnt, kw kSubqueue 0 1 1 7 (.upTo 4096), kw kRawClass 0 0 0 2 (.upTo 32),
   kr kShaperTokens 2 .queue, kr kHistDepth 3 .bucket, kr kHistDelay 3 .bucket, kr kSampleWrites 3,
   kr kGateAdoptions 3 (.upTo 40), kr kQTxBytes 3 .queue, kr kQGate 3 .queue, kr kQShaper 3 .queue]

/-- Keys of chapters 15 to 17 (R496, R532, R557). -/
def keyRowsE : List KeyRow :=
  [kw kInsertBound 2 1000 10 1000000, kw kCascTimeout 2 10 1 1000, kr kCascPos 0, kr kCascSize 0, kr kTablesActive 0,
   kr kFreeRows 2 (.upTo 2), kr kRouteRows 2, kr kSearches 3 (.upTo 2), kr kIdleCycles 3 (.upTo 2), kr kMoves 3 (.upTo 2),
   kr kInsertTimeouts 3, kr kCascTimeouts 3,
   kw kSvnFloor 0 0 0 64, kr kBootSlot 0, kr kLmsFuses 1, kr kLmsLeaves 1, kr kOwnerSlots 0, kr kManifestSeq 2,
   kr kManifestStaged 0, kr kI3c 0, kr kEvidence 3,
   kw kTxnTimeout 2 40 5 20000, kl kHeartbeat 2 250 50 10000, (kl kMissLimit 0 4 2 64).cnt,
   kl kEngineTimeout 2 2000 100 1000000, kw kCmdTimeout 2 250 10 60000, kw kWatchdog 2 500 100 10000,
   (kl kRestartLimit 0 3 1 16).cnt, kw kDieHeartbeat 2 20 5 1000, kw kModuleDrain 2 30000 1000 600000,
   kl kButtonAbort 1 5000 1000 30000, kr kModuleState 0, kr kCtlRestarts 2, kr kNodesDead 2, kr kDiesFenced 1, kr kLogSeq 2,
   kl kFbTimeout 2 10000 1000 600000, kl kLinkPhase 1 200 50 5000, kl kFloodQuiet 2 2000 100 1000000,
   kl kAgreeTimeout 1 100 10 10000, (kl kAgreeRounds 0 4 1 16).cnt, kr kFabricBoots 3]

/-- Every key of the device. -/
def keyRows : List KeyRow := keyRowsA ++ keyRowsB ++ keyRowsC ++ keyRowsD ++ keyRowsE

/-- The row of a key, if it is one. -/
def keyRow? (key : Nat) : Option KeyRow := keyRows.find? (·.key == key)

/-- Table position of a key instance. -/
def kpos (key ix : Nat) : Nat := key * 2 ^ 32 + ix

/-- The default of a key instance: of its row, but for `raw_class` (decode 0, prefill 2; 14 R466). -/
def keyDflt (key ix : Nat) : Nat :=
  if key = kRawClass then (if ix % 2 = 1 then 0 else 2)
  else match keyRow? key with
    | some r => r.dflt
    | none => 0

/-- The value last set. -/
def State.kset (s : State) (key : Nat) (ix : Nat := 0) : Nat := Tab.getD (keyDflt key ix) s.keySet (kpos key ix)

/-- The value in force. -/
def State.kv (s : State) (key : Nat) (ix : Nat := 0) : Nat := Tab.getD (keyDflt key ix) s.keyEff (kpos key ix)

/-- The value last set put in force (the use point of a key that takes effect later). -/
def State.adopt (s : State) (key : Nat) (ix : Nat := 0) : State :=
  { s with keyEff := Tab.put (keyDflt key ix) s.keyEff (kpos key ix) (s.kset key ix) }

/-- A value recorded, in force at once unless the key takes effect at a later use. -/
def State.setKey (s : State) (key ix v : Nat) (later : Bool) : State :=
  let s := { s with keySet := Tab.put (keyDflt key ix) s.keySet (kpos key ix) v }
  if later then s else { s with keyEff := Tab.put (keyDflt key ix) s.keyEff (kpos key ix) v }

/-- A counter of the key tables. -/
def State.ctr (s : State) (key : Nat) (ix : Nat := 0) : Nat := Tab.getD 0 s.ctrs (kpos key ix)

/-- A counter raised by `n`. -/
def State.bump (s : State) (key : Nat) (n : Nat := 1) (ix : Nat := 0) : State :=
  { s with ctrs := Tab.modify 0 s.ctrs (kpos key ix) (· + n) }

/-- A counter given a value. -/
def State.setCtr (s : State) (key v : Nat) (ix : Nat := 0) : State :=
  { s with ctrs := Tab.put 0 s.ctrs (kpos key ix) v }

/-- Microseconds, milliseconds and nanoseconds as cycles of XD0 (1.6 GHz, 01 R14). -/
def us (n : Nat) : Nat := n * 1600
def ms (n : Nat) : Nat := n * 1600000
def ns (n : Nat) : Nat := n * 16 / 10

/-- Offset in the boot flash of the running slot (16 R500). -/
def State.slotBase (s : State) : Nat := if s.idn.slotB then 0x2000000 else 0

/-- Bits of the running bundle header (16 R501); 0 before stage 1 runs. -/
def State.bundleFld (s : State) (hi lo : Nat) : Nat :=
  if s.idn.boot = .stage1 ∨ s.idn.boot = .running then bfld (Mem.readN s.idn.flash s.slotBase 64) hi lo else 0

/-- Module state code (17 R552). -/
def ModSt.code : ModSt → Nat
  | .inService => 0x40 | .abortWindow => 0x41 | .draining => 0x42 | .safe => 0x43

/-- Drive state code (11 R348). -/
def DriveSt.code : DriveSt → Nat
  | .absent => 0 | .active => 1 | .draining => 2 | .safe => 3 | .failed => 4

/-- Port state code (13 R428). -/
def PortSt.code : PortSt → Nat
  | .down => 0 | .training => 1 | .up => 2 | .unmapped => 3 | .draining => 4 | .out => 5 | .disabled => 6 | .failed => 7

/-- Body bits of the manifest in force; 0 with none (16 R516). -/
def State.mfld (s : State) (hi lo : Nat) : Nat :=
  match s.compo.inForce with
  | some m => bfld m.body hi lo
  | none => 0

/-- Sum over the entries of a table. -/
def Tab.sum {α : Type} (t : Tab α) (f : α → Nat) : Nat := (t.map fun e => f e.2).foldl (· + ·) 0

/-- Number of entries of a table that satisfy a test. -/
def Tab.countP {α : Type} (t : Tab α) (f : α → Bool) : Nat := (t.filter fun e => f e.2).length

end Sys2Proof.Machine
end

