-- ==== Sys2Proof/Machine/Post.lean ====
section
/-! DEFINITION. Status codes, interrupts, completions, events and output entries: every write of the device to its rings (02 R48,
R50, R52 to R54, R58 to R60, R68, 17 R545). -/

namespace Sys2Proof.Machine

/-- The result type of `exec`. -/
abbrev Res := Host.Outcome State Fault Refusal

/-! ## Status codes (02 R68) -/
abbrev sOK := 0x0000
abbrev sOkAlready := 0x0001
abbrev sBadOpcode := 0x0101
abbrev sBadLength := 0x0102
abbrev sBadField := 0x0103
abbrev sConflict := 0x0104
abbrev sNoResource := 0x0105
abbrev sQuota := 0x0201
abbrev sExtentRevoked := 0x0202
abbrev sTierFault := 0x0203
abbrev sStateLost := 0x0301
abbrev sStaleMap := 0x0302
abbrev sTornDown := 0x0303
abbrev sCopyMismatch := 0x0304
abbrev sVersionConflict := 0x0305
abbrev sMaskEmpty := 0x0401
abbrev sCancelled := 0x0402
abbrev sCoreFault := 0x0403
abbrev sTimeout := 0x0501
abbrev sTimeInPast := 0x0502
abbrev sInsertTimeout := 0x0503
abbrev sRetryLater := 0x0504
abbrev sAuthFailed := 0x0601
abbrev sAttestExhausted := 0x0602

/-! ## Interrupts (02 R54) -/

/-- A vector signalled: a message if the host has unmasked it, else its pending bit. -/
def State.signalVector (s : State) (v : Nat) : State :=
  if s.host.msixOpen.contains v then { s with msix := s.msix ++ [v] }
  else { s with host := { s.host with msixPba := NSet.add s.host.msixPba v } }

/-- The ring after a post: the counts of R54. -/
def DevRing.posted (r : DevRing) (now : Nat) : DevRing :=
  { r with posts := r.posts + 1, firstAt := some (r.firstAt.getD now) }

/-- A signal is due: the threshold reached, a zero delay, or the command's `irq` flag (R54, R72). -/
def DevRing.due (r : DevRing) (irq : Bool) : Bool := irq || r.delay == 0 || r.thr ≤ r.posts

/-- The ring after a signal. -/
def DevRing.signalled (r : DevRing) : DevRing := { r with posts := 0, firstAt := none }

/-- The ring after an entry is written at its tail: the next index, and the other phase after a wrap (R48). -/
def DevRing.advance (r : DevRing) : DevRing :=
  if r.tail + 1 = 2 ^ r.log2 then { r with tail := 0, phase := !r.phase } else { r with tail := r.tail + 1 }

/-- Unconsumed entries (R49). -/
def DevRing.used (r : DevRing) : Nat := (r.tail + 2 ^ r.log2 - r.head) % 2 ^ r.log2

/-- Entries that can still be posted: a ring of N holds at most N - 1 (R49). -/
def DevRing.room (r : DevRing) : Nat := 2 ^ r.log2 - 1 - r.used

/-- Host address of the ring's tail entry. -/
def DevRing.slot (r : DevRing) : Nat := r.base + 32 * r.tail

/-! ## Accessors -/

def State.sqr (s : State) (n : Nat) : SubRing := Tab.getD {} s.host.sq n
def State.cqr (s : State) (n : Nat) : DevRing := Tab.getD {} s.host.cq n
def State.oqr (s : State) (n : Nat) : DevRing := Tab.getD {} s.host.oq n
def State.setSq (s : State) (n : Nat) (r : SubRing) : State := { s with host := { s.host with sq := Tab.put {} s.host.sq n r } }
def State.setCq (s : State) (n : Nat) (r : DevRing) : State := { s with host := { s.host with cq := Tab.put {} s.host.cq n r } }
def State.setOq (s : State) (n : Nat) (r : DevRing) : State := { s with host := { s.host with oq := Tab.put {} s.host.oq n r } }

/-- Host memory written (an output). -/
def State.hostWrite (s : State) (a : Nat) (bs : List Byte) : State := { s with hostWr := s.hostWr ++ [(a, bs)] }

/-- Several host memory writes, in order. -/
def State.hostWrites (s : State) (ws : List (Nat × List Byte)) : State := ws.foldl (fun s w => s.hostWrite w.1 w.2) s

/-- Commands in flight taken from a submission ring. -/
def State.inflightOf (s : State) (q : Nat) : List Inflight := s.inflight.filter fun f => f.sq == q

/-- Completion entries reserved in a completion ring: one for each command in flight (02 R52). -/
def State.reservedIn (s : State) (c : Nat) : Nat := (s.inflight.filter fun f => (s.sqr f.sq).cq == c).length

/-! ## Completion ring entries (02 R58) -/

/-- The 256 bits of a completion entry. -/
def cqEntry (status tag opcode sqHead sqId : Nat) (hwf phase : Bool) (sc kind handle r0 r1 : Nat) : Nat :=
  pack [(16, status), (16, tag), (16, opcode), (16, sqHead), (6, sqId), (1, b2n hwf), (1, b2n phase), (8, sc), (2, kind), (14, 0),
    (32, handle), (64, r0), (64, r1)]

/-- An entry written to an ACTIVE completion ring in one transaction, and its signal; a ring in any other state receives none (R50). -/
def State.cqPost (s : State) (c : Nat) (entry : Bool → Nat) (irq : Bool) : State :=
  let r := s.cqr c
  if r.st = .active then
    let s := s.hostWrite r.slot (toLE 32 (entry r.phase))
    let r := r.advance.posted s.now
    if r.due irq then (s.setCq c r.signalled).signalVector r.vector else s.setCq c r
  else s

/-! ## Events (02 R52, R58, R59, 17 R545, R546) -/

/-- An event recorded in the log of 4,096 entries. -/
def State.logEvent (s : State) (code handle r0 r1 : Nat) : State :=
  let e : LogEntry := { event := code, seq := s.rcv.logSeq % 2 ^ 32, time := s.now, handle, r0 := r0 % 2 ^ 64, r1 := r1 % 2 ^ 64 }
  let l := s.rcv.log ++ [e]
  { s with rcv := { s.rcv with log := l.drop (l.length - 4096), logSeq := (s.rcv.logSeq + 1) % 2 ^ 32 } }

/-- The completion ring events go to. -/
def State.eventRing (s : State) : Nat := s.kset kEventCq

/-- Room for an event beyond the reserved entries. -/
def State.eventRoom (s : State) : Bool := s.reservedIn s.eventRing < (s.cqr s.eventRing).room

/-- An event entry posted, with the next sequence number. -/
def State.putEvent (s : State) (code handle r0 r1 : Nat) : State :=
  let seq := s.host.evSeq
  let s := { s with host := { s.host with evSeq := (seq + 1) % 2 ^ 16 } }
  s.cqPost s.eventRing (fun ph => cqEntry code seq 0 0 0 false ph 0 1 handle r0 r1) false

/-- EVENTS_LOST posted once room has returned (R52). -/
def State.flushLost (s : State) : State :=
  if s.host.ready ∧ (s.cqr s.eventRing).st = .active ∧ 0 < s.host.evLost ∧ s.eventRoom then
    let n := s.host.evLost
    let s := { s with host := { s.host with evLost := 0 } }
    (s.logEvent 0x0001 0 n 0).putEvent 0x0001 0 n 0
  else s

/-- An event raised: logged always; posted where the interface is ready and the event ring is ACTIVE and has room, else counted. -/
def State.postEvent (s : State) (code handle r0 r1 : Nat) : State :=
  if s.host.ready then
    let s := s.adopt kEventCq
    if (s.cqr s.eventRing).st = .active then
      let s := s.flushLost.logEvent code handle r0 r1
      if s.eventRoom then s.putEvent code handle r0 r1
      else
        { s with host := { s.host with evSeq := (s.host.evSeq + 1) % 2 ^ 16, evLost := s.host.evLost + 1 } }.bump kEventsLost
    else
      { s.logEvent code handle r0 r1 with host := { s.host with evSeq := (s.host.evSeq + 1) % 2 ^ 16 } }
  else s.logEvent code handle r0 r1

/-! ## Completions (02 R50, R57, R58) -/

/-- What a command completes with. -/
structure Ans where
  status : Nat := sOK
  sc : Nat := 0
  /-- The object or context the command created; 0: none, and the completion names its subject (R58). -/
  handle : Nat := 0
  r0 : Nat := 0
  r1 : Nat := 0
  /-- Writes to the host result buffer. -/
  wr : List (Nat × List Byte) := []
  deriving DecidableEq, Repr

/-- A refusal. -/
def refuse (status : Nat) (sc : Nat := 0) (r0 : Nat := 0) : Ans := { status, sc, r0 }

/-- A ring number made ABSENT: a deleted ring is never written again (R74). -/
def State.dropRing (s : State) (ty n : Nat) : State :=
  if ty = 0 then s.setSq n {} else if ty = 1 then s.setCq n {} else s.setOq n {}

/-- The completion of a command posted in the entry reserved for it, its result writes first; after a teardown began, none. -/
def State.postCompletion (s : State) (f : Inflight) (a : Ans) : State :=
  if s.host.ready && !s.host.tearing then
    let s := if f.wfault then s else s.hostWrites a.wr
    let hwf := f.wfault && !a.wr.isEmpty
    s.cqPost (s.sqr f.sq).cq
      (fun ph => cqEntry a.status f.tag f.opcode (s.sqr f.sq).head f.sq hwf ph a.sc 0 (if a.handle = 0 then f.handle else a.handle) a.r0 a.r1) f.irq
  else s

/-- A command in flight completed: its record removed and its completion posted. -/
def State.finish1 (s : State) (f : Inflight) (a : Ans) : State :=
  let s := s.postCompletion f a
  { s with inflight := s.inflight.filter fun g => g.id != f.id }

/-- DELETE_RING commands whose submission ring has no command left complete: the ring is ABSENT (R74). -/
def State.settleDeletes (s : State) : State :=
  s.inflight.foldl (fun s f =>
    match f.wait with
    | .deleteRing 0 n => if (s.inflightOf n).isEmpty then (s.dropRing 0 n).finish1 f {} else s
    | _ => s) s

/-- A command completed, and the ring deletions this lets end. -/
def State.finish (s : State) (f : Inflight) (a : Ans) : State := (s.finish1 f a).settleDeletes

/-- Completes the command in flight of a number, if it still is. -/
def State.finishId (s : State) (id : Nat) (a : Ans) : State :=
  match s.inflight.find? (·.id == id) with
  | some f => s.finish f a
  | none => s

/-- Completes every command in flight whose wait satisfies a test. -/
def State.finishAll (s : State) (p : Wait → Bool) (a : Ans) : State :=
  (s.inflight.filter fun f => p f.wait).foldl (fun s f => s.finish f a) s

/-- The command in flight of a number with its wait replaced. -/
def State.setWait (s : State) (id : Nat) (w : Wait) : State :=
  { s with inflight := s.inflight.map fun f => if f.id == id then { f with wait := w } else f }

/-- The command in flight of a number past its commit point. -/
def State.commitCmd (s : State) (id : Nat) : State :=
  { s with inflight := s.inflight.map fun f => if f.id == id then { f with committed := true } else f }

/-! ## Output entries (02 R60) -/

/-- The 256 bits of an output entry. -/
def oqEntry (handle cookie : Nat) (e : OutEnt) (phase : Bool) : Nat :=
  pack [(32, handle), (18, e.token), (5, 0), (1, b2n phase), (8, e.kind), (21, e.position), (11, 0), (16, e.status), (16, 0),
    (64, e.time), (64, cookie)]

/-- An output entry written to its ring, and the ring's signal. -/
def State.oqPost (s : State) (n handle cookie : Nat) (e : OutEnt) : State :=
  let r := s.oqr n
  let s := s.hostWrite r.slot (toLE 32 (oqEntry handle cookie e r.phase))
  let r := r.advance.posted s.now
  if r.due false then (s.setOq n r.signalled).signalVector r.vector else s.setOq n r

end Sys2Proof.Machine
end

