-- ==== Sys2Proof/Machine/Mf.lean ====
section
/-! DEFINITION. The manifest in force and the package's layout: device and job entries, composed slices, dies, stacks (16 R516 to
R518, 01 R11, R18 to R20). -/

namespace Sys2Proof.Machine

/-- `device_count` and `job_count` of a body (16 R516). -/
def mDevCount (b : List Byte) : Nat := bfld b 142 128
def mJobCount (b : List Byte) : Nat := bfld b 156 144

/-- Bits [hi:lo] of device entry `i` (16 R517). -/
def mDev (b : List Byte) (i hi lo : Nat) : Nat := bfld (b.drop (256 + 64 * i)) hi lo

/-- Bits [hi:lo] of job entry `i` (16 R518). -/
def mJob (b : List Byte) (i hi lo : Nat) : Nat := bfld (b.drop (256 + 64 * mDevCount b + 16 * i)) hi lo

/-- Job of slice `k` in device entry `i`. -/
def mSliceJob (b : List Byte) (i k : Nat) : Nat := mDev b i (12 * k + 139) (12 * k + 128)

/-- Index of the device entry of a unique ID, of a node number. -/
def mFindUid (b : List Byte) (uid : Nat) : Option Nat := (List.range (mDevCount b)).find? fun i => mDev b i 63 0 == uid
def mFindNode (b : List Byte) (n : Nat) : Option Nat := (List.range (mDevCount b)).find? fun i => mDev b i 77 64 == n

/-- Body of the manifest in force; empty with none. -/
def State.mbody (s : State) : List Byte :=
  match s.compo.inForce with
  | some m => m.body
  | none => []

/-- Bits [hi:lo] of this device's entry in the manifest in force; 0 with none. -/
def State.dev (s : State) (hi lo : Nat) : Nat :=
  match mFindUid s.mbody s.idn.uid with
  | some i => mDev s.mbody i hi lo
  | none => 0

/-- Job of slice `k` on this device in the manifest in force. -/
def State.sliceJob (s : State) (k : Nat) : Nat := s.dev (12 * k + 139) (12 * k + 128)

/-- A die is fenced (17 R544; die codes of R548: 0 to 7 CD, 8 to 11 FD, 12 and 13 XD, 14 and 15 MD). -/
def State.isFenced (s : State) (die : Nat) : Bool := s.rcv.fenced.contains die

/-- Slice `k` lies on a fenced die: CD(k div 2) or FD(k div 4) (01 R18, R20). -/
def State.sliceLost (s : State) (k : Nat) : Bool := s.isFenced (k / 2) || s.isFenced (8 + k / 4)

/-- Slices composed to any job, and to job `j`. -/
def State.slices (s : State) : List Nat := (List.range 16).filter fun k => s.sliceJob k != 0 && !s.sliceLost k
def State.jobSlices (s : State) (j : Nat) : List Nat := (List.range 16).filter fun k => j != 0 && s.sliceJob k == j && !s.sliceLost k

/-- Job `j` is present on the device: a slice of it is composed here. -/
def State.jobHere (s : State) (j : Nat) : Bool := !(s.jobSlices j).isEmpty

/-- The jobs present on the device, ascending. -/
def State.jobs (s : State) : List Nat := (List.range 4096).filter s.jobHere

/-- Index of the job entry of `j`. -/
def State.jobEntry? (s : State) (j : Nat) : Option Nat := (List.range (mJobCount s.mbody)).find? fun i => mJob s.mbody i 11 0 == j

/-- Tenant and pool weight the manifest names for a job (16 R518). -/
def State.jobTenant (s : State) (j : Nat) : Nat := match s.jobEntry? j with | some i => mJob s.mbody i 25 16 | none => 0
def State.poolWeight (s : State) (j : Nat) : Nat := match s.jobEntry? j with | some i => mJob s.mbody i 39 32 | none => 0

/-- `twin_present`: the manifest gives a twin and a map is in force; and the twin's node (16 R517, 13 R416). -/
def State.twinValid (s : State) : Bool := s.dev 85 85 == 1
def State.twinNode (s : State) : Nat := s.dev 101 88

/-- Die code of the die that owns a stack (01 R11). -/
def stackDie (h : Nat) : Nat := if h < 16 then h / 2 else 8 + (h - 16) / 2

/-- T1 extents, and extents of one 96 GiB stack (11 R342). -/
abbrev t1Count := 1179648
abbrev stackExts := 49152

/-- Stack of a T1 extent: stacks follow one another in the HBM window (DEDUCED, log entry 15). -/
def extStack (e : Nat) : Nat := e / stackExts

/-- Core index (0 to 95, decode cores from 48 on) of core `i` of a kind; the die that holds it (01 R11). -/
def coreIx (decode : Bool) (i : Nat) : Nat := if decode then 48 + i else i
def coreDie (i : Nat) : Nat := i / 6
/-- Slice of core `i` of either kind (01 R18). -/
def coreSlice (i : Nat) : Nat := i / 3
/-- Matrix engines and scratchpad bytes of a core kind (01 R35). -/
def meCount (decode : Bool) : Nat := if decode then 2 else 6
def spBytes (decode : Bool) : Nat := if decode then 12 * 1048576 else 20 * 1048576

/-- A value the spec leaves open: the next free value (log entry 8). -/
def State.freeVal (s : State) : Nat := Config.freeNat s.free
/-- The counter of free values advanced. -/
def State.nextFree (s : State) : State := { s with free := s.free + 1 }

end Sys2Proof.Machine
end

