-- ==== Sys2Proof/Machine/Ext.lean ====
section
/-! DEFINITION. Extents, quotas and the reclaim of PREFIX objects (11 R341 to R344, R356 to R359, R364, R367, R368, R587). -/

namespace Sys2Proof.Machine

/-- Extent state code (11 R343). -/
def ExtSt.code : ExtSt → Nat
  | .free => 0 | .granted => 1 | .draining => 2 | .scrubbing => 3 | .object => 4 | .reserved => 5 | .cache => 6 | .filling => 7
  | .unavailable => 8 | .held => 9

/-- 2 MiB. -/
abbrev extBytes := 2097152

/-- Extents that hold `n` bytes. -/
def extsOf (n : Nat) : Nat := ceilDiv n extBytes

/-- The drive of a bay. -/
def State.drive (s : State) (d : Nat) : Drive := Tab.getD {} s.drives d
def State.setDrive (s : State) (d : Nat) (x : Drive) : State := { s with drives := Tab.put {} s.drives d x }

/-- A number lies in one of the runs. -/
def inRuns (rs : List (Nat × Nat)) (e : Nat) : Bool := rs.any fun r => r.1 ≤ e && e < r.1 + r.2

/-- Extent `e` of tier 1 or 2; reserved runs are RESERVED or CACHE (R342). -/
def State.ext (s : State) (tier e : Nat) : Ext :=
  if tier = 2 then Tab.getD {} s.t2x e
  else if inRuns s.t1Res e || inRuns s.t1Map e then { st := .reserved }
  else if inRuns s.t1Cache e then { st := .cache }
  else Tab.getD {} s.t1x e
def State.setExt (s : State) (tier e : Nat) (x : Ext) : State :=
  if tier = 2 then { s with t2x := Tab.put {} s.t2x e x } else { s with t1x := Tab.put {} s.t1x e x }

/-- `f` applied to `n` extents from `e` on. -/
def State.modExts (s : State) (tier e n : Nat) (f : Ext → Ext) : State :=
  (List.range n).foldl (fun s i => s.setExt tier (e + i) (f (s.ext tier (e + i)))) s

/-- An extent number of the tier window names an extent: its bay's drive contributed it when last ACTIVE (11 R346, R366). -/
def State.t2Exists (s : State) (e : Nat) : Bool := e / 2 ^ 25 < 8 && e % 2 ^ 25 < (s.drive (e / 2 ^ 25)).extents

/-! ## Quotas (11 R356 to R358) -/

def State.quotaOf (s : State) (t tier : Nat) : Nat := Tab.getD 0 s.quota (t * 4 + tier)
def State.usageOf (s : State) (t tier : Nat) : Nat := Tab.getD 0 s.usage (t * 4 + tier)
/-- A charge recorded, and released. -/
def State.charge (s : State) (t tier n : Nat) : State := { s with usage := Tab.modify 0 s.usage (t * 4 + tier) (· + n) }
def State.uncharge (s : State) (t tier n : Nat) : State := { s with usage := Tab.modify 0 s.usage (t * 4 + tier) (· - n) }
/-- A charge is permitted only if the usage after it does not exceed the quota (R358). -/
def State.fits (s : State) (t tier n : Nat) : Bool := s.usageOf t tier + n ≤ s.quotaOf t tier

/-! ## Reclaim of PREFIX objects (11 R368) -/

/-- Prefix index entry key of block `j` with hash `h` (04 R140). -/
def prefixKey (h j : Nat) : Nat := pack [(128, h), (14, j), (18, 0)]

/-- Index entries of an object on this node, queued to be deleted; a replica has none. -/
def State.dropIndex (s : State) (o : PrefixObj) : State :=
  if o.replica then s
  else
    let jobs : List TJob := (o.hashes.zip (List.range o.hashes.length)).map fun (h, j) =>
      { table := s.kset kPrefixTable, op := .delete (prefixKey h j) }
    { s with tum := { s.tum with jobs := s.tum.jobs ++ jobs } }

/-- A PREFIX object freed: its extents scrubbed and FREE, its charge released; an original's index entries on this node deleted.
The operation that needs the memory waits for the scrub, so it is complete here (DEDUCED, log entry 16). -/
def State.freePrefix (s : State) (o : PrefixObj) : State :=
  let s := { s with hbm := Mem.zero s.hbm (o.first * extBytes) (o.count * extBytes), prefixes := Tab.erase s.prefixes o.id }
  let s := (s.modExts 1 o.first o.count fun _ => {}).uncharge o.tenant 1 o.count
  (s.bump kPrefixReclaims).dropIndex o

/-- A request is fetching rows of the object, or its index entries are being inserted (R368). -/
def State.prefixInUse (s : State) (id : Nat) : Bool :=
  (s.ctxs.any fun c => c.2.prefixSt == .fetching && c.2.prefixObj == id) ||
    s.inflight.any fun f => match f.wait with | .sealing _ _ o _ _ _ => o == id | _ => false

/-- `a` is reclaimed before `b`: replicas before originals, then least recently used. -/
def PrefixObj.before (a b : PrefixObj) : Bool :=
  if a.replica == b.replica then a.used ≤ b.used else a.replica

/-- The first object to reclaim among those not in use, of one tenant or of all. -/
def State.reclaimPick (s : State) (t? : Option Nat) : Option PrefixObj :=
  let l := (s.prefixes.map (·.2)).filter fun o => !s.prefixInUse o.id && (match t? with | some t => o.tenant == t | none => true)
  l.foldl (fun b o => match b with | none => some o | some p => if o.before p && !(p.before o) then some o else b) none

/-- Objects freed one by one until `ok` holds or none remain; `fuel` is their number. -/
def State.reclaim (ok : State → Bool) (t? : Option Nat) : Nat → State → State
  | 0, s => s
  | n + 1, s =>
    if ok s then s
    else match s.reclaimPick t? with
      | some o => State.reclaim ok t? n (s.freePrefix o)
      | none => s

/-- The state after the reclaim that precedes a T1 charge of a tenant (R368). -/
def State.reclaimFor (s : State) (t n : Nat) : State := State.reclaim (fun s => s.fits t 1 n) (some t) s.prefixes.length s

/-! ## Runs of FREE T1 extents (11 R359, R587) -/

/-- A run put in its place in a list ordered by first extent. -/
def addRun (r : Nat × Nat) : List (Nat × Nat) → List (Nat × Nat)
  | [] => [r]
  | q :: qs => if r.1 ≤ q.1 then r :: q :: qs else q :: addRun r qs

/-- Gaps (start, length) that ordered runs leave in [lo, hi). -/
def gapWalk (hi : Nat) : Nat → List (Nat × Nat) → List (Nat × Nat)
  | lo, [] => if lo < hi then [(lo, hi - lo)] else []
  | lo, (k, n) :: ks =>
    if hi ≤ k then gapWalk hi lo ks
    else if lo < k then (lo, k - lo) :: gapWalk hi (k + n) ks
    else gapWalk hi (max lo (k + n)) ks

/-- Runs of T1 that are not FREE: reserved runs, and every listed extent. -/
def State.t1Busy (s : State) : List (Nat × Nat) :=
  (s.t1Res ++ s.t1Map ++ s.t1Cache).foldl (fun l r => addRun r l) (s.t1x.map fun x => (x.1, 1))

/-- FREE gaps within [lo, hi). -/
def State.gapsIn (s : State) (lo hi : Nat) : List (Nat × Nat) :=
  gapWalk hi lo (s.t1Busy.filter fun r => lo < r.1 + r.2 && r.1 < hi)

/-- Ranges of consecutive stacks whose dies are not fenced, as extent ranges. -/
def State.t1Segs (s : State) : List (Nat × Nat) :=
  gapWalk 24 0 (((List.range 24).filter fun h => s.isFenced (stackDie h)).map fun h => (h, 1)) |>.map
    fun (h, n) => (h * stackExts, (h + n) * stackExts)

/-- FREE gaps of T1, or of one stack. -/
def State.t1Gaps (s : State) (stack? : Option Nat) : List (Nat × Nat) :=
  match stack? with
  | some h => if s.isFenced (stackDie h) then [] else s.gapsIn (h * stackExts) ((h + 1) * stackExts)
  | none => s.t1Segs.flatMap fun (lo, hi) => s.gapsIn lo hi

/-- Number of places a run of `n` fits in the gaps. -/
def runPlaces (gaps : List (Nat × Nat)) (n : Nat) : Nat := (gaps.map fun g => g.2 + 1 - n).foldl (· + ·) 0

/-- The `k`-th place a run of `n` fits. -/
def runPlace (n : Nat) : List (Nat × Nat) → Nat → Option Nat
  | [], _ => none
  | (a, l) :: g, k => if k < l + 1 - n then some (a + k) else runPlace n g (k - (l + 1 - n))

/-- One of `m` choices the device may make (R587): index 0 of one, else `Config.place`. -/
def State.choose (s : State) (m : Nat) : Nat × State :=
  if m ≤ 1 then (0, s) else (Config.place s.free % m, s.nextFree)

/-- A FREE run of `n` T1 extents, with the reclaim of R368 where none is found. -/
def State.findRun (s : State) (n : Nat) (stack? : Option Nat := none) : Option Nat × State :=
  let some? (s : State) : Bool := 0 < runPlaces (s.t1Gaps none) n
  let hinted : Bool := match stack? with | some h => decide (0 < runPlaces (s.t1Gaps (some h)) n) | none => false
  let s := if hinted then s else State.reclaim some? none s.prefixes.length s
  let gaps := s.t1Gaps (if hinted then stack? else none)
  let c := s.choose (runPlaces gaps n)
  (runPlace n gaps c.1, c.2)

/-- A run exists once what the reclaim may free is freed. -/
def State.canRun (s : State) (n : Nat) : Bool :=
  n == 0 || (s.findRun n).1.isSome

/-- FREE T1 extents (11 R371 `t1_free`). -/
def State.t1Free (s : State) : Nat := ((s.t1Gaps none).map (·.2)).foldl (· + ·) 0

/-- FREE T2 extents of drive `d`, and gaps of a run on it. -/
def State.t2Gaps (s : State) (d : Nat) : List (Nat × Nat) :=
  let lo := d * 2 ^ 25
  let hi := lo + (s.drive d).extents
  if (s.drive d).st = .active then gapWalk hi lo ((s.t2x.filter fun x => lo ≤ x.1 && x.1 < hi).map fun x => (x.1, 1)) else []
def State.t2FreeOn (s : State) (d : Nat) : Nat := ((s.t2Gaps d).map (·.2)).foldl (· + ·) 0
def State.t2Free (s : State) : Nat := ((List.range 8).map s.t2FreeOn).foldl (· + ·) 0

/-! ## Taking and giving back extents -/

/-- Extents given to a grantee or state; a T1 extent's version is 0 when it enters GRANTED (12 R396). -/
def State.takeExts (s : State) (tier e n : Nat) (st : ExtSt) (who : Grantee) : State :=
  let s := s.modExts tier e n fun _ => { st, who }
  if tier = 1 ∧ st = .granted then
    { s with fab := { s.fab with versions := s.fab.versions.filter fun v => v.1 < e || e + n ≤ v.1 } }
  else s

/-- Tenant charged for an extent of a grantee; none for a host grant. -/
def State.payer (s : State) : Grantee → Option Nat
  | .tenant t => some t
  | .job t _ => some t
  | .region c => some (Tab.getD {} s.ctxs c).tenant
  | .workset c => some (Tab.getD {} s.ctxs c).tenant
  | .object _ => none
  | .host => none
  | .nobody => none

/-- The charge of one extent of a grantee released (11 R357). -/
def State.unchargeExt (s : State) (tier : Nat) (w : Grantee) : State :=
  match w with
  | .host => { s with hostT1 := s.hostT1 - 1 }
  | w => match s.payer w with
    | some t => s.uncharge t tier 1
    | none => s

/-- Frames of the tier cache that hold a T2 extent dropped (11 R350). -/
def State.dropFrames (s : State) (e : Nat) : State :=
  { s with frames := s.frames.map fun f => if f.t2 == e + 1 then { f with t2 := 0, present := [] } else f }

/-- An extent enters SCRUBBING, without a change of charge; `cmd` keeps the REVOKE_EXTENT that waits for it (R344). -/
def State.scrubExt (s : State) (tier e : Nat) : State :=
  let x := s.ext tier e
  let s := s.setExt tier e { st := .scrubbing, cmd := x.cmd }
  if tier = 2 then s.dropFrames e else s

/-- An extent of the sample ring leaves GRANTED: the device stops the ring (14 R463). -/
def State.stopRing (s : State) (tier e : Nat) : State :=
  let n := s.net
  if tier = 1 ∧ n.ringOn ∧ n.ringOff / extBytes ≤ e ∧ e < n.ringOff / extBytes + n.ringExt then
    ({ s with net := { n with ringOn := false } }).postEvent 0x0C02 0 (e * extBytes) (s.ctr kSampleWrites)
  else s

/-- An extent leaves its grantee: its charge is released and it enters SCRUBBING; a HELD one returns to FREE; an UNAVAILABLE one loses its
grantee and needs no scrub (R344, R348, R367). -/
def State.releaseExt (s : State) (tier e : Nat) : State :=
  let x := s.ext tier e
  match x.st with
  | .granted | .draining => (s.unchargeExt tier x.who).scrubExt tier e
  | .held => s.setExt tier e {}
  | .unavailable => (s.unchargeExt tier x.who).setExt tier e { st := .unavailable }
  | _ => s

def State.releaseExts (s : State) (tier e n : Nat) : State := (List.range n).foldl (fun s i => s.releaseExt tier (e + i)) s

/-- An object's extents enter SCRUBBING and its tenant's charge is released (11 R357). -/
def State.releaseObject (s : State) (tenant first n : Nat) : State :=
  ((List.range n).foldl (fun s i => s.scrubExt 1 (first + i)) s).uncharge tenant 1 n

/-- Every T1 extent of a byte range satisfies a test. -/
def State.rangeExts (s : State) (off len : Nat) (p : Ext → Bool) : Bool :=
  (List.range ((off + len - 1) / extBytes + 1 - off / extBytes)).all fun i => p (s.ext 1 (off / extBytes + i))

/-! ## Node memory (12 R373) -/

/-- Size of the HBM window. -/
abbrev hbmSize := 2473901162496
/-- Base of the tier window. -/
abbrev tierBase := 562949953421312
/-- Bytes of the firmware reserve that the model keeps apart, at LOCAL offset `idn.fwAt` (11 R342). -/
abbrev fwSize := 134217728

/-- The byte at an offset of the HBM window. -/
def State.hbmByte (s : State) (a : Nat) : Byte :=
  if s.idn.fwAt ≤ a ∧ a < s.idn.fwAt + fwSize then Mem.read s.fw (a - s.idn.fwAt) else Mem.read s.hbm a
def State.hbmRead (s : State) (a n : Nat) : List Byte := (List.range n).map fun i => s.hbmByte (a + i)
/-- One byte of the HBM window written. -/
def State.hbmPut (s : State) (a : Nat) (b : Byte) : State :=
  if s.idn.fwAt ≤ a ∧ a < s.idn.fwAt + fwSize then { s with fw := Mem.write s.fw (a - s.idn.fwAt) b }
  else { s with hbm := Mem.write s.hbm a b }
/-- Bytes written to the HBM window; the poison of lines is the caller's. -/
def State.hbmWrite (s : State) (a : Nat) : List Byte → State
  | [] => s
  | b :: bs => State.hbmWrite (s.hbmPut a b) (a + 1) bs

/-- Poison of a line of HBM (offset / 128) set or cleared. -/
def State.linePoison (s : State) (line : Nat) (p : Bool) : State :=
  { s with fab := { s.fab with hbmPoison := if p then NSet.add s.fab.hbmPoison line else NSet.del s.fab.hbmPoison line } }
def State.linePoisoned (s : State) (line : Nat) : Bool := s.fab.hbmPoison.contains line

/-- Commands REVOKE_EXTENT whose extents are all FREE or released complete (11 R366). -/
def State.settleRevokes (s : State) : State :=
  s.inflight.foldl (fun s f =>
    match f.wait with
    | .revoke tier first count revoked ended =>
      if (List.range count).all fun i => (s.ext tier (first + i)).cmd != f.id + 1 then
        s.finish f { r0 := revoked, r1 := ended }
      else s
    | _ => s) s

/-! ## Drive operations (11 R352) -/

/-- An operation issued to a drive; its number is `tierNext` before. -/
def State.issueTier (s : State) (d off len : Nat) (why : TierFor) (wants : List FPkt := []) : State :=
  { s with tierNext := s.tierNext + 1,
           tierOps := s.tierOps ++ [{ id := s.tierNext, drive := d, offset := off, len, why, left := s.kv kTierRetries,
                                      due := s.now + ms (s.kv kTierTimeout), wants }] }

end Sys2Proof.Machine
end

