-- ==== Sys2Proof/Machine/Net.lean ====
section
/-! DEFINITION. Links, packets, queues and routing shared by the fabric chapters (12 R379, R380, 13 R421, R426, R428, R431 to R434, 14
R446, R449, 16 R525, 17 R539). -/

namespace Sys2Proof

open Machine

/-! ## Packets -/

/-- The payload bytes of a MGMT message (16 R525, 17 R539; JOB_FAULT, its acknowledgement and TEARDOWN are private to V40 devices, log
entry 7), padded to a multiple of 16. -/
def mgmtBytes (m : MMsg) : List Byte :=
  let b : List Byte := match m with
    | .boot uid n => toLE 8 uid ++ toLE 4 n
    | .claim uid node => toLE 8 uid ++ toLE 2 node
    | .sliceTable t => toLE 8 t.uid ++ toLE 2 t.node ++ toLE 2 (b2n t.unnumbered) ++ toLE 4 t.mseq ++ toLE 16 t.mdig ++
        toLE 2 t.sliceMask ++ toLE 1 t.role ++ toLE 1 t.neigh.length ++ toLE 2 t.epoch ++ toLE 2 0 ++ t.neigh.flatMap (toLE 2 ·)
    | .propose e uid n md dg => toLE 2 e ++ toLE 8 uid ++ toLE 2 n ++ toLE 4 0 ++ toLE 16 md ++ toLE 16 dg
    | .ack e n nak => toLE 2 e ++ toLE 2 n ++ toLE 1 (b2n nak)
    | .commit e dg => toLE 2 e ++ toLE 14 0 ++ toLE 16 dg
    | .heartbeat uid node e => toLE 8 uid ++ toLE 2 node ++ toLE 2 e
    | .probe uid node t n => toLE 8 uid ++ toLE 2 node ++ toLE 2 t ++ toLE 4 n
    | .probeAnswer uid node t n => toLE 8 uid ++ toLE 2 node ++ toLE 2 t ++ toLE 4 n
    | .nodeDown node c rep => toLE 2 node ++ toLE 1 c ++ toLE 5 0 ++ toLE 8 rep
    | .jobFault j g c t => toLE 2 j ++ toLE 2 g ++ toLE 1 c ++ toLE 3 0 ++ toLE 2 t
    | .jobFaultAck j g => toLE 2 j ++ toLE 2 g
    | .teardown j g c t r => toLE 2 j ++ toLE 2 g ++ toLE 1 c ++ toLE 3 0 ++ toLE 2 t ++ toLE 2 r
  b ++ List.replicate (ceilDiv b.length 16 * 16 - b.length) 0

/-- The payload as bytes; hinge messages in their private layout. -/
def Payload.toBytes : Payload → List Byte
  | .bytes b => b
  | .hinge h m => Config.hingeBytes h m
  | .mgmt m => mgmtBytes m

/-- `payload_len`. -/
def FPkt.plen (p : FPkt) : Nat := p.pay.toBytes.length

/-- The 32 header bytes (12 R379). -/
def FPkt.header (p : FPkt) : Nat :=
  pack [(4, p.ptype), (2, p.cls), (2, 0), (4, p.code), (4, 0), (14, p.dst), (2, 0), (14, p.src), (2, 0), (16, p.epoch), (50, p.offset),
    (14, 0), (32, p.seq), (16, p.tag), (12, p.job), (4, 0), (16, p.plen), (1, b2n p.poison), (1, b2n p.sld), (46, 0)]

/-- Slots of a packet, and its bytes in buffers, deficits and tokens (13 R421, 14 R449). -/
def FPkt.slots (p : FPkt) : Nat := ceilDiv (32 + p.plen) 32
def FPkt.bytes (p : FPkt) : Nat := 32 * p.slots

/-- Responses are the types 0x4 to 0x8, 0xA and 0xC (13 R426). -/
def FPkt.isResp (p : FPkt) : Bool := (4 ≤ p.ptype && p.ptype ≤ 8) || p.ptype == 0xA || p.ptype == 0xC

/-- Virtual lane 2c + k (13 R426). -/
def FPkt.lane (p : FPkt) : Nat := 2 * p.cls + b2n p.isResp

end Sys2Proof

namespace Sys2Proof.Machine

/-! ## Links -/

def State.link (s : State) (l : Nat) : Link := Tab.getD {} s.net.links l
def State.setLink (s : State) (l : Nat) (x : Link) : State := { s with net := { s.net with links := Tab.put {} s.net.links l x } }
def State.modLink (s : State) (l : Nat) (f : Link → Link) : State := s.setLink l (f (s.link l))

/-- Fabric die of a link (13 R416). -/
def linkDie (l : Nat) : Nat := if l < 36 then l / 9 else l - 36
/-- Port cycles: the switch-core island counter of the link's die (14 R452). -/
def State.portCycles (s : State) (l : Nat) : Nat := Tab.getD 0 s.islands (96 + linkDie l)

/-- A trained port: it can carry map messages (16 R525). -/
def PortSt.trained : PortSt → Bool
  | .up | .unmapped | .draining | .out => true
  | _ => false

/-- What the device keeps for a node number. -/
def State.node (s : State) (n : Nat) : Node := Tab.getD {} s.fab.nodes n
def State.setNode (s : State) (n : Nat) (x : Node) : State := { s with fab := { s.fab with nodes := Tab.put {} s.fab.nodes n x } }
def State.modNode (s : State) (n : Nat) (f : Node → Node) : State := s.setNode n (f (s.node n))

/-- A link taken out of every route and backup set; the link remembers which (13 R425, R434). -/
def State.unroute (s : State) (l : Nat) : State :=
  let s := s.modLink l fun x => { x with hadRoute := Tab.keysOf s.fab.nodes fun _ n => n.route.contains l,
                                         hadBackup := Tab.keysOf s.fab.nodes fun _ n => n.backup.contains l }
  { s with fab := { s.fab with nodes := Tab.update {} s.fab.nodes fun _ n => { n with route := NSet.del n.route l, backup := NSet.del n.backup l } },
           rcv := { s.rcv with upAll := NSet.del s.rcv.upAll l } }

/-- The port of a link changes state; PORT_STATE is posted; a port that leaves UP leaves every set (13 R434, R444). -/
def State.setPort (s : State) (l : Nat) (st : PortSt) : State :=
  let x := s.link l
  if x.st = st then s
  else
    let s := if x.st = .up then s.unroute l else s
    (s.modLink l fun x => { x with st := st }).postEvent 0x0B01 0
      (pack [(6, l), (2, 0), (3, st.code), (1, 0), (3, x.st.code), (1, 0), (14, x.peerNode)]) x.peerUid

/-- Teardown state of a job (12 R408, R411). -/
def State.jobTd (s : State) (j : Nat) : JobTd := Tab.getD {} s.fab.jobs j
def State.setJobTd (s : State) (j : Nat) (x : JobTd) : State := { s with fab := { s.fab with jobs := Tab.put {} s.fab.jobs j x } }

/-- This device's node number; another node is mapped, alive in the map. -/
def State.self (s : State) : Nat := s.compo.node
def State.mapped (s : State) (n : Nat) : Bool := s.compo.mapped && (n == s.self || (s.node n).live != .unmapped)
def State.dead (s : State) (n : Nat) : Bool := (s.node n).live == .dead

/-! ## Egress queues (14 R446, R449) -/

def Link.queue (x : Link) (q : Nat) : Queue := Tab.getD {} x.queues q
def Link.setQueue (x : Link) (q : Nat) (v : Queue) : Link := { x with queues := Tab.put {} x.queues q v }

/-- Bytes waiting in a queue, in the queues of a class, on the link. -/
def Queue.bytes (q : Queue) : Nat := ((q.resp ++ q.req).map (·.pkt.bytes)).foldl (· + ·) 0
def Link.classBytes (x : Link) (c : Nat) : Nat := ((List.range 8).map fun i => (x.queue (8 * c + i)).bytes).foldl (· + ·) 0
def Link.bufBytes (x : Link) : Nat := Tab.sum x.queues Queue.bytes

/-- Queue of a packet: MGMT in 24, else 8c + `job_subqueue` of its job. -/
def State.queueOf (s : State) (p : FPkt) : Nat := if p.cls = 3 then 24 else 8 * p.cls + s.kv kSubqueue p.job

/-- A packet joins its queue of a link, and is sampled if its turn has come (14 R462). -/
def State.joinQueue (s : State) (l : Nat) (p : FPkt) : State :=
  let x := s.link l
  let qn := s.queueOf p
  let q := x.queue qn
  let e : QPkt := { pkt := p, joined := s.portCycles l,
                    sample := if q.smpOn && q.smpCount % 2 ^ q.smpLog2 == 0 then some q.bytes else none }
  let q := { q with smpCount := if q.smpOn then q.smpCount + 1 else q.smpCount }
  let q := if p.isResp then { q with resp := q.resp ++ [e] } else { q with req := q.req ++ [e] }
  s.setLink l (x.setQueue qn q)

/-- A packet queued on a link, or waiting where it is while the 2 MiB egress buffer is full (14 R449). -/
def State.enqueue (s : State) (l : Nat) (p : FPkt) : State :=
  let x := s.link l
  if x.held.isEmpty && x.bufBytes + p.bytes ≤ extBytes then s.joinQueue l p else s.setLink l { x with held := x.held ++ [p] }

/-- Packets that waited for room join their queues in order; `fuel` is their number. -/
def State.unhold (l : Nat) : Nat → State → State
  | 0, s => s
  | n + 1, s =>
    let x := s.link l
    match x.held with
    | p :: ps => if x.bufBytes + p.bytes ≤ extBytes then State.unhold l n ((s.setLink l { x with held := ps }).joinQueue l p) else s
    | [] => s

/-! ## Routing (13 R433) -/

/-- The UP link of a set whose queues of the class hold the fewest bytes, the lowest number on a tie. -/
def State.bestLink (s : State) (ls : List Nat) (c : Nat) : Option Nat :=
  (ls.filter fun l => (s.link l).st == .up).foldl (fun b l =>
    match b with
    | none => some l
    | some m => if (s.link l).classBytes c < (s.link m).classBytes c then some l else some m) none

/-- Link for a packet to a node: of the route set, else of the backup set. -/
def State.routeLink (s : State) (dst c : Nat) : Option Nat :=
  match s.bestLink (s.node dst).route c with
  | some l => some l
  | none => s.bestLink (s.node dst).backup c

/-- A packet for another node queued on a route or backup link, or discarded and counted. -/
def State.sendPkt (s : State) (p : FPkt) : State :=
  match s.routeLink p.dst p.cls with
  | some l => s.enqueue l p
  | none => s.bump kNoRoute

/-- A MGMT message queued on one link; `dst` is the node addressed, this device's own number standing for a flooded one. -/
def State.mgmtOn (s : State) (l : Nat) (m : MMsg) : State :=
  s.enqueue l { ptype := 0xE, cls := 3, dst := s.self, src := s.self, epoch := s.compo.epoch, pay := .mgmt m }

/-- A MGMT message routed to a node. -/
def State.mgmtTo (s : State) (dst : Nat) (m : MMsg) : State :=
  s.sendPkt { ptype := 0xE, cls := 3, dst := dst, src := s.self, epoch := s.compo.epoch, pay := .mgmt m }

/-- A map message sent on every trained port but one (16 R525). -/
def State.flood (s : State) (but : Option Nat) (m : MMsg) : State :=
  (List.range 40).foldl (fun s l => if (s.link l).st.trained && but != some l then s.mgmtOn l m else s) s

/-- The packet a command delivers leaves the receive buffer of the link, if it stands there, and its slots' credits are owed back
(13 R427). -/
def State.takeRx (s : State) (l : Nat) (f : FPkt → Bool) : State :=
  let x := s.link l
  match x.rx.find? f with
  | none => s
  | some p =>
    s.setLink l { x with rx := x.rx.erase p,
                         creditOwed := x.creditOwed.zipIdx.map fun (c, i) => if i = p.lane then c + p.slots else c }

/-- As `takeRx`, on whichever link holds the packet. -/
def State.takeRxAny (s : State) (f : FPkt → Bool) : State :=
  match (List.range 40).find? fun l => (s.link l).rx.any f with
  | some l => s.takeRx l f
  | none => s

/-- A packet of any kind was received from a node (12 R412). -/
def State.heardFrom (s : State) (n : Nat) : State :=
  if (s.node n).live = .unmapped then s else s.modNode n fun x => { x with heard := some s.now }

/-! ## Epochs (12 R400) -/

/-- Epoch `a` is newer, is older than `b`. -/
def epochNewer (a b : Nat) : Bool := let d := (a + 65536 - b) % 65536; 1 ≤ d && d ≤ 32767
def epochOlder (a b : Nat) : Bool := 32768 ≤ (a + 65536 - b) % 65536

/-! ## Requests awaiting answers (12 R382, R383, R533) -/

/-- A request packet issued: the next sequence number of its destination, a tag, its timer; beyond 8,192 outstanding it waits. -/
def State.issue (s : State) (t : Txn) : State :=
  if 8192 ≤ (s.fab.txns.filter fun u => u.pkt.dst == t.pkt.dst).length then
    { s with fab := { s.fab with unsent := s.fab.unsent ++ [t] } }
  else
    let d := t.pkt.dst
    let seq := Tab.getD 0 s.fab.seqTx d
    let tag := s.fab.tagNext
    let pay := match t.pkt.pay with
      | .hinge h m => Payload.hinge { h with src := s.self, epoch := s.compo.epoch, seq } m
      | p => p
    let p := { t.pkt with seq, tag, src := s.self, epoch := s.compo.epoch, pay }
    let t := { t with tag, pkt := p, due := s.now + us (s.kv kTxnTimeout) }
    let s := { s with fab := { s.fab with seqTx := Tab.put 0 s.fab.seqTx d ((seq + 1) % 2 ^ 32), tagNext := (tag + 1) % 2 ^ 16,
                                          txns := s.fab.txns ++ [t] } }
    s.sendPkt p

/-- A request packet sent on behalf of `who`. -/
def State.request (s : State) (who : TxnFor) (dst ptype cls code offset job : Nat) (pay : Payload) (poison : Bool := false) : State :=
  s.issue { who, pkt := { ptype, cls, code, dst, offset, job, poison, pay } }

/-- A hinge reply: a HINGE packet that itself awaits no answer, numbered as every request packet is. -/
def State.oneWay (s : State) (dst cls : Nat) (h : HHdr) (m : HMsg) : State :=
  let seq := Tab.getD 0 s.fab.seqTx dst
  let s := { s with fab := { s.fab with seqTx := Tab.put 0 s.fab.seqTx dst ((seq + 1) % 2 ^ 32) } }
  let h := { h with src := s.self, epoch := s.compo.epoch, seq }
  s.sendPkt { ptype := 0xD, cls, dst, src := s.self, epoch := s.compo.epoch, seq, pay := .hinge h m }

/-- The next stalled request to a destination issued once an answer has come (12 R383). -/
def State.unstall (s : State) (dst : Nat) : State :=
  match s.fab.unsent.find? fun t => t.pkt.dst == dst with
  | some t => ({ s with fab := { s.fab with unsent := s.fab.unsent.erase t } }).issue t
  | none => s

/-- The outstanding request a response answers: its tag, to the node that answers. -/
def State.txnOf (s : State) (tag src : Nat) : Option Txn := s.fab.txns.find? fun t => t.tag == tag && t.pkt.dst == src

/-- An outstanding request removed. -/
def State.dropTxn (s : State) (t : Txn) : State :=
  ({ s with fab := { s.fab with txns := s.fab.txns.erase t } }).unstall t.pkt.dst

/-- Every outstanding or stalled request of a test removed; the others that were stalled take the places of those outstanding. -/
def State.dropTxns (s : State) (f : Txn → Bool) : State :=
  let dsts := (s.fab.txns.filter f).map (·.pkt.dst)
  dsts.foldl State.unstall
    { s with fab := { s.fab with txns := s.fab.txns.filter fun t => !(f t), unsent := s.fab.unsent.filter fun t => !(f t) } }

/-- A response to a request packet (12 R379, R447). -/
def State.respond (s : State) (p : FPkt) (ptype code : Nat) (pay : List Byte) (poison sld : Bool := false) : State :=
  s.sendPkt { ptype, cls := p.cls, code, dst := p.src, src := s.self, epoch := s.compo.epoch, offset := p.offset, seq := p.seq,
              tag := p.tag, job := p.job, poison, sld, pay := .bytes pay }

end Sys2Proof.Machine
end

