-- ==== Sys2Proof/Machine/Req.lean ====
section
/-! DEFINITION. Requests: contexts and handles, latches, output entries, release and ending (03 R81 to R86, R103 to R108, 04 R121 to
R128, R148). -/

namespace Sys2Proof.Machine

/-! ## Contexts (03 R81 to R84) -/

def State.ctx (s : State) (i : Nat) : Ctx := Tab.getD {} s.ctxs i
def State.setCtx (s : State) (i : Nat) (c : Ctx) : State := { s with ctxs := Tab.put {} s.ctxs i c }
def State.modCtx (s : State) (i : Nat) (f : Ctx → Ctx) : State := s.setCtx i (f (s.ctx i))

/-- State codes (R84). -/
def CtxSt.code : CtxSt → Nat
  | .free => 0 | .admitted => 1 | .prefill => 2 | .handoff => 3 | .decode => 4 | .paused => 5 | .draining => 6 | .done => 7 | .ended => 8

/-- The request is over: the context is FREE, DONE or ENDED. -/
def CtxSt.over : CtxSt → Bool
  | .free | .done | .ended => true
  | _ => false

/-- Handle of context `i` at generation `g` (R82). -/
def handleOf (i g : Nat) : Nat := g * 65536 + i
def State.handleFor (s : State) (i : Nat) : Nat := handleOf i (s.ctx i).gen

/-- The live context a handle names (R65, R82). -/
def State.ctxNamed (s : State) (h : Nat) : Option Nat :=
  let i := fld h 12 0
  if h < 2 ^ 32 ∧ fld h 15 13 = 0 ∧ (s.ctx i).st ≠ .free ∧ (s.ctx i).gen = fld h 31 16 then some i else none

/-- Generation after `g` (R82). -/
def nextGen (g : Nat) : Nat := if g = 65535 then 1 else g + 1

/-- Request age in µs (R86); frozen in DONE and ENDED. -/
def State.ctxAge (s : State) (i : Nat) : Nat :=
  let c := s.ctx i
  if c.st.over then c.ageBase else c.ageBase + (s.now - c.ageAt) / 1600

/-- Total µs in PAUSED, the present stay included. -/
def State.pausedTime (s : State) (i : Nat) : Nat :=
  let c := s.ctx i
  if c.st = .paused then c.pausedUs + (s.now - c.pausedAt) / 1600 else c.pausedUs

/-- The context enters a state: PAUSED time, the frozen age and the retain time of DONE and ENDED are kept (R85, R110, R118). -/
def State.enter (s : State) (i : Nat) (st : CtxSt) : State :=
  let c := s.ctx i
  let c := if st = .paused ∧ c.st ≠ .paused then { c with pausedAt := s.now } else { c with pausedUs := s.pausedTime i, pausedAt := s.now }
  let c := if st = .done ∨ st = .ended then { c with ageBase := s.ctxAge i, ageAt := s.now, overAt := s.now, retainMs := s.kv kCtxRetain }
    else c
  s.setCtx i { c with st }

/-- First index from `i` on, among `n`, whose context is FREE and not withheld (R83, 04 R125). -/
def State.firstFree (s : State) : Nat → Nat → Option Nat
  | 0, _ => none
  | n + 1, i => if (s.ctx i).st = .free ∧ !s.withheld.contains (i / 2048) then some i else State.firstFree s n (i + 1)
def State.freeCtx (s : State) : Option Nat := s.firstFree 8192 0

/-- The context returns to FREE: every field cleared, the generation advanced (R82). -/
def State.freeCtxAt (s : State) (i : Nat) : State := s.setCtx i { gen := nextGen (s.ctx i).gen }

/-- Contexts of a test. -/
def State.ctxsThat (s : State) (p : Ctx → Bool) : List Nat := Tab.keysOf s.ctxs fun _ c => p c

/-! ## Latches (04 R121 to R123, R148) -/

def State.latch (s : State) (k : Nat) : Latch := Tab.getD {} s.latches k

/-- A latch written; its state entered now, under the map epoch in force, if it changes. -/
def State.setLatch (s : State) (k : Nat) (x : Latch) : State :=
  let x := if x.st = (s.latch k).st then x else { x with tState := s.now, epoch := s.compo.epoch }
  { s with latches := Tab.put {} s.latches k x }
def State.modLatch (s : State) (k : Nat) (f : Latch → Latch) : State := s.setLatch k (f (s.latch k))

/-- Slot of the latch a context handle holds, and of the latch of a region. -/
def State.latchOf (s : State) (h : Nat) : Option Nat := Tab.first? s.latches fun _ x => x.handle == h && x.st != .absent
def State.latchOfRegion (s : State) (r : Nat) : Option Nat :=
  if r = 0 then none else Tab.first? s.latches fun _ x => x.region == r && x.st != .absent

/-- A latch returns to ABSENT; its hinge messages are no longer sent. -/
def State.dropLatch (s : State) (k : Nat) : State :=
  ({ s with latches := Tab.erase s.latches k }).dropTxns fun t => t.who == TxnFor.hinge k

/-- First ABSENT slot among `n` from `k` on. -/
def State.absentLatch (s : State) : Nat → Nat → Option Nat
  | 0, _ => none
  | n + 1, k => if (s.latch k).st = .absent then some k else State.absentLatch s n (k + 1)

/-- The forwarding record with the oldest commit that has passed `fwd_min_hold_us` (R148). -/
def State.oldForward (s : State) : Option Nat :=
  (s.latches.foldl (fun (b : Option (Nat × Nat)) x =>
    if x.2.st == .forwarding && x.2.tState + us (s.kset kFwdHold) ≤ s.now then
      match b with
      | some (_, t) => if x.2.tState < t then some (x.1, x.2.tState) else b
      | none => some (x.1, x.2.tState)
    else b) none).map (·.1)

/-- A latch slot, and the state with it ABSENT (R148). -/
def State.takeLatch (s : State) : Option (Nat × State) :=
  match s.absentLatch 16384 0 with
  | some k => some (k, s)
  | none => match s.oldForward with
    | some k => some (k, s.dropLatch k)
    | none => none

/-! ## Hinge messages of a latch (04 R127, R131) -/

/-- Header of a message of a latch: the region opened on the destination, the handle at the other end, the attempt. -/
def Latch.hdr (x : Latch) : HHdr := { region := x.openRegion, handle := x.peerHandle, attempt := x.attempt }

/-- A message sent to the other end and sent again until answered; never to a node declared dead. -/
def State.hingeSend (s : State) (k : Nat) (m : HMsg) : State :=
  let x := s.latch k
  if s.dead x.peer then s else s.request (.hinge k) x.peer 0xD 0 0 0 0 (.hinge x.hdr m)

/-- A message sent to the other end once. -/
def State.hingeTell (s : State) (k : Nat) (m : HMsg) : State :=
  let x := s.latch k
  if s.dead x.peer then s else s.oneWay x.peer 0 x.hdr m

/-! ## Output entries (02 R53, R60, 03 R103, R104) -/

/-- The entry of a held record counted as delivered, if its request still has its context. -/
def State.delivered (s : State) (o : OutHeld) : State :=
  if o.ent.kind = 1 ∧ s.handleFor o.ctx = o.handle then s.modCtx o.ctx fun c => { c with delivered := c.delivered + 1 } else s

/-- A ring takes no entries and holds none back: it is not ACTIVE, or the interface is being torn down. -/
def State.ringGone (s : State) (n : Nat) : Bool := s.host.tearing || (s.oqr n).st != .active

/-- An output entry of a context written, held for want of room behind the request's earlier ones, or discarded. -/
def State.pushOut (s : State) (i : Nat) (e : OutEnt) : State :=
  let c := s.ctx i
  let o : OutHeld := { ctx := i, handle := s.handleFor i, cookie := c.cookie, ring := c.outRing, ent := { e with time := s.now } }
  if s.ringGone c.outRing then s
  else if (s.oqr c.outRing).room = 0 || s.outHeld.any fun h => h.handle == o.handle then { s with outHeld := s.outHeld ++ [o] }
  else (s.oqPost o.ring o.handle o.cookie o.ent).delivered o

/-- The request has an output entry that waits (R53). -/
def State.stalled (s : State) (i : Nat) : Bool := s.outHeld.any fun h => h.handle == s.handleFor i

/-! ## Retired delta versions (08 R288) -/

/-- Requests that hold a delta version. -/
def State.deltaRefs (s : State) (id ver : Nat) : Nat :=
  Tab.countP s.ctxs fun c => c.st != .free && !c.released && c.delta == id && c.deltaVer == ver

/-- A retired version that nobody holds is freed. -/
def State.retireDelta (s : State) (id ver : Nat) : State :=
  match Tab.find? s.deltas id with
  | none => s
  | some d =>
    match d.vers.find? (·.ver == ver) with
    | none => s
    | some v =>
      if ver = d.current ∨ s.deltaRefs id ver ≠ 0 then s
      else
        let s := { s with deltas := Tab.set s.deltas id { d with vers := d.vers.filter (·.ver != ver) } }
        (s.releaseObject d.tenant v.first (extsOf v.size)).postEvent 0x0602 id ver d.current

/-! ## Release (03 R108) -/

/-- The region object of a context released: its T1 extents, the charge kept for demoted extents not yet recalled, its T2 extents. -/
def State.releaseRegion (s : State) (i : Nat) : State :=
  let c := s.ctx i
  match Tab.find? s.regions c.region with
  | none => s
  | some r =>
    let lost := if c.demoted then (r.demoted.filter fun d => !(r.hasRun && (s.ext 1 (r.first + d.1)).st == .granted)).length else 0
    let s := if r.hasRun then s.releaseExts 1 r.first r.count else s
    let s := s.uncharge c.tenant 1 lost
    let s := r.demoted.foldl (fun s d => s.releaseExt 2 d.2) s
    { s with regions := Tab.erase s.regions c.region,
             tierOps := s.tierOps.filter fun t => match t.why with
               | .demote x _ => x != i | .recall x _ => x != i | .move x => x != i | .flushDemote x => x != i | _ => true }

/-- Everything R108 names but the latch, once for each context. -/
def State.releaseCtx (s : State) (i : Nat) : State :=
  let c := s.ctx i
  if c.released then s
  else
    let s := s.releaseRegion i
    let s := s.releaseExts 1 c.wsFirst c.wsCount
    let s := s.modCtx i fun c => { c with released := true, placed := false, wsCount := 0, prefixSt := .inPlace,
                                          demoting := false, recalling := false, opening := false, pushing := 0, pushLeft := 0 }
    let s := { s with parts := Tab.update {} s.parts fun _ p => { p with batch := p.batch.filter (· != i) } }
    let s := s.dropTxns fun t => match t.who with
      | .push x => x == i | .pull x _ => x == i | .mirror x => x == i | _ => false
    let s := if c.delta = 0 then s else s.retireDelta c.delta c.deltaVer
    s.settleRevokes

/-! ## Commands that wait for a context (03 R112, R114, R115) -/

/-- The context is over: the commands that wait for it complete. CANCEL carries the end status and state; a RESUME past its commit point
completes; the others are refused at their commit point (02 R61). -/
def State.finishCtxCmds (s : State) (i : Nat) : State :=
  let c := s.ctx i
  s.inflight.foldl (fun s f =>
    let bad : Ans := refuse sConflict c.st.code
    match f.wait with
    | .cancel x =>
      if x = i then s.finish f { status := if c.st = .ended ∧ c.endStatus = sCancelled then sOK else sOkAlready,
                                 r0 := c.endStatus + c.st.code * 65536 } else s
    | .resume x => if x = i then s.finish f { r0 := c.st.code } else s
    | .pause x => if x = i then s.finish f bad else s
    | .mirror x _ => if x = i then s.finish f bad else s
    | _ => s) s

/-- The twin of a mirrored home releases its copy. -/
def State.freeTwin (s : State) (k status : Nat) : State :=
  let x := s.latch k
  if x.mirrored && x.primary && x.twinHandle != 0 && !s.dead x.twinNode then
    s.oneWay x.twinNode 0 { region := x.twinRegion, handle := x.handle } (.abandon status)
  else s

/-- A DRAINING request whose END entry is written or discarded is released, loses its latch and enters DONE (R108). -/
def State.settleDrain (s : State) (i : Nat) : State :=
  if (s.ctx i).st = .draining ∧ !s.stalled i then
    let s := (s.releaseCtx i).enter i .done
    let s := match s.latchOf (s.handleFor i) with
      | some k => (s.freeTwin k sOK).dropLatch k
      | none => s
    s.finishCtxCmds i
  else s

/-- The oldest held entry of a context index written if its ring has room, or discarded if its ring is gone (R53). -/
def State.writeHeld (s : State) (i : Nat) : State :=
  match s.outHeld.find? (·.ctx == i) with
  | none => s
  | some o =>
    let t := { s with outHeld := s.outHeld.erase o }
    if s.ringGone o.ring then t.settleDrain i
    else if (s.oqr o.ring).room = 0 then s
    else ((t.oqPost o.ring o.handle o.cookie o.ent).delivered o).settleDrain i

/-- The held entries of a ring that is no longer written are discarded. -/
def State.discardHeld (s : State) (n : Nat) : State :=
  let is := ((s.outHeld.filter (·.ring == n)).map (·.ctx)).eraseDups
  let s := { s with outHeld := s.outHeld.filter (·.ring != n) }
  is.foldl State.settleDrain s

/-! ## Ending (03 R104, R105, R107, 04 R127, R128) -/

/-- A destination context that was never home: its resources, latch and context are given back, HANDOVER_ABANDONED is posted and a
MOVE_STATE that opened it completes; with `tell`, REFUSE goes to the source (R127). -/
def State.failDest (s : State) (i status : Nat) (tell : Bool) : State :=
  let c := s.ctx i
  let h := s.handleFor i
  let later : Bool := match s.latchOf h with | some k => (s.latch k).retryLater | none => false
  let s := match s.latchOf h with
    | some k => (if tell then s.hingeTell k (.refuse status) else s).dropLatch k
    | none => s
  let s := (s.releaseCtx i).freeCtxAt i
  let s := s.postEvent 0x0301 h (pack [(16, status), (16, 0), (14, c.homeNode)]) c.cookie
  if c.moveCmd = 0 then s else s.finishId (c.moveCmd - 1) (refuse (if later then sRetryLater else status))

/-- The latch of an ended request: kept in HOME while ABANDON is being sent, where an opening was sent (R127, R128); else ABSENT. -/
def State.endLatch (s : State) (i status : Nat) : State :=
  match s.latchOf (s.handleFor i) with
  | none => s
  | some k =>
    let x := s.latch k
    let s := s.freeTwin k status
    if ((s.ctx i).opening || x.openRegion != 0) && !s.dead x.peer then
      let s := s.dropTxns fun t => t.who == TxnFor.hinge k && x.openRegion != 0
      let s := s.setLatch k { x with st := .home, abandon := status + 1 }
      if x.openRegion = 0 then s else s.hingeSend k (.abandon status)
    else s.dropLatch k

/-- A request ends with a status (R107): a destination not yet home abandons its handover; otherwise the context enters ENDED, END or
REQUEST_ENDED is produced, and R108 releases once. -/
def State.endReq (s : State) (i status : Nat) : State :=
  let c := s.ctx i
  if c.st.over then s
  else if c.st = .handoff ∧ c.isDest then s.failDest i status true
  else
    let s := (s.modCtx i fun c => { c with endStatus := status }).enter i .ended
    let s := s.endLatch i status
    let s := s.releaseCtx i
    let s := if c.bound then
        let s := { s with outHeld := s.outHeld.filter fun o => !(o.handle == s.handleFor i && o.ent.kind == 2) }
        s.pushOut i { kind := 2, position := c.position, status }
      else s.postEvent 0x0203 (s.handleFor i) status c.cookie
    s.finishCtxCmds i

/-- Every request of a test ends. -/
def State.endReqs (s : State) (p : Nat → Ctx → Bool) (status : Nat) : State :=
  (Tab.keysOf s.ctxs fun i c => !c.st.over && p i c).foldl (fun s i => s.endReq i status) s

end Sys2Proof.Machine
end

