-- ==== Sys2Proof/Machine/Caps.lean ====
section
/-! DEFINITION. The Capability Table and its views (01 R34 to R38). -/

namespace Sys2Proof.Machine

/-- Slices of a view: a job's, or the whole composition's (R34). -/
def State.viewSlices (s : State) (job : Option Nat) : List Nat :=
  match job with
  | some j => s.jobSlices j
  | none => s.slices

/-- Fabric dies of a view: those that serve its slices; in the device view, all that are not fenced (16 R518). -/
def State.viewFds (s : State) (job : Option Nat) : List Nat :=
  (List.range 4).filter fun m => !s.isFenced (8 + m) &&
    match job with
    | some j => (s.jobSlices j).any fun k => k / 4 == m
    | none => true

/-- Composed spare ports and collective engines of a view (16 R517). -/
def State.viewSpares (s : State) (job : Option Nat) : Nat := ((s.viewFds job).filter fun m => bitAt (s.dev 331 328) m).length
def State.viewColl (s : State) (job : Option Nat) : Nat := ((s.viewFds job).filter fun m => bitAt (s.dev 335 332) m).length

/-- Extents of the runs. -/
def runTotal (rs : List (Nat × Nat)) : Nat := (rs.map (·.2)).foldl (· + ·) 0

/-- `t1_extents` of the device view: the stacks not fenced, less the reservations on them (11 R342). -/
def State.deviceT1 (s : State) : Nat :=
  let live := (List.range 24).filter fun h => !s.isFenced (stackDie h)
  live.length * stackExts - runTotal ((s.t1Res ++ s.t1Map ++ s.t1Cache).filter fun r => !s.isFenced (stackDie (extStack r.1)))

/-- 160-bit entries of the match dies not fenced, and a job's share by `pool_weight` (01 R10, 16 R518). -/
def State.tumblerRows (s : State) : Nat :=
  131072 * ((List.range 2).filter fun d => !s.isFenced (14 + d)).length - (if s.isFenced 15 then 0 else s.tum.routeRows)
def State.jobRows (s : State) (j : Nat) : Nat :=
  s.tumblerRows * s.poolWeight j / ((s.jobs.map s.poolWeight).foldl (· + ·) 0)

/-- The mask of the slices of a view. -/
def State.viewMask (s : State) (job : Option Nat) : Nat := maskOf (s.viewSlices job)

/-- Request contexts that can be allocated (04 R125). -/
def State.ctxCount (s : State) : Nat := 8192 - 2048 * s.withheld.length

/-- The device block (R35). -/
def State.capDevice (s : State) (job : Option Nat) : Nat :=
  let n := (s.viewSlices job).length
  let m := s.viewMask job
  let t1 := match job with | some j => Config.jobT1 j m | none => s.deviceT1
  let t2 := match job with | some j => Config.jobT2 j m | none => s.compo.t2Extents
  let rows := match job with | some j => s.jobRows j | none => s.tumblerRows
  pack [(16, m), (8, 3 * n), (8, 3 * n), (4, 6), (4, 2), (8, n), (8, 2 * (s.viewFds job).length), (8, 2 * n + s.viewSpares job),
    (16, 20480), (16, 12288), (32, t1), (32, t2), (3, s.viewColl job), (1, b2n s.twinValid), (4, 0), (24, rows), (16, 800), (16, 1000),
    (16, 1600), (16, 800), (16, s.ctxCount), (8, 16)]

/-- A partition. -/
def State.part (s : State) (p : Nat) : Part := Tab.getD {} s.parts p

/-- A partition entry (R35). -/
def State.capPart (s : State) (job : Option Nat) (i : Nat) : Nat :=
  let p := s.part i
  let inView : Bool := p.st != .absent && (match job with | some j => p.job == j | none => true)
  if inView then pack [(48, p.pMask), (48, p.dMask), (1, 1), (1, b2n p.det), (1, b2n p.effYield)] else 0

/-- A slice entry (R35, R18). -/
def State.capSlice (s : State) (job : Option Nat) (k : Nat) : Nat :=
  let m := k / 4
  pack [(3, k / 2), (2, m), (1, b2n ((s.viewSlices job).contains k)), (2, 0), (5, k), (3, 0), (6, 3 * k), (2, 0), (6, 3 * k), (2, 0),
    (6, 9 * m + 2 * (k % 4)), (2, 0), (6, 9 * m + 2 * (k % 4) + 1)]

/-- Index of a view in `capSeq`. -/
def viewIx (job : Option Nat) : Nat := job.getD 4096

/-- The header (R35). -/
def State.capHeader (s : State) (job : Option Nat) : Nat :=
  pack [(32, 0x50414356), (16, 1), (16, 0x200), (16, s.compo.epoch), (14, s.compo.node), (2, 0), (2, s.compo.role), (2, s.pow.mode),
    (12, job.getD 0), (1, b2n job.isNone), (15, 0), (32, Tab.getD 0 s.compo.capSeq (viewIx job)), (96, 0)]

/-- The 512 bytes of a view. -/
def State.capView (s : State) (job : Option Nat) : List Byte :=
  toLE 32 (s.capHeader job) ++ toLE 96 (s.capDevice job) ++ (List.range 16).flatMap (fun i => toLE 16 (s.capPart job i)) ++
    (List.range 16).flatMap fun k => toLE 8 (s.capSlice job k)

/-- Place of a job's view in the firmware reserve: by the job's first slice. -/
def State.capPlace (s : State) (j : Nat) : Nat := 0x10000 + 512 * ((s.jobSlices j).headD 0)

/-- Views changed: their sequences rise to the next even value and the jobs' pages are rewritten (R36). -/
def State.capChanged (s : State) (views : List (Option Nat)) : State :=
  views.foldl (fun s v =>
    let s := { s with compo := { s.compo with capSeq := Tab.modify 0 s.compo.capSeq (viewIx v) fun n => (n + 2) % 2 ^ 32 } }
    match v with
    | some j => { s with fw := Mem.writeN s.fw (s.capPlace j) (s.capView (some j)) }
    | none => s) s

/-- Every view of the device. -/
def State.views (s : State) : List (Option Nat) := none :: s.jobs.map some

end Sys2Proof.Machine
end

