-- ==== Sys2Proof/Machine/Clock.lean ====
section
/-! DEFINITION. The device's clocks: what 40 ns without a command do (01 R14, R15, R33, 18 R569, R576, R582; log entry 3). -/

namespace Sys2Proof.Machine

/-- The device acts: powered, and not stopped by a fatal condition (17 R543, 18 R566, R567). -/
def State.runs (s : State) : Bool := s.board.pwrok && !s.rcv.fatal

/-- The control firmware acts: no restart of it is in progress (17 R540). -/
def State.fwUp (s : State) : Bool := s.runs && !s.rcv.ctlRestart

/-- Clock of core `i` (0 to 95) in MHz: the cap of its kind, and 25 MHz less for each throttling step of its die down to the floor; 0
while core clocks are stopped (01 R15, R24, 18 R569, R576). -/
def State.coreMhz (s : State) (i : Nat) : Nat :=
  if s.pow.level ≠ 0 then 0
  else
    let floor := s.kv kClockFloor
    let cap := if i < 48 then s.pow.prefillMhz else s.pow.decodeMhz
    let die := if i < 48 then coreDie i else coreDie (i - 48)
    min cap (max floor (800 - 25 * Tab.getD 0 s.pow.dieSteps die))

/-- Die of an island (01 R11, R14). -/
def islandDie (i : Nat) : Nat :=
  if i < 48 then coreDie i else if i < 96 then coreDie (i - 48) else if i < 100 then 8 + (i - 96)
  else if i < 102 then 12 + (i - 100) else 14 + (i - 102)

/-- Cycles an island counts in 40 ns; none on a fenced die (R14). -/
def State.islandRate (s : State) (i : Nat) : Nat :=
  if s.isFenced (islandDie i) then 0
  else if i < 96 then s.coreMhz i / 25
  else if i < 100 then 40
  else if i < 102 then 64
  else 32

/-- A time counter of the key tables, kept in XD0 cycles, advanced by 40 ns while its condition holds. -/
def State.runFor (s : State) (key : Nat) (c : Bool) : State := if c then s.bump key 64 else s

/-- 40 ns of elapsed time with no command. -/
def State.tick (s : State) : State :=
  if s.runs then
    let isl := (List.range 104).foldl (fun t i => Tab.modify 0 t i fun v => (v + s.islandRate i) % 2 ^ 64) s.islands
    let s := { s with now := (s.now + 64) % 2 ^ 64, islands := isl }
    let s := s.runFor kComputeCapped (s.pow.prefillMhz != 800 || s.pow.decodeMhz != 800)
    let s := s.runFor kHbmPaced s.pow.hbmPaced
    let s := s.runFor kFabricPaced (s.pow.fabricPace != 0)
    let s := s.runFor kThrottleUs (!s.pow.throttled.isEmpty)
    s.runFor kProchotUs s.pow.prochot
  else s

end Sys2Proof.Machine
end

