-- ==== Sys2Proof/Machine/Cmd.lean ====
section
/-! DEFINITION. How the device processes a host command: taking it from its ring, the checks of 02 R62 in their order, its start, commit
and completion (02 R51, R52, R55 to R57, R61 to R67, R583). -/

namespace Sys2Proof

/-- The inline parameters as a number. -/
def Pkt.v (p : Pkt) : Nat := p.inl.toNat
/-- Inline field [hi:lo]. -/
def Pkt.f (p : Pkt) (hi lo : Nat) : Nat := Machine.fld p.v hi lo
/-- The header's opcode, `row` where it is the row's own. -/
def Pkt.opcodeOr (p : Pkt) (row : Nat) : Nat := match p.undef with | some c => c.toNat | none => row
/-- Inline bit. -/
def Pkt.b (p : Pkt) (i : Nat) : Bool := Machine.bitAt p.v i
/-- The extended block. -/
def Pkt.x (p : Pkt) : List Byte := p.ext.getD []
/-- Extended field [hi:lo]. -/
def Pkt.xf (p : Pkt) (hi lo : Nat) : Nat := Machine.bfld p.x hi lo

end Sys2Proof

namespace Sys2Proof.Machine

/-- What the performance of a command comes to. -/
inductive Done where
  /-- Completed: the answer and the state. -/
  | done (a : Ans) (s : State)
  /-- Committed or not, it waits; `bound` replaces the command timeout, in XD0 cycles from its start (R66). -/
  | wait (w : Wait) (committed : Bool) (bound : Option Nat) (s : State)

/-- How an opcode is checked and performed. -/
structure CmdRow where
  /-- Opcode (R69). -/
  opcode : Nat
  /-- Accepted only on ring 0. -/
  ring0 : Bool := false
  /-- Inline ranges reserved in every use. -/
  resv : List (Nat × Nat) := []
  /-- The header `handle` is reserved too. -/
  resvHandle : Bool := false
  /-- Extended length in bytes, from the inline parameters. -/
  ext : Nat → Nat := fun _ => 0
  /-- The same, where it depends on the object named. -/
  extIn : State → Nat → Nat := fun _ v => ext v
  /-- The extended block's always-reserved fields and padding are zero. -/
  extOk : Nat → List Byte → Bool := fun _ _ => true
  /-- Steps 5 to 9: the first check that fails. -/
  check : Pkt → State → Option Ans := fun _ _ => none
  /-- The effect, on a command that passed its checks; the number is the command's. -/
  act : Pkt → Nat → State → Done

/-- The answer of the first check that fails, in order. -/
def firstFail : List (Bool × Ans) → Option Ans
  | [] => none
  | (bad, a) :: cs => if bad then some a else firstFail cs

/-- A length, count or size out of range (step 5). -/
def badLen (bad : Bool) : Bool × Ans := (bad, refuse sBadLength)
/-- Any other field, handle or name (step 6). -/
def badFld (bad : Bool) : Bool × Ans := (bad, refuse sBadField)
/-- The state of the subject (step 7), with its code. -/
def conflict (bad : Bool) (code : Nat) : Bool × Ans := (bad, refuse sConflict code)
/-- Tenant quota (step 8) and device resources (step 9). -/
def badQuota (bad : Bool) : Bool × Ans := (bad, refuse sQuota)
def noRes (bad : Bool) : Bool × Ans := (bad, refuse sNoResource)

/-- The header `handle` of an opcode that carries 0 (step 6). -/
def badHandle (p : Pkt) : Bool × Ans := badFld (p.handle != 0)

/-- Outside a range. -/
def outside (v lo hi : Nat) : Bool := v < lo || hi < v
/-- Not a multiple. -/
def misaligned (v n : Nat) : Bool := v % n != 0

/-! ## Taking (R51, R52, R61) -/

/-- The ring's completion ring is ACTIVE and has room beyond its reserved entries. -/
def State.cqRoom (s : State) (q : SubRing) : Bool := (s.cqr q.cq).st == .active && s.reservedIn q.cq < (s.cqr q.cq).room

/-- The ring holds a command the device may take. -/
def State.canTake (s : State) (n : Nat) : Bool :=
  let q := s.sqr n
  q.st == .active && q.head != q.tail && (s.inflightOf n).length < s.kset kMaxInflight && s.cqRoom q

/-- The ring holds a command that nothing can keep the device from taking and starting. -/
def State.mustServe (s : State) (n : Nat) : Bool := s.canTake n && (s.inflightOf n).isEmpty

/-- Rings 1 to 63 in the order of the round in progress. -/
def State.rotation (s : State) : List Nat :=
  let first := if s.host.wrrTaken < (s.sqr s.host.wrrRing).weight then 0 else 1
  (List.range 63).map fun i => 1 + (s.host.wrrRing - 1 + first + i) % 63

/-- The ring's turn has come: ring 0 ahead of all, then weighted round robin. -/
def State.turn (s : State) (n : Nat) : Bool :=
  n == 0 || (!s.mustServe 0 && (s.rotation.takeWhile (· != n)).all fun r => !s.mustServe r)

/-- The device can take the packet now and start it: ring, turn, fence and handle order. -/
def State.mayTake (s : State) (p : Pkt) : Bool :=
  s.runs && s.host.ready && !s.host.tearing && !s.rcv.ctlRestart && s.canTake p.sq && s.turn p.sq &&
    !(s.inflightOf p.sq).any (fun f => f.fence || (p.handle != 0 && f.handle == p.handle)) &&
    (!p.fence || (s.inflightOf p.sq).isEmpty)

/-- The ring's head and the round robin after a command is taken. -/
def State.takeFrom (s : State) (n : Nat) : State :=
  let q := s.sqr n
  let h := s.host
  let s := s.setSq n { q with head := (q.head + 1) % 2 ^ q.log2 }
  let s := s.adopt kMaxInflight
  if n = 0 then s
  else
    let same : Bool := n == h.wrrRing && h.wrrTaken < q.weight
    { s with host := { s.host with wrrRing := n, wrrTaken := if same then h.wrrTaken + 1 else 1 } }

/-! ## Checking (R62 steps 1 to 4) -/

/-- The first four steps. -/
def CmdRow.header (r : CmdRow) (p : Pkt) (s : State) : Option Ans :=
  let n := r.extIn s p.v
  let len := ceilDiv n 64
  firstFail
    [(p.undef.isSome || (r.ring0 && p.sq != 0), refuse sBadOpcode),
     badFld (p.hrsv != 0 || !rangesZero p.v r.resv || (r.resvHandle && p.handle != 0) || (p.extLen == 0 && p.extAddr != 0)),
     badLen (p.extLen != len),
     badFld (p.extLen != 0 && p.ext.isNone),
     badFld (p.extLen != 0 && !(allZero (p.x.drop n) && r.extOk p.v p.x))]

/-- Opcodes refused from the start of a fabric boot until its commit: those that would create or change a request, partition, program
context, collective session, Tumbler table or hinge state (16 R523). -/
def bootOpcodes : List Nat :=
  [0x0201, 0x0202, 0x0203, 0x0204, 0x0206, 0x0301, 0x0302, 0x0303, 0x0305, 0x0403, 0x0801, 0x0802, 0x0803, 0x0804, 0x0B03, 0x0D01,
   0x0D02, 0x0D03, 0x0D04, 0x0D05, 0x0D07]

/-- GRANT_EXTENT to a job, or REVOKE_EXTENT of a JOB extent. -/
def jobExtents (p : Pkt) (opcode : Nat) (s : State) : Bool :=
  (opcode == 0x0901 && p.f 3 2 == 2) ||
    (opcode == 0x0902 && (List.range (p.f 31 16)).any fun i =>
      match (s.ext (p.f 1 0) (p.f 127 64 / extBytes + i)).who with | .job _ _ => true | _ => false)

/-- The command is refused because a fabric boot has begun and not committed. -/
def CmdRow.bootBar (r : CmdRow) (p : Pkt) (s : State) : Bool :=
  s.compo.uncommitted && (bootOpcodes.contains r.opcode || jobExtents p r.opcode s)

/-- The checks of R62 in order; the refusal of a fabric boot stands at step 7. -/
def CmdRow.verdict (r : CmdRow) (p : Pkt) (s : State) : Option Ans :=
  match r.header p s with
  | some a => some a
  | none =>
    match r.check p s with
    | some a => if r.bootBar p s && a.status != sBadLength && a.status != sBadField then some (refuse sConflict 0x30) else some a
    | none => if r.bootBar p s then some (refuse sConflict 0x30) else none

/-! ## Performing -/

/-- The record of a command being taken. -/
def State.newCmd (s : State) (r : CmdRow) (p : Pkt) : Inflight :=
  { id := s.cmdNext, sq := p.sq, tag := p.tag.toNat, opcode := p.opcodeOr r.opcode, handle := p.handle, fence := p.fence, irq := p.irq,
    wfault := p.wfault, start := s.now, due := s.now + ms (s.kv kCmdTimeout) }

/-- A host command: taken, checked, performed, and completed or left waiting. A packet the device cannot take now stays in its ring. -/
def hostCommand (r : CmdRow) (p : Pkt) (s : State) : State :=
  if s.mayTake p then
    let f := s.newCmd r p
    let s := s.takeFrom p.sq
    let s := { s with cmdNext := s.cmdNext + 1, inflight := s.inflight ++ [f] }
    if p.fetchFault then s.finish { f with tag := 0, opcode := 0, handle := 0, irq := false } (refuse sBadField)
    else match r.verdict p s with
      | some a => s.finish f a
      | none => match r.act p f.id s with
        | .done a s => s.finish f a
        | .wait w c bound s =>
          { s with inflight := s.inflight.map fun (g : Inflight) =>
              if g.id == f.id then { g with wait := w, committed := c, due := match bound with | some b => g.start + b | none => g.due }
              else g }.settleDeletes.settleRevokes
  else s

end Sys2Proof.Machine
end

