-- ==== Sys2Proof/Machine/Power.lean ====
section
/-! DEFINITION. Power modes, budgets, capping, low-power levels, rails, thermal behaviour and the capability and counter reads (01 R16, R17,
R22 to R38, 18 R561 to R578, 17 R543). -/

namespace Sys2Proof.Machine

/-! ## Stopping the device (17 R543) -/

/-- The device stops: `fatal` with a code, FATAL_N low, every port DOWN. Only a cold boot clears it. -/
def State.fatalStop (s : State) (code : Nat) : State :=
  let s := (List.range 40).foldl (fun s l => s.setPort l .down) s
  { s with rcv := { s.rcv with fatal := true, fatalCode := code }, board := { s.board with fatalN := true } }

/-! ## Budgets (R23, R28) -/

/-- Compute, HBM and fabric budgets of a mode. -/
def modeBudgets : Nat → Nat × Nat × Nat
  | 0 => (1800, 600, 380)
  | 1 => (1450, 912, 420)
  | 2 => (600, 912, 464)
  | _ => (1400, 800, 460)

/-- As much as `d` taken from `b` down to a floor: what is left of `b`, and what is left to take. -/
def takeDown (b floor d : Nat) : Nat × Nat := let t := min d (b - floor); (b - t, d - t)

/-- The budgets of a mode under a package limit. -/
def budgetsFor (mode limit : Nat) : Nat × Nat × Nat :=
  let b := modeBudgets mode
  let c := takeDown b.1 600 (b.1 + b.2.1 + b.2.2 + 210 - limit)
  let h := takeDown b.2.1 600 c.2
  let f := takeDown b.2.2 300 h.2
  (c.1, h.1, f.1)

/-- The limit in force: `pkg_power_limit_w`, or 1,710 while PROCHOT_N is low (18 R577). -/
def State.powerLimit (s : State) : Nat := if s.pow.prochot then 1710 else s.kset kPkgLimit

/-- A budget transition starts: the budgets that decrease are lowered at once (R30). -/
def State.startTrans (s : State) (mode : Nat) : State :=
  let t := budgetsFor mode s.powerLimit
  let p := s.pow
  { s with pow := { p with trans := some { mode, compute := t.1, hbm := t.2.1, fabric := t.2.2 },
                           bCompute := min p.bCompute t.1, bHbm := min p.bHbm t.2.1, bFabric := min p.bFabric t.2.2 } }

/-- The transition ends: the budgets that increase are raised and the mode comes into force; SET_POWER_MODE completes. -/
def State.endTrans (s : State) (t : Trans) : State :=
  let changed := s.pow.mode ≠ t.mode
  let s := { s with pow := { s.pow with trans := none, mode := t.mode, bCompute := t.compute, bHbm := t.hbm, bFabric := t.fabric } }
  let s := if changed then s.capChanged s.views else s
  s.finishAll (fun w => match w with | .power _ => true | _ => false) {}

/-- The mode and its budgets in force at once (R29). -/
def State.forceMode (s : State) (mode : Nat) : State :=
  let t := budgetsFor mode s.powerLimit
  let s := { s with pow := { s.pow with trans := none, mode, bCompute := t.1, bHbm := t.2.1, bFabric := t.2.2 } }
  s.finishAll (fun w => match w with | .power _ => true | _ => false) {}

/-- Power state code (R31, 18 R568). -/
def State.powerCode (s : State) : Nat :=
  if s.pow.trans.isSome then 0x10 else if s.pow.level ≠ 0 then 0x10 + s.pow.level else s.pow.mode

/-- A command refused at a low-power level (18 R569). -/
def lowPowerBar (s : State) (from_ : Nat) : Bool × Ans := conflict (from_ ≤ s.pow.level) (0x10 + s.pow.level)

/-! ## Capping (R24, R25, 18 R576) -/

/-- 25 MHz lower, 25 MHz higher, within the floor and 800 MHz. -/
def clockDown (floor f : Nat) : Nat := if floor + 25 ≤ f then f - 25 else f
def clockUp (f : Nat) : Nat := min 800 (f + 25)

/-- One step of compute capping: clocks of the kind the mode favours least first, then matrix issue. -/
def Power.capDown (p : Power) (floor : Nat) : Power :=
  let pf := clockDown floor p.prefillMhz
  let df := clockDown floor p.decodeMhz
  if pf = p.prefillMhz ∧ df = p.decodeMhz then { p with issueCut := min 16 (p.issueCut + 1) }
  else if p.mode = 0 then (if df ≠ p.decodeMhz then { p with decodeMhz := df } else { p with prefillMhz := pf })
  else if p.mode = 1 then (if pf ≠ p.prefillMhz then { p with prefillMhz := pf } else { p with decodeMhz := df })
  else { p with prefillMhz := pf, decodeMhz := df }

/-- One step of restoration, in the opposite order. -/
def Power.capUp (p : Power) : Power :=
  if p.issueCut ≠ 0 then { p with issueCut := p.issueCut - 1 }
  else if p.mode = 0 then
    (if p.prefillMhz ≠ 800 then { p with prefillMhz := clockUp p.prefillMhz } else { p with decodeMhz := clockUp p.decodeMhz })
  else if p.mode = 1 then
    (if p.decodeMhz ≠ 800 then { p with decodeMhz := clockUp p.decodeMhz } else { p with prefillMhz := clockUp p.prefillMhz })
  else { p with prefillMhz := clockUp p.prefillMhz, decodeMhz := clockUp p.decodeMhz }

/-- Capping for a window's measurements. -/
def Power.cap (p : Power) (floor : Nat) (m : PowerMeas) : Power :=
  let p := if p.bCompute < m.compute then p.capDown floor else if m.compute < p.bCompute then p.capUp else p
  let p := if p.bHbm < m.hbm then { p with hbmPaced := true } else if m.hbm < p.bHbm then { p with hbmPaced := false } else p
  if p.bFabric < m.fabric then { p with fabricPace := min 3 (p.fabricPace + 1) }
  else if m.fabric < p.bFabric then { p with fabricPace := p.fabricPace - 1 }
  else p

/-- Most throttling steps of a die: to the clock floor and 16 issue steps on a compute die, 3 pacing steps on a fabric die. -/
def maxSteps (floor die : Nat) : Nat := if die < 8 then (800 - floor) / 25 + 16 else 3

/-- A die's temperature read: throttling begins at 100 °C, ends below 97 °C, and moves one step a window; control and match dies are not
throttled. -/
def State.dieReading (s : State) (die t : Nat) : State :=
  let s := { s with pow := { s.pow with dieTemp := Tab.put 0 s.pow.dieTemp die t } }
  if 12 ≤ die then s
  else
    let was := s.pow.throttled.contains die
    let now : Bool := if was then 97 ≤ t else 100 ≤ t
    let s := { s with pow := { s.pow with throttled := if now then NSet.add s.pow.throttled die else NSet.del s.pow.throttled die } }
    let s := if was == now then s
      else s.postEvent 0x0101 0 (pack [(4, die), (1, b2n now), (3, 0), (8, t)]) 0
    let n := Tab.getD 0 s.pow.dieSteps die
    let n := if now then min (maxSteps (s.kv kClockFloor) die) (n + 1) else if t < 97 then n - 1 else n
    { s with pow := { s.pow with dieSteps := Tab.put 0 s.pow.dieSteps die n } }

/-- A stack's temperature read: paced from 100 °C until below 95 °C. -/
def State.stackReading (s : State) (h t : Nat) : State :=
  let was := s.pow.stackPaced.contains h
  let now : Bool := if was then 95 ≤ t else 100 ≤ t
  let s := { s with pow := { s.pow with stackTemp := Tab.put 0 s.pow.stackTemp h t,
                                        stackPaced := if now then NSet.add s.pow.stackPaced h else NSet.del s.pow.stackPaced h } }
  if was == now then s else s.postEvent 0x0101 0 (pack [(4, 15), (1, b2n now), (3, 0), (8, t), (5, h)]) 0

/-- A die at 110 °C: THERMTRIP_N low and the device stops (18 R578). -/
def State.overtemp (s : State) : State :=
  let s := s.fatalStop sTimeout
  { s with board := { s.board with thermtripN := true } }

/-- A transition's progress over a window: it ends once what was lowered has measured within its budget, and at the latest in the third
window. -/
def State.transWindow (s : State) (m : PowerMeas) : State :=
  match s.pow.trans with
  | some t =>
    if (m.compute ≤ s.pow.bCompute ∧ m.hbm ≤ s.pow.bHbm ∧ m.fabric ≤ s.pow.bFabric) ∨ 3 ≤ t.windows + 1 then s.endTrans t
    else { s with pow := { s.pow with trans := some { t with windows := t.windows + 1 } } }
  | none =>
    if s.kset kPkgLimit ≠ s.kv kPkgLimit ∨ budgetsFor s.pow.mode s.powerLimit ≠ (s.pow.bCompute, s.pow.bHbm, s.pow.bFabric) then
      (s.adopt kPkgLimit).startTrans s.pow.mode
    else s

/-- The end of a power window. -/
def State.windowEnd (s : State) (m : PowerMeas) : State :=
  let s := (s.transWindow m).adopt kClockFloor
  let s := { s with pow := s.pow.cap (s.kv kClockFloor) m }
  let s := (m.dieTemp.zip (List.range 16)).foldl (fun s x => s.dieReading x.2 x.1) s
  let s := (m.stackTemp.zip (List.range 24)).foldl (fun s x => s.stackReading x.2 x.1) s
  let s := ({ s with pow := { s.pow with windowAt := s.now } }).adopt kPowerWindow
  if m.dieTemp.any (110 ≤ ·) then s.overtemp else s

/-- A power window ends once it has lasted `power_window_us`. -/
def execPowerWindow (m : PowerMeas) (s : State) : Res :=
  if s.runs && s.pow.windowAt + us (s.kv kPowerWindow) ≤ s.now then .next (s.windowEnd m) else .next s

def execDieOvertempTrip (_die temp : Nat) (s : State) : Res := if s.runs && 110 ≤ temp then .next s.overtemp else .next s

def execProchotAssert (s : State) : Res :=
  if s.runs && !s.pow.prochot then .next { s with pow := { s.pow with prochot := true, prochotAt := s.now } } else .next s

def execProchotDeassert (s : State) : Res := if s.runs then .next { s with pow := { s.pow with prochot := false } } else .next s

/-! ## Rails (18 R561 to R565) -/

/-- Nominal millivolts and tolerance in tenths of a percent of a fixed rail, in the row order of R561. -/
def railFixed : Nat → Option (Nat × Nat)
  | 2 => some (750, 20) | 3 => some (1200, 20) | 4 => some (750, 30) | 5 => some (750, 30) | 6 => some (1050, 30)
  | 7 => some (750, 30) | 8 => some (400, 30) | 9 => some (1800, 50) | _ => none

/-- A sense reading is within the rail's tolerance. -/
def State.railOk (s : State) (r v : Nat) : Bool :=
  match railFixed r with
  | some (n, t) => n * (1000 - t) ≤ v * 1000 && v * 1000 ≤ n * (1000 + t)
  | none => let n := if r = 0 then s.board.vddCd else s.board.vddFd; n ≤ v + 15 && v ≤ n + 15

/-- A rail fault: logged, posted, counted, and the device stops with FATAL_N low (R565). -/
def State.railFault (s : State) (r status sense : Nat) : State :=
  ((s.postEvent 0x0102 0 (pack [(4, r), (12, 0), (16, status)]) sense).bump kRailFaults).fatalStop sCoreFault

/-- A rail's output read: a reading outside its tolerance for 1 ms is a fault. -/
def execPmbusPoll (rail vout iout : Nat) (s : State) : Res :=
  if !s.runs then .next s
  else
    let b := { s.board with vout := Tab.put 0 s.board.vout rail vout, iout := Tab.put 0 s.board.iout rail iout }
    if s.railOk rail vout then .next { s with board := { b with railBad := Tab.erase b.railBad rail } }
    else match Tab.find? b.railBad rail with
      | none => .next { s with board := { b with railBad := Tab.set b.railBad rail s.now } }
      | some t => if t + ms 1 ≤ s.now then .next (({ s with board := b }).railFault rail 0 vout) else .next { s with board := b }

/-- Over-voltage (bit 5), over-current (bit 4) or an output voltage fault (bit 15) in STATUS_WORD (PRESUMED, log entry 17). -/
def statusFault (w : BitVec 16) : Bool := w.getLsbD 4 || w.getLsbD 5 || w.getLsbD 15

/-- STATUS_WORD read from every regulator: the first that reports a fault stops the device. -/
def execPmbAlert (status : List (BitVec 16)) (sense : List Nat) (s : State) : Res :=
  if !s.runs then .next s
  else match (status.zip (List.range 10)).find? fun x => statusFault x.1 with
    | some (w, r) => .next (s.railFault r w.toNat (sense.getD r 0))
    | none => .next s

/-- One 5 mV step towards the lowest voltage that keeps every margin, within a range. -/
def loopStep (lo hi need now : Nat) : Nat :=
  let t := min hi (max lo (ceilDiv need 5 * 5))
  if now < t then min t (now + 5) else if t < now then max t (now - 5) else now

/-- A report of the timing monitors: the adaptive loop steps VDD_CD and VDD_FD, at most once in 100 µs (R564). -/
def execTimingMonitorReport (cdNeed fdNeed : Nat) (s : State) : Res :=
  let ok : Bool := match s.board.voutAt with | some t => t + us 100 ≤ s.now | none => true
  if !(s.runs && ok) then .next s
  else
    let cd := loopStep 650 850 cdNeed s.board.vddCd
    let fd := loopStep 700 800 fdNeed s.board.vddFd
    let at_ := if cd = s.board.vddCd ∧ fd = s.board.vddFd then s.board.voutAt else some s.now
    .next { s with board := { s.board with vddCd := cd, vddFd := fd, voutAt := at_ } }

/-! ## SET_POWER_MODE (R31, R32) -/

def rowSetPowerMode : CmdRow :=
  { opcode := 0x0101, resv := [(383, 8)],
    check := fun p s =>
      firstFail [badFld (p.f 7 0 > 3 || (s.compo.roleKnown && !bitAt (s.dev 83 80) (p.f 7 0))),
        conflict (!s.compo.roleKnown || s.pow.trans.isSome || s.pow.level != 0) s.powerCode],
    act := fun p _ s =>
      if p.f 7 0 = s.pow.mode then .done { status := sOkAlready } s
      else .wait (.power (p.f 7 0)) true none (s.startTrans (p.f 7 0)) }

def execSetPowerMode (p : Pkt) (s : State) : Res := .next (hostCommand rowSetPowerMode p s)

/-! ## GET_CAPABILITIES (R38) -/

def rowGetCapabilities : CmdRow :=
  { opcode := 0x0102, resv := [(15, 12), (63, 17), (383, 160)],
    check := fun p s =>
      firstFail [badLen (outside (p.f 159 128) 512 4096),
        badFld (misaligned (p.f 127 64) 64 || (!p.b 16 && !s.jobHere (p.f 11 0))),
        conflict (!s.compo.roleKnown) s.compo.role],
    act := fun p _ s => .done { wr := [(p.f 127 64, s.capView (if p.b 16 then none else some (p.f 11 0)))] } s }

def execGetCapabilities (p : Pkt) (s : State) : Res := .next (hostCommand rowGetCapabilities p s)

/-! ## SAMPLE_COUNTERS (R16, R17) -/

/-- Counter of an island. -/
def State.island (s : State) (i : Nat) : Nat := if i = 100 then s.now else Tab.getD 0 s.islands i

/-- One record of the result. -/
def State.islandRec (s : State) (i : Nat) : List Byte :=
  toLE 16 (pack [(16, i), (1, b2n (s.isFenced (islandDie i))), (47, 0), (64, s.island i)])

/-- The result block: both control-die readings are the same instant here, so `window_ns` is 0. -/
def State.islandBlock (s : State) (is : List Nat) : List Byte :=
  toLE 32 (pack [(64, s.now), (64, s.now), (16, is.length), (16, 0), (96, 0)]) ++ is.flatMap s.islandRec

def rowSampleCounters : CmdRow :=
  { opcode := 0x0103, resv := [(127, 104), (383, 224)],
    check := fun p _ =>
      firstFail [badLen (outside (p.f 223 192) 32 2048 || p.f 223 192 < 32 + 16 * popCount 104 p.v), badFld (misaligned (p.f 191 128) 64)],
    act := fun p _ s => .done { wr := [(p.f 191 128, s.islandBlock (bitsSet 104 p.v))] } s }

def execSampleCounters (p : Pkt) (s : State) : Res := .next (hostCommand rowSampleCounters p s)

/-! ## ENTER_LOW_POWER (18 R568 to R570) -/

/-- The level asked for may be entered from the present one. -/
def State.levelLegal (s : State) (l : Nat) : Bool :=
  match l with
  | 0 => s.pow.level < 3
  | 1 => s.pow.level < 3 && !s.pcs.any (·.2.live)
  | 2 => s.pow.level == 1 && !s.pcs.any (·.2.live) && !s.ctxs.any (fun c => !c.2.st.over) && !s.net.sess.any (·.2.st != .free)
  | _ => s.pow.level < 3 && (s.rcv.modSt == .safe || s.ctr kFabricBoots == 0)

/-- A level comes into force: at OFF_READY every ACTIVE drive is sent a Flush (R570); the return to RUN applies a role default mode kept
for it. -/
def State.setLevel (s : State) (l : Nat) : State :=
  let s := { s with pow := { s.pow with level := l } }
  let s := if l = 3 then
      ((List.range 8).filter fun d => (s.drive d).st == .active).foldl (fun s d => s.issueTier d 0 0 .flushOff)
        { s with board := { s.board with offReady := true } }
    else s
  match s.pow.pendMode with
  | some m => if l = 0 then ({ s with pow := { s.pow with pendMode := none } }).forceMode m else s
  | none => s

def rowEnterLowPower : CmdRow :=
  { opcode := 0x0F04, resv := [(383, 2)],
    check := fun p s =>
      let l := p.f 1 0
      firstFail [badHandle p, conflict s.pow.trans.isSome 0x10,
        conflict (l != s.pow.level && !s.levelLegal l) (if l = 3 ∧ s.pow.level < 3 then s.rcv.modSt.code else s.powerCode)],
    act := fun p _ s =>
      let l := p.f 1 0
      if l = s.pow.level then .done { status := sOkAlready } s
      else if (s.pow.level = 2 ∧ l < 2) ∨ (l = 3 ∧ s.idn.flashBusy) then .wait (.lowPower l) true none s
      else .done {} (s.setLevel l) }

def execEnterLowPower (p : Pkt) (s : State) : Res := .next (hostCommand rowEnterLowPower p s)

/-- The level a waiting ENTER_LOW_POWER asked for. -/
def State.levelWait (s : State) : Option (Inflight × Nat) :=
  s.inflight.findSome? fun f => match f.wait with | .lowPower l => some (f, l) | _ => none

/-- The stacks have left self-refresh: the level asked for is in force and the command completes (R569). -/
def execSelfRefreshExit (s : State) : Res :=
  match s.levelWait with
  | some (f, l) => if s.runs && s.pow.level == 2 && l < 2 then .next ((s.setLevel l).finish f {}) else .next s
  | none => .next s

end Sys2Proof.Machine
end

