-- ==== Sys2Proof/Machine/Tier.lean ====
section
/-! DEFINITION. Memory tiers: drives, drive operations, the tier cache, demotion and recall, grants, revocations, drains, scrubs and quotas
(11 R341 to R371, 17 R550). -/

namespace Sys2Proof.Machine

/-- Tier window offset of T2 extent `e` (2^25 extents a bay; R346), its bay, and bytes of a sector (R349). -/
def t2Off (e : Nat) : Nat := e * extBytes
def t2Bay (e : Nat) : Nat := e / 2 ^ 25
abbrev sectorBytes := 65536

/-! ## Drive operations (R352) -/

/-- The operation of a number removed, or given another attempt. -/
def State.dropTier (s : State) (id : Nat) : State := { s with tierOps := s.tierOps.filter (·.id != id) }
def State.retryTier (s : State) (o : TierOp) : State :=
  { s with tierOps := s.tierOps.map fun x => if x.id == o.id then { x with left := x.left - 1, due := s.now + ms (s.kv kTierTimeout) } else x }

/-- Operations of a purpose. -/
def State.tierOpsFor (s : State) (f : TierFor → Bool) : List TierOp := s.tierOps.filter fun o => f o.why
def State.dropTiers (s : State) (f : TierFor → Bool) : State := { s with tierOps := s.tierOps.filter fun o => !(f o.why) }

/-- A purpose that serves the demotion, the recall, the fill named. -/
def TierFor.demotes (c : Nat) : TierFor → Bool
  | .demote x _ => x == c | .flushDemote x => x == c | _ => false
def TierFor.recalls (c : Nat) : TierFor → Bool
  | .recall x _ => x == c | _ => false
def TierFor.fills (f : Nat) : TierFor → Bool
  | .fill x _ => x == f | .flushFill x => x == f | _ => false

/-! ## The tier cache (R349, R350) -/

/-- Frame that holds a T2 extent. -/
def State.frameOf (s : State) (e : Nat) : Option Frame := s.frames.find? (·.t2 == e + 1)

/-- The sector's read is outstanding: its operation. -/
def State.sectorOp (s : State) (off : Nat) : Option TierOp := s.tierOps.find? fun o => o.why == .sector && o.offset == off

/-- A frame is waiting for a read. -/
def State.frameBusy (s : State) (f : Frame) : Bool := s.tierOps.any fun o => o.why == .sector && o.offset / extBytes + 1 == f.t2

/-- A frame moved to the most recently used place. -/
def State.touchFrame (s : State) (f : Frame) : State := { s with frames := (s.frames.filter (·.ix != f.ix)) ++ [f] }

/-- A frame taken for a T2 extent: one not in use yet, else the least recently used that waits for no read. -/
def State.takeFrame (s : State) (e : Nat) : State :=
  match s.frameOf e with
  | some f => s.touchFrame f
  | none =>
    if s.frames.length < runTotal s.t1Cache then { s with frames := s.frames ++ [{ ix := s.frames.length, t2 := e + 1 }] }
    else match s.frames.find? fun f => !s.frameBusy f with
      | some f => s.touchFrame { f with t2 := e + 1, present := [] }
      | none => s

/-- Frames beyond the reservation are given up, the least recently used first. -/
def State.trimFrames (s : State) : State :=
  let n := runTotal s.t1Cache
  if s.frames.length ≤ n then s
  else { s with frames := (s.frames.drop (s.frames.length - n)).zipIdx.map fun (f, i) => { f with ix := i } }

/-- Sectors of extent `e` from `k` on that readahead adds: the next ones not present and not being read. -/
def State.readahead (s : State) (e : Nat) : Nat → Nat → List Nat
  | 0, _ => []
  | n + 1, k =>
    if 32 ≤ k then []
    else
      let here : Bool := (match s.frameOf e with | some f => f.present.contains k | none => false) ||
        (s.sectorOp (t2Off e + k * sectorBytes)).isSome
      if here then State.readahead s e n (k + 1) else k :: State.readahead s e n (k + 1)

/-- How a read of a tier address is served. -/
inductive TierRead where
  | hit
  /-- Waits for the drive operation of this number. -/
  | wait (op : Nat)
  /-- The extent is UNAVAILABLE. -/
  | fail
  deriving DecidableEq, Repr

/-- A read of the sector at a tier window offset: a hit, or a drive read with readahead (R349, R352). -/
def State.readSector (s : State) (off : Nat) : TierRead × State :=
  let e := off / extBytes
  let k := off % extBytes / sectorBytes
  if (s.ext 2 e).st = .unavailable then (.fail, s)
  else
    let hit : Option Frame := match s.frameOf e with | some f => if f.present.contains k then some f else none | none => none
    match hit with
    | some f => (.hit, (s.touchFrame f).bump kCacheHits)
    | none =>
      let s := s.bump kCacheMisses
      match s.sectorOp (t2Off e + k * sectorBytes) with
      | some o => (.wait o.id, s)
      | none =>
        let s := (s.adopt kReadahead).takeFrame e
        let op := s.tierNext
        let ks := k :: s.readahead e (s.kv kReadahead) (k + 1)
        (.wait op, ks.foldl (fun s k => s.issueTier (t2Bay e) (t2Off e + k * sectorBytes) sectorBytes .sector) s)

/-- A sector has arrived in its frame. -/
def State.sectorIn (s : State) (off : Nat) : State :=
  { s with frames := s.frames.map fun f =>
      if f.t2 == off / extBytes + 1 then { f with present := NSet.add f.present (off % extBytes / sectorBytes) } else f }

/-- TIER_READ_FAULT: image of the reading context or 0, drive, status, sector (R370). -/
def State.tierFault (s : State) (image d status off : Nat) : State :=
  s.postEvent 0x0901 image (pack [(3, d), (5, 0), (16, status)]) off

/-! ## Demotion (R354) -/

/-- The drive after bay `d` in turn, with a FREE extent, for the round robin; `n` bays are tried. -/
def State.nextBay (s : State) : Nat → Nat → Option Nat
  | 0, _ => none
  | n + 1, d => if 0 < s.t2FreeOn (d % 8) then some (d % 8) else State.nextBay s n (d + 1)

/-- T2 extents for the region extents listed, one each, round robin over the drives from bay `d` on; none on a shortfall. -/
def State.spread (s : State) (who : Grantee) : List Nat → Nat → Option (List (Nat × Nat) × State)
  | [], _ => some ([], s)
  | r :: rs, d =>
    match s.nextBay 8 d with
    | none => none
    | some b =>
      let gaps := s.t2Gaps b
      let c := s.choose (runPlaces gaps 1)
      match runPlace 1 gaps c.1 with
      | none => none
      | some e =>
        match State.spread (c.2.takeExts 2 e 1 .granted who) who rs (b + 1) with
        | none => none
        | some (l, s) => some ((r, e) :: l, s)

/-- Region of a context. -/
def State.regionOf (s : State) (i : Nat) : Option Region := Tab.find? s.regions (s.ctx i).region
def State.setRegion (s : State) (r : Region) : State := { s with regions := Tab.set s.regions r.id r }

/-- Region extents that are backed. -/
def State.backed (s : State) (r : Region) : List Nat :=
  (List.range r.count).filter fun k => let x := (s.ext 1 (r.first + k)).st; x == .granted || x == .draining

/-- An abandoned demotion: its T2 extents are scrubbed and uncharged, and the region stays in T1. -/
def State.undoDemotion (s : State) (i : Nat) : State :=
  match s.regionOf i with
  | none => s
  | some r =>
    let s := r.demoted.foldl (fun s d => s.releaseExt 2 d.2) s
    (((s.setRegion { r with demoted := [] }).modCtx i fun c => { c with demoting := false }).dropTiers (TierFor.demotes i)).settleRevokes

/-- DEMOTE_FAILED: counted, and tried again after a further `pause_demote_ms`. -/
def State.demoteFailed (s : State) (i status : Nat) : State :=
  ((s.modCtx i fun c => { c with demoteFrom := s.now }).bump kDemoteFails).postEvent 0x0903 (s.handleFor i) status (s.ctx i).cookie

/-- A demotion starts: T2 extents allocated and charged, the writes issued (R354 steps 1, 2). -/
def State.startDemotion (s : State) (i : Nat) : State :=
  let t := (s.ctx i).tenant
  match s.regionOf i with
  | none => s
  | some r =>
    let ks := s.backed r
    if !s.fits t 2 ks.length then s.demoteFailed i sQuota
    else match s.spread (.region i) ks 0 with
      | none => s.demoteFailed i sNoResource
      | some (l, s) =>
        let s := ((s.charge t 2 l.length).setRegion { r with demoted := l }).modCtx i fun c => { c with demoting := true }
        l.foldl (fun s d => s.issueTier (t2Bay d.2) (t2Off d.2) extBytes (.demote i (r.first + d.1))) s

/-- The latch of a context is mirrored. -/
def State.mirrored (s : State) (i : Nat) : Bool :=
  match s.latchOf (s.handleFor i) with | some k => (s.latch k).mirrored | none => false

/-- The latch of a context is HOME and no handover of it is in progress. -/
def State.plainHome (s : State) (i : Nat) : Bool :=
  match s.latchOf (s.handleFor i) with
  | some k => (s.latch k).st == .home && (s.latch k).openRegion == 0
  | none => false

/-- A PAUSED request is due for demotion (03 R101). -/
def State.demoteDue (s : State) (i : Nat) : Bool :=
  let c := s.ctx i
  c.st == .paused && !c.demoted && !c.demoting && c.region != 0 && !s.mirrored i && s.plainHome i &&
    max c.pausedAt c.demoteFrom + ms (s.kv kPauseDemote) ≤ s.now

/-- The check every 1 ms. -/
def execDemoteCheck (s : State) : Res :=
  if !s.fwUp || s.pow.level ≥ 2 then .next s
  else
    let s := (s.adopt kPauseDemote).adopt kDemoteEnable
    if s.kv kDemoteEnable = 1 then .next ((s.ctxsThat fun _ => true).foldl (fun s i => if s.demoteDue i then s.startDemotion i else s) s)
    else .next s

/-- The writes and Flushes are done: the region is in T2 (R354 step 3). -/
def execDemotionCommit (ctx : Nat) (s : State) : Res :=
  match s.regionOf ctx with
  | none => .next s
  | some r =>
    if s.runs && (s.ctx ctx).demoting && (s.tierOpsFor (TierFor.demotes ctx)).isEmpty then
      let s := (List.range r.count).foldl (fun s k =>
        if (s.ext 1 (r.first + k)).st = .held then s.setExt 1 (r.first + k) {} else s.scrubExt 1 (r.first + k)) s
      let s := s.setRegion { r with hasRun := false }
      .next ((s.modCtx ctx fun c => { c with demoting := false, demoted := true }).bump kDemotions)
    else .next s

/-! ## Recall (R355) -/

/-- A run looked for, and taken HELD with the reads issued once found. -/
def State.seekRun (s : State) (i : Nat) : State :=
  match s.regionOf i with
  | none => s
  | some r =>
    if r.hasRun || !(s.ctx i).recalling then s
    else match s.findRun r.count with
      | (none, s) => s
      | (some e, s) =>
        let s := (s.takeExts 1 e r.count .held (.region i)).setRegion { r with hasRun := true, first := e }
        r.demoted.foldl (fun s d => s.issueTier (t2Bay d.2) (t2Off d.2) extBytes (.recall i (e + d.1))) s

/-- A recall starts; it must be done within `tier_timeout_ms` × (1 + `tier_retries`). -/
def State.startRecall (s : State) (i : Nat) : State :=
  if (s.ctx i).recalling || !(s.ctx i).demoted then s
  else
    let by_ := s.now + ms (s.kv kTierTimeout) * (1 + s.kv kTierRetries)
    (s.modCtx i fun c => { c with recalling := true, recallBy := by_ }).seekRun i

/-- The latch of a context is COMMITTING: PREPARE has been sent. -/
def State.committing (s : State) (i : Nat) : Bool :=
  match s.latchOf (s.handleFor i) with
  | some k => (s.latch k).st == .committing
  | none => false

/-- A PAUSED request with no pause bit left re-enters DECODE, after the recall of a demoted region (03 R101, R115), but for one whose
handover stands after its PREPARE (03 R94); a RESUME that waits completes once that is done. -/
def State.tryDecode (s : State) (i : Nat) : State :=
  let c := s.ctx i
  if c.st ≠ .paused || c.pauseHost || c.pauseSched || c.pauseParked || s.committing i then s
  else if c.demoted then s.startRecall i
  else
    let s := if c.demoting then s.undoDemotion i else s
    (s.enter i .decode).finishAll (fun w => w == .resume i) { r0 := 4 }

/-- The last extent has arrived: the region is back in T1, its T2 extents are released. -/
def execRecallCommit (ctx : Nat) (s : State) : Res :=
  if !s.runs then .next s
  else
    let s := s.seekRun ctx
    match s.regionOf ctx with
    | none => .next s
    | some r =>
      if (s.ctx ctx).recalling && r.hasRun && (s.tierOpsFor (TierFor.recalls ctx)).isEmpty then
        let s := r.demoted.foldl (fun s d => s.releaseExt 2 d.2) s
        let s := (s.setRegion { r with demoted := [] }).settleRevokes
        .next (((s.modCtx ctx fun c => { c with demoted := false, recalling := false }).bump kRecalls).tryDecode ctx)
      else .next s

/-- A request whose recall fails ends; a drive being drained counts it (17 R555). -/
def State.lostRecall (s : State) (i : Nat) : State :=
  let ds : List Nat := match s.regionOf i with | some r => r.demoted.map (fun (d : Nat × Nat) => t2Bay d.2) | none => []
  let s := (List.range 8).foldl (fun s d =>
    let x := s.drive d
    if x.st = .draining && ds.contains d then s.setDrive d { x with ended := x.ended + 1 } else s) s
  s.endReq i sTierFault

/-- A recall that is late ends its request with TIER_FAULT. -/
def execRecallTimeout (ctx : Nat) (s : State) : Res :=
  let c := s.ctx ctx
  if s.runs && c.recalling && c.recallBy ≤ s.now then .next (s.lostRecall ctx) else .next s

/-! ## Fills of GRANT_EXTENT (R348, R363) -/

/-- A fill that fails: its extents on an ACTIVE drive are scrubbed, others stay UNAVAILABLE with no grantee; TIER_FAULT. -/
def State.failFill (s : State) (f : Inflight) (first count status : Nat) : State :=
  let on : Bool := (s.drive (t2Bay first)).st == .active
  let s := s.modExts 2 first count fun _ => if on then { st := .scrubbing } else { st := .unavailable }
  (s.dropTiers (TierFor.fills f.id)).finish f (refuse status)

/-- The grant is recorded after the fill, if the quota still allows it (02 R61). -/
def State.commitFill (s : State) (f : Inflight) (who : Grantee) (tenant first count : Nat) : State :=
  if s.fits tenant 2 count then
    ((s.takeExts 2 first count .granted who).charge tenant 2 count).finish f { r0 := t2Off first, r1 := count }
  else s.failFill f first count sQuota

/-- The fill command of a number. -/
def State.fillOf (s : State) (id : Nat) : Option (Inflight × Grantee × Nat × Nat × Nat) :=
  s.inflight.findSome? fun f => match f.wait with
    | .fill who t first n => if f.id == id then some (f, who, t, first, n) else none
    | _ => none

/-! ## Program and remote readers of a sector -/

/-- Engines that wait for a drive operation are told by the descriptors' chapter; remote READs are answered with the line, or poison
(12 R378). -/
def State.answerWants (s : State) (o : TierOp) (ok : Bool) : State :=
  o.wants.foldl (fun s p =>
    let off := p.offset - tierBase
    s.respond p 4 0 (if ok then Mem.readN s.t2 off 128 else List.replicate 128 0) (!ok) true) s

/-! ## Completion and failure of drive operations -/

/-- Flushes issued once the last write of a fill or demotion is done. -/
def State.flushAfter (s : State) (f : TierFor → Bool) (flush : TierFor) (bays : List Nat) : State :=
  if (s.tierOpsFor f).isEmpty then (NSetOf bays).foldl (fun s d => s.issueTier d 0 0 flush) s else s
where
  /-- The distinct bays, ascending. -/
  NSetOf (l : List Nat) : NSet := l.foldl NSet.add []

/-- A drive operation has succeeded: its data are in place, and what waited for it goes on. Sector waits of engines are settled by the
caller. -/
def State.tierDone (s : State) (o : TierOp) (data : List Byte) : State :=
  let s := s.dropTier o.id
  let got (s : State) : State := if data.length = o.len then { s with t2 := Mem.writeN s.t2 o.offset data } else s
  match o.why with
  | .sector => ((got s).sectorIn o.offset).answerWants o true
  | .move _ => (got s).answerWants o true
  | .fill f src =>
    let s := { s with t2 := Mem.writeN s.t2 o.offset (s.hbmRead (src * extBytes) extBytes) }
    s.flushAfter (TierFor.fills f) (.flushFill f) [o.drive]
  | .flushFill f =>
    match s.fillOf f with
    | some (g, who, t, first, n) => s.commitFill g who t first n
    | none => s
  | .demote c src =>
    let s := { s with t2 := Mem.writeN s.t2 o.offset (s.hbmRead (src * extBytes) extBytes) }
    let bays := match s.regionOf c with | some r => r.demoted.map fun d => t2Bay d.2 | none => []
    s.flushAfter (TierFor.demotes c) (.flushDemote c) bays
  | .flushDemote _ => s
  | .flushOff => s
  | .recall c dst =>
    let s := got s
    (s.hbmWrite (dst * extBytes) (Mem.readN s.t2 o.offset extBytes)).takeExts 1 dst 1 .granted (.region c)

/-- Image of a program context that waits for a drive operation, or 0 (R370). -/
def State.waitImage (s : State) (op : Nat) : Nat :=
  match List.find? (fun e => e.2.core.any fun c => c.engines.any fun g => g.busy.any fun p => p.waits.any fun w => w.tier && w.key == op) s.pcs with
  | some e => e.2.image
  | none => 0

/-- A drive operation has failed for good. -/
def State.tierLost (s : State) (o : TierOp) (status : Nat) : State :=
  let s := s.dropTier o.id
  match o.why with
  | .sector => (s.answerWants o false).tierFault (s.waitImage o.id) o.drive status o.offset
  | .move c => (s.answerWants o false).endReq c sTierFault
  | .fill f _ => match s.fillOf f with | some (g, _, _, first, n) => s.failFill g first n sTierFault | none => s
  | .flushFill f => match s.fillOf f with | some (g, _, _, first, n) => s.failFill g first n sTierFault | none => s
  | .demote c _ => (s.undoDemotion c).demoteFailed c sTierFault
  | .flushDemote c => (s.undoDemotion c).demoteFailed c sTierFault
  | .flushOff => s
  | .recall c _ => s.lostRecall c

/-- A read, whose timeout is a failure at once; writes and Flushes fail by attempts (R348, R352). -/
def TierFor.isRead : TierFor → Bool
  | .sector => true | .move _ => true | .recall _ _ => true | _ => false

/-! ## Drives (R348, 17 R550) -/

/-- A bay changes state; DRIVE_STATE is posted with the extents made UNAVAILABLE. A SERVICE_DRAIN of a drive that fails or goes completes
with TIER_FAULT (DEDUCED, log entry 48). -/
def State.setBay (s : State) (d : Nat) (st : DriveSt) (lost : Nat) : State :=
  let s := (s.setDrive d { s.drive d with st, windowEnd := none }).postEvent 0x0902 0 (pack [(3, d), (5, 0), (3, st.code)]) lost
  if st = .failed ∨ st = .absent then s.finishAll (fun w => w == .drain 1 d) { status := sTierFault, r0 := (s.drive d).ended } else s

/-- T2 extents of a bay in a test. -/
def State.bayExts (s : State) (d : Nat) (p : Ext → Bool) : List Nat := Tab.keysOf s.t2x fun e x => t2Bay e == d && p x

/-- Requests with a demoted extent on a bay. -/
def State.demotedOn (s : State) (d : Nat) : List Nat :=
  s.ctxsThat fun c => c.demoted && !c.released && (match Tab.find? s.regions c.region with
    | some r => r.demoted.any fun x => t2Bay x.2 == d | none => false)

/-- What leaving ACTIVE does to grants, fills and demotions: granted extents become UNAVAILABLE (those of demoted regions in a failure
only, since a drain recalls them), fills and demotions there fail, sector reads fail (R344, R348, R352). -/
def State.bayLeaves (s : State) (d : Nat) (st : DriveSt) : State :=
  let gone := s.bayExts d fun x => (x.st == .granted || x.st == .draining) && (match x.who with | .region _ => st == .failed | _ => true)
  let s := s.setBay d st gone.length
  let s := gone.foldl (fun s e => (s.dropFrames e).setExt 2 e { s.ext 2 e with st := .unavailable }) s
  (s.tierOps.filter fun o => o.drive == d && (match o.why with | .recall _ _ => false | .move _ => false | _ => true)).foldl
    (fun s o => if s.tierOps.any (·.id == o.id) then s.tierLost o sTierFault else s) s

/-- A drive enters DRAINING: demoted regions on it are recalled. -/
def State.drainBay (s : State) (d : Nat) : State :=
  let s := (s.setDrive d { s.drive d with ended := 0 }).bayLeaves d .draining
  (s.demotedOn d).foldl State.startRecall s

/-- A drive enters FAILED: requests with demoted extents on it end. -/
def State.failBay (s : State) (d : Nat) : State :=
  (s.demotedOn d).foldl (fun s i => s.endReq i sTierFault) (s.bayLeaves d .failed)

/-- A drive enters ACTIVE: deallocated, every extent FREE. -/
def State.activateBay (s : State) (d : Nat) : State :=
  let s := (s.bayExts d fun x => x.who != .nobody).foldl (fun s e => s.unchargeExt 2 (s.ext 2 e).who) s
  let s := { s with t2x := s.t2x.filter fun x => t2Bay x.1 != d, t2 := Mem.zero s.t2 (d * 2 ^ 46) (2 ^ 46) }
  let n := min ((s.drive d).capacity / extBytes) (2 ^ 25)
  let s := (s.setDrive d { s.drive d with extents := n, training := false }).setBay d .active 0
  s.finishAll (fun w => w == .drain 1 d) {}

/-- The bay is composed to T2 (16 R517). -/
def State.bayComposed (s : State) (d : Nat) : Bool := s.compo.mapped && bitAt (s.dev 327 320) d

/-- The slot of a bay powered; its drive trains. -/
def State.powerBay (s : State) (d : Nat) : State := s.setDrive d { s.drive d with training := true }

/-- Insertion or removal of a drive (17 R550). -/
def execDrivePresenceChange (d : Nat) (present : Bool) (capacity : Nat) (s : State) : Res :=
  let x := s.drive d
  if !s.board.pwrok then .next (s.setDrive d { x with present, capacity })
  else if !s.runs || x.present == present then .next s
  else if present then
    let s := s.setDrive d { x with present := true, capacity }
    .next (if s.bayComposed d then s.powerBay d else s)
  else
    let s := s.setDrive d { x with present := false, training := false }
    match x.st with
    | .active => .next (s.failBay d)
    | .draining => .next ((s.failBay d).setBay d .absent 0)
    | .safe => .next (s.setBay d .absent 0)
    | .failed => .next (s.setBay d .absent 0)
    | .absent => .next s

/-- Link loss or a drive error. -/
def execDriveFailure (d : Nat) (s : State) : Res :=
  let x := s.drive d
  if s.runs && (x.st == .active || x.st == .draining) then .next (s.failBay d) else .next s

/-- A powered drive has trained and been identified, or lacks a requirement (R345). -/
def execDriveTrained (d : Nat) (ok : Bool) (s : State) : Res :=
  if s.runs && (s.drive d).training then
    if ok then .next (s.activateBay d) else .next ((s.setDrive d { s.drive d with training := false }).setBay d .failed 0)
  else .next s

/-- No recall from the drive remains: it is flushed, loses power and is SAFE. -/
def execDriveDrainComplete (d : Nat) (s : State) : Res :=
  if s.runs && (s.drive d).st == .draining && (s.demotedOn d).isEmpty then
    .next ((s.setBay d .safe 0).finishAll (fun w => w == .drain 1 d) { r0 := (s.drive d).ended })
  else .next s

/-! ## Drains and scrubs (R344, R366, R367) -/

/-- REVOKE_EXTENT that waits for an extent has one more request ended. -/
def State.revokeEnded (s : State) (cmd : Nat) : State :=
  { s with inflight := s.inflight.map fun f =>
      match f.wait with
      | .revoke t a n r e => if f.id + 1 == cmd then { f with wait := .revoke t a n r (e + 1) } else f
      | _ => f }

/-- Request that owns an extent. -/
def Grantee.owner : Grantee → Option Nat
  | .region c => some c
  | .workset c => some c
  | _ => none

/-- Drive reads of a T2 extent outstanding, or a load command that copies an object from a T1 extent. -/
def State.extBusy (s : State) (tier e : Nat) : Bool :=
  (tier == 2 && s.tierOps.any fun o => o.why == .sector && o.offset / extBytes == e) ||
    (tier == 1 && s.inflight.any fun f => match f.wait with
      | .copy _ src size _ _ => src / extBytes ≤ e && e * extBytes < src + size
      | _ => false)

/-- The operations accepted before the revocation are done: the extent is scrubbed. -/
def execExtentDrainEnd (tier ext : Nat) (s : State) : Res :=
  let x := s.ext tier ext
  if s.runs && x.st == .draining && x.who.owner.isNone && !s.extBusy tier ext then .next ((s.releaseExt tier ext).settleRevokes) else .next s

/-- The drain time has run out: outstanding reads get poison, or the owning request ends with EXTENT_REVOKED. -/
def execExtentDrainTimeout (tier ext : Nat) (s : State) : Res :=
  let x := s.ext tier ext
  if s.runs && x.st == .draining && x.drainBy ≤ s.now then
    match x.who.owner with
    | some c => .next (((s.revokeEnded x.cmd).endReq c sExtentRevoked).settleRevokes)
    | none =>
      let ops := s.tierOps.filter fun o => tier == 2 && o.why == .sector && o.offset / extBytes == ext
      let s := ops.foldl (fun s o => s.tierLost o sTimeout) s
      .next ((s.releaseExt tier ext).settleRevokes)
  else .next s

/-- An extent has been zeroed or deallocated: FREE. Recalls that wait for a run look again. -/
def execScrubComplete (tier ext : Nat) (s : State) : Res :=
  if s.runs && (s.ext tier ext).st == .scrubbing then
    let s := s.setExt tier ext {}
    let s := if tier = 2 then { s with t2 := Mem.zero s.t2 (t2Off ext) extBytes }
      else { s with hbm := Mem.zero s.hbm (ext * extBytes) extBytes,
                    fab := { s.fab with hbmPoison := NSet.delRange s.fab.hbmPoison (ext * 16384) 16384 } }
    .next ((s.ctxsThat fun c => c.recalling).foldl State.seekRun s.settleRevokes)
  else .next s

/-! ## GRANT_EXTENT (R362, R363) -/

/-- The grantee the parameters name. -/
def grantee (p : Pkt) : Grantee :=
  if p.f 3 2 = 0 then .host else if p.f 3 2 = 1 then .tenant (p.f 25 16) else .job (p.f 25 16) (p.f 43 32)

/-- The drive for a T2 grant: the one with the most FREE extents among those that hold the run. -/
def State.grantBay (s : State) (n : Nat) : Option Nat :=
  ((List.range 8).filter fun d => 0 < runPlaces (s.t2Gaps d) n).foldl (fun b d =>
    match b with
    | none => some d
    | some c => if s.t2FreeOn c < s.t2FreeOn d then some d else some c) none

/-- The stack hint. -/
def grantHint (p : Pkt) : Option Nat := if p.b 4 then some (p.f 12 8) else none

def checkGrant (p : Pkt) (s : State) : Option Ans :=
  let tier := p.f 1 0
  let g := p.f 3 2
  let n := p.f 63 48
  let src := p.f 127 64
  let fillBad : Bool := tier == 2 && (misaligned src extBytes ||
    !(List.range n).all fun i => let x := s.ext 1 (src / extBytes + i); x.st == .granted && x.who == grantee p)
  let t := p.f 25 16
  firstFail
    [badLen (outside n 1 32768), badLen (tier == 2 && src + n * extBytes > hbmSize),
     badHandle p,
     badFld (tier == 0 || tier == 3 || g == 3 || (g == 0 && tier == 2) || (p.b 4 && tier == 2)),
     badFld ((p.b 4 && p.f 12 8 > 23) || (!p.b 4 && p.f 12 8 != 0) || (g == 0 && t != 0) || (g != 2 && p.f 43 32 != 0) ||
       (tier == 1 && src != 0)),
     badFld (g == 2 && !(s.jobHere (p.f 43 32) && s.jobTenant (p.f 43 32) == t)),
     badFld fillBad,
     conflict (s.rcv.modSt == .draining || s.rcv.modSt == .safe) s.rcv.modSt.code,
     lowPowerBar s 2,
     badQuota (if g = 0 then s.kset kHostT1 < s.hostT1 + n
       else if tier = 1 then !(s.reclaimFor t n).fits t 1 n else !s.fits t 2 n),
     noRes (if tier = 1 then !((if g = 0 then s else s.reclaimFor t n).canRun n) else (s.grantBay n).isNone)]

/-- The grant of T1 extents, or the start of a T2 fill. -/
def actGrant (p : Pkt) (id : Nat) (s : State) : Done :=
  let n := p.f 63 48
  let who := grantee p
  let t := p.f 25 16
  let bound := some (ms (250 + n))
  if p.f 1 0 = 1 then
    let s := if who = .host then s.adopt kHostT1 else s.reclaimFor t n
    match s.findRun n (grantHint p) with
    | (none, s) => .done (refuse sNoResource) s
    | (some e, s) =>
      let s := s.takeExts 1 e n .granted who
      let s := if who = .host then { s with hostT1 := s.hostT1 + n } else s.charge t 1 n
      .done { r0 := e * extBytes, r1 := n } s
  else match s.grantBay n with
    | none => .done (refuse sNoResource) s
    | some d =>
      let c := s.choose (runPlaces (s.t2Gaps d) n)
      match runPlace n (s.t2Gaps d) c.1 with
      | none => .done (refuse sNoResource) s
      | some e =>
        let s := c.2.takeExts 2 e n .filling .nobody
        let src := p.f 127 64 / extBytes
        let s := (List.range n).foldl (fun s i => s.issueTier d (t2Off (e + i)) extBytes (.fill id (src + i))) s
        .wait (.fill who t e n) false bound s

def rowGrantExtent : CmdRow :=
  { opcode := 0x0901, resv := [(7, 5), (15, 13), (31, 26), (47, 44), (383, 128)], check := checkGrant, act := actGrant }

def execGrantExtent (p : Pkt) (s : State) : Res := .next (hostCommand rowGrantExtent p s)

/-! ## REVOKE_EXTENT (R365, R366) -/

/-- Extents of a revocation. -/
def revokeRange (p : Pkt) : List Nat := (List.range (p.f 31 16)).map (p.f 127 64 / extBytes + ·)

/-- States that refuse a revocation. -/
def ExtSt.fixed : ExtSt → Bool
  | .object | .reserved | .cache | .filling | .held => true
  | _ => false

def checkRevoke (p : Pkt) (s : State) : Option Ans :=
  let tier := p.f 1 0
  let n := p.f 31 16
  let off := p.f 127 64
  let top := if tier = 2 then 2 ^ 49 else hbmSize
  let es := revokeRange p
  let first := (es.find? fun e => (s.ext tier e).st.fixed).map fun e => (s.ext tier e).st.code
  firstFail
    [badLen (outside n 1 32768), badLen ((tier == 1 || tier == 2) && off + n * extBytes > top), badHandle p,
     badFld (tier == 0 || tier == 3 || misaligned off extBytes || (tier == 2 && !es.all s.t2Exists)),
     conflict first.isSome (first.getD 0), lowPowerBar s 2]

/-- One extent of a revocation: GRANTED ones drain, UNAVAILABLE ones are released at once. -/
def State.revokeOne (s : State) (tier e id : Nat) : State :=
  let x := s.ext tier e
  match x.st with
  | .granted => (s.setExt tier e { x with st := .draining, drainBy := s.now + ms (s.kv kExtentDrain), cmd := id + 1 }).stopRing tier e
  | .unavailable => s.releaseExt tier e
  | _ => s

def actRevoke (p : Pkt) (id : Nat) (s : State) : Done :=
  let tier := p.f 1 0
  let es := revokeRange p
  let hit := es.filter fun e => (s.ext tier e).st == .granted || ((s.ext tier e).st == .unavailable && (s.ext tier e).who != .nobody)
  if hit.isEmpty then .done { status := sOkAlready } s
  else
    let s' := hit.foldl (fun s e => s.revokeOne tier e id) s
    .wait (.revoke tier (p.f 127 64 / extBytes) (p.f 31 16) hit.length 0) true (some (ms (s.kv kExtentDrain + 250))) s'

def rowRevokeExtent : CmdRow :=
  { opcode := 0x0902, resv := [(15, 2), (63, 32), (383, 128)], check := checkRevoke, act := actRevoke }

def execRevokeExtent (p : Pkt) (s : State) : Res := .next (hostCommand rowRevokeExtent p s)

/-! ## Quotas (R360, R361) -/

/-- Largest limit of a tier. -/
def quotaMax (tier : Nat) : Nat := if tier = 0 then 1536 else if tier = 1 then 1179648 else 268435456

def rowSetQuota : CmdRow :=
  { opcode := 0x0903, resv := [(15, 10), (31, 18), (383, 64)],
    check := fun p _ =>
      firstFail [badLen (p.f 17 16 != 3 && outside (p.f 63 32) 0 (quotaMax (p.f 17 16))), badHandle p, badFld (p.f 17 16 == 3)],
    act := fun p _ s =>
      let t := p.f 9 0
      let tier := p.f 17 16
      let l := p.f 63 32
      let a : Ans := { r0 := s.usageOf t tier, r1 := b2n (l < s.usageOf t tier) }
      if s.quotaOf t tier = l then .done { a with status := sOkAlready } s
      else .done a { s with quota := Tab.put 0 s.quota (t * 4 + tier) l } }

def execSetQuota (p : Pkt) (s : State) : Res := .next (hostCommand rowSetQuota p s)

def rowQueryQuota : CmdRow :=
  { opcode := 0x0904, resv := [(15, 10), (383, 18)],
    check := fun p _ => firstFail [badHandle p, badFld (p.f 17 16 == 3)],
    act := fun p _ s => .done { r0 := s.quotaOf (p.f 9 0) (p.f 17 16), r1 := s.usageOf (p.f 9 0) (p.f 17 16) } s }

def execQueryQuota (p : Pkt) (s : State) : Res := .next (hostCommand rowQueryQuota p s)

end Sys2Proof.Machine
end

