-- ==== Sys2Proof/Machine/Objs.lean ====
section
/-! DEFINITION. Sealed objects: IMAGE, MODEL, DELTA and GRAMMAR: their checks in two passes, their copies and their removal, and the core,
attention and expander statistics (02 R584, 05 R191, R192, 06 R195 to R201, R234, R235, 07 R242 to R245, R263, R264, 08 R266 to R275,
R283 to R292, 09 R304 to R315). -/

namespace Sys2Proof.Machine

/-! ## The second pass (02 R584) -/

/-- Length faults are judged before field faults; `result0` is the lowest offset of a structure that fails. -/
def secondPass (len field : List Nat) : Option Ans :=
  let least (l : List Nat) : Nat := l.foldl min (l.headD 0)
  if !len.isEmpty then some (refuse sBadLength 0 (least len))
  else if !field.isEmpty then some (refuse sBadField 0 (least field))
  else none

/-- The offset of a structure that fails. -/
def faultAt (bad : Bool) (off : Nat) : List Nat := if bad then [off] else []

/-- The digest field at byte `off` equals SHA-384 of the whole with that field zero. -/
def digestOk (b : List Byte) (off : Nat) : Bool :=
  sha384 (b.take off ++ List.replicate 48 0 ++ b.drop (off + 48)) == (b.drop off).take 48

/-! ## IMAGE (06 R195 to R199, R234, R235) -/

/-- Header bits of an image. -/
def imgF (b : List Byte) (hi lo : Nat) : Nat := bfld b hi lo

/-- The programs an image holds: core kind (true decode) and offset of the program table. -/
def imgTables (b : List Byte) : List (Bool × Nat) :=
  (if imgF b 97 97 = 1 then [(false, imgF b 287 256)] else []) ++ (if imgF b 98 98 = 1 then [(true, imgF b 319 288)] else [])

/-- Stream entry of engine `e`: offset of the stream, descriptors. -/
def imgStream (b : List Byte) (table e : Nat) : Nat × Nat :=
  (bytesAt b (table + 16 * e) 4, bytesAt b (table + 16 * e + 4) 3)

/-- Descriptor `i` of a stream. -/
def imgDesc (b : List Byte) (stream i : Nat) : Nat := bytesAt b (stream + 64 * i) 64

/-- Stream entries in use: kind, engine, offset of the entry, offset of the stream, descriptors. -/
def imgStreams (b : List Byte) : List (Bool × Nat × Nat × Nat × Nat) :=
  (imgTables b).flatMap fun t => (List.range 9).map fun e => (t.1, e, t.2 + 16 * e, imgStream b t.2 e)

/-- Sections: start, bytes, offset of the structure that places them. -/
def imgSections (b : List Byte) : List (Nat × Nat × Nat) :=
  let y := imgF b 99 99 = 1
  [(0, 256, 0)] ++ (imgTables b).map (fun t => (t.2, 144, 0)) ++ [(imgF b 351 320, imgF b 383 352, 0)] ++
    (if y then [(imgF b 415 384, 16 * imgF b 431 416, 0), (imgF b 479 448, 16 * imgF b 511 480, 0)] else []) ++
    (imgStreams b).map fun (_, _, p, o, n) => (o, 64 * n, p)

/-- Placers of sections that overlap another. -/
def overlaps : List (Nat × Nat × Nat) → List Nat
  | [] => []
  | a :: l =>
    (l.filter fun c => 0 < a.2.1 && 0 < c.2.1 && a.1 < c.1 + c.2.1 && c.1 < a.1 + a.2.1).flatMap (fun c => [a.2.2, c.2.2]) ++ overlaps l

/-- Length faults of an image of `n` bytes. -/
def imgLenFaults (b : List Byte) (n : Nat) : List Nat :=
  let tables := imgTables b
  faultAt (imgF b 95 64 != n || tables.any (fun t => n < t.2 + 144)) 0 ++
    (if tables.all fun t => t.2 + 144 ≤ n then (imgSections b).flatMap fun (o, l, p) => faultAt (l != 0 && n < o + l) p else [])

/-- The image's header is wrong. -/
def imgHeaderBad (b : List Byte) : Bool :=
  let f := imgF b
  let p := f 97 97 == 1
  let d := f 98 98 == 1
  let y := f 99 99 == 1
  let cores (has : Bool) (lo hi : Nat) : Bool := if has then outside lo 1 48 || outside hi lo 48 else lo != 0 || hi != 0
  f 31 0 != 0x474D4956 || f 47 32 != 1 || f 63 48 != 0x100 || f 95 64 % 64 != 0 || !(p || d) || f 127 100 != 0 ||
    (if f 96 96 = 1 then f 159 128 != 1 else f 159 128 != 0) || cores p (f 167 160) (f 175 168) || cores d (f 183 176) (f 191 184) ||
    20480 < f 207 192 || 12288 < f 223 208 || (if y then f 255 224 == 0 else f 255 224 != 0) || (!p && f 287 256 != 0) ||
    (!d && f 319 288 != 0) || f 287 256 % 64 != 0 || f 319 288 % 64 != 0 || (f 383 352 != 0 && f 351 320 % 64 != 0) || f 383 352 % 64 != 0 ||
    (if y then f 415 384 % 64 != 0 || f 431 416 == 0 || (f 511 480 != 0 && f 479 448 % 64 != 0) || 16777216 < f 511 480
     else f 415 384 != 0 || f 431 416 != 0 || f 479 448 != 0 || f 511 480 != 0) ||
    f 447 432 != 0 || f 2047 896 != 0 || !digestOk b 64

/-- Field faults of the streams: entries, descriptors, LOOP bodies. -/
def imgStreamFaults (b : List Byte) : List Nat :=
  let ymap := imgF b 431 416
  (imgStreams b).flatMap fun (decode, e, p, o, n) =>
    let ds := (List.range n).map (imgDesc b o)
    faultAt (o % 64 != 0 || bytesAt b (p + 7) 9 != 0 || (decode && 5 ≤ e && n != 0)) p ++
      (ds.zipIdx.flatMap fun (d, i) => faultAt (!descOk decode e ymap d) (o + 64 * i)) ++
      ((loopFaults n ds 0 []).map fun i => o + 64 * i)

/-- Core kinds whose program names a cut. -/
def cutKinds (b : List Byte) (cut : Nat) : List Bool :=
  [false, true].filter fun k => (imgStreams b).any fun (decode, _, _, o, n) =>
    decode == k && (List.range n).any fun i => let d := imgDesc b o i; dYield d && dYieldId d == cut

/-- Live range `i`: in a bank, matrix engine, bank, start, length. -/
structure LiveRange where
  acc : Bool
  me : Nat
  bank : Nat
  start : Nat
  len : Nat
  deriving DecidableEq, Repr

def imgRange (b : List Byte) (i : Nat) : LiveRange :=
  let v := bytesAt b (imgF b 479 448 + 16 * i) 16
  { acc := bitAt v 0, me := fld v 3 1, bank := fld v 4 4, start := fld v 63 32, len := fld v 95 64 }

/-- First live range of a cut, and their number. -/
def imgCut (b : List Byte) (cut : Nat) : Nat × Nat :=
  (bytesAt b (imgF b 415 384 + 16 * cut) 4, bytesAt b (imgF b 415 384 + 16 * cut + 4) 2)

/-- A range is legal by itself. -/
def LiveRange.ok (r : LiveRange) : Bool :=
  r.start % 64 == 0 && r.len % 64 == 0 && 0 < r.len &&
    (if r.acc then r.me ≤ 5 && r.start + r.len ≤ 65536 else r.me == 0 && r.bank == 0 && r.start + r.len ≤ 20971520)

/-- A range fits every core kind that names its cut. -/
def LiveRange.fits (r : LiveRange) (kinds : List Bool) : Bool :=
  kinds.all fun d => if r.acc then r.me < engCount d - 3 else r.start + r.len ≤ (if d then 12582912 else 20971520)

/-- A range follows another one of its cut. -/
def LiveRange.after (r q : LiveRange) : Bool :=
  let key (x : LiveRange) : Nat := if x.acc then 1 + x.me * 2 + x.bank else 0
  key q < key r || (key q == key r && q.start + q.len ≤ r.start)

/-- Field faults of the two maps. -/
def imgMapFaults (b : List Byte) : List Nat :=
  if imgF b 99 99 = 0 then []
  else
    let yo := imgF b 415 384
    let lo := imgF b 479 448
    let lc := imgF b 511 480
    ((List.range lc).flatMap fun i =>
      let v := bytesAt b (lo + 16 * i) 16
      faultAt (fld v 31 5 != 0 || fld v 127 96 != 0 || !(imgRange b i).ok) (lo + 16 * i)) ++
    (List.range (imgF b 431 416)).flatMap fun c =>
      let (first, n) := imgCut b c
      if bytesAt b (yo + 16 * c + 6) 10 != 0 || lc < first + n then [yo + 16 * c]
      else (List.range n).flatMap fun i =>
        let r := imgRange b (first + i)
        faultAt (!r.fits (cutKinds b c) || (i != 0 && !r.after (imgRange b (first + i - 1)))) (lo + 16 * (first + i))

def imgCheck (b : List Byte) (n : Nat) : Option Ans :=
  secondPass (imgLenFaults b n)
    (faultAt (imgHeaderBad b) 0 ++ overlaps (imgSections b) ++ imgStreamFaults b ++ imgMapFaults b)

/-! ## MODEL (07 R243) -/

/-- Bytes of an element of a KV type. -/
def kvBytes (t : Nat) : Nat := if t = 2 then 2 else 1

def modelCheck (b : List Byte) (n : Nat) : Option Ans :=
  let f := bfld b
  secondPass (faultAt (f 127 64 != n || n < f 383 320 + f 447 384) 0)
    (faultAt (f 31 0 != 0x4C444D56 || f 47 32 != 1 || f 63 48 != 0x100 || outside (f 136 128) 1 256 || f 143 137 != 0 ||
      outside (f 154 144) 32 1024 || f 154 144 % 32 != 0 || f 159 155 != 0 || 128 < f 167 160 || f 167 160 % 32 != 0 || f 169 168 == 3 ||
      f 175 171 != 0 || f 187 176 != (f 154 144 + f 167 160) * kvBytes (f 169 168) || f 191 188 != 0 || outside (f 200 192) 1 256 ||
      f 207 201 != 0 || outside (f 226 208) 2 262144 || f 231 227 != 0 || outside (f 252 232) 2 1048576 || f 255 253 != 0 ||
      f 287 287 != 0 || outside (f 286 279) 1 254 || 1048576 < f 308 288 || f 319 309 != 0 || f 383 320 < 256 || f 383 320 % 64 != 0 ||
      f 2047 832 != 0 || !digestOk b 56) 0)

/-- Header bits of a loaded model. -/
def State.modelF (s : State) (id hi lo : Nat) : Nat :=
  match Tab.find? s.models id with
  | some m => bfld (s.hbmRead (m.first * extBytes) 256) hi lo
  | none => 0

/-! ## Block records of a DELTA (08 R270 to R274, R282) -/

/-- Raw size of a block of 256 elements of a type. -/
def rawSize (t : Nat) : Nat := 32 * elemBits t + (if isMx t then 8 else 0)

/-- Fields of a record header. -/
def recMode (v : Nat) : Nat := fld v 1 0
def recType (v : Nat) : Nat := fld v 7 4
def recToks (v : Nat) : Nat := fld v 16 8
def recLits (v : Nat) : Nat := fld v 32 24
def recLen (v : Nat) : Nat := fld v 49 40
/-- Bytes a record occupies. -/
def recBytes (v : Nat) : Nat := 8 + ceilDiv (recLen v) 8 * 8

/-- Header fields are legal and agree with one another. -/
def recHeaderOk (v : Nat) : Bool :=
  let t := recType v
  rangesZero v [(3, 2), (23, 17), (39, 33), (63, 50)] && t ≤ 9 &&
    (if recMode v = 0 then recToks v == 0 && recLits v == 0 && recLen v == 0
     else if recMode v = 1 then !outside (recToks v) 1 256 && !outside (recLits v) 1 256 &&
       recLen v == recToks v + ceilDiv (recLits v * elemBits t) 8 && recLen v < rawSize t
     else recMode v == 2 && recToks v == 0 && recLits v == 0 && recLen v == rawSize t)

/-- The runs of an XRUN block: literal or not, elements; none when the block is bad (R273). -/
def xrunRuns (lits : Nat) : List Byte → Nat → Nat → Option (List (Bool × Nat))
  | [], i, l => if i = 256 ∧ l = lits then some [] else none
  | t :: ts, i, l =>
    let n := t.toNat % 128 + 1
    let lit := t.msb
    if 256 < i + n then none
    else if lit && decide (lits < l + n) then none
    else (xrunRuns lits ts (i + n) (if lit then l + n else l)).map ((lit, n) :: ·)

/-- A record passes every check of R282 but that of its type against the MATMUL. -/
def recOk (v : Nat) (payload : List Byte) : Bool :=
  recHeaderOk v && (recMode v != 1 || (xrunRuns (recLits v) (payload.take (recToks v)) 0 0).isSome)

/-- Offsets of the records that fail, and the number of records, of a section of `left` bytes at `off`. -/
def walkRecs (b : List Byte) : Nat → Nat → Nat → List Nat × Nat
  | 0, _, _ => ([], 0)
  | fuel + 1, off, left =>
    if left = 0 then ([], 0)
    else
      let v := bytesAt b off 8
      let n := recBytes v
      if left < n then ([off], 1)
      else
        let r := walkRecs b fuel (off + n) (left - n)
        (faultAt (!recOk v ((b.drop (off + 8)).take (recLen v))) off ++ r.1, r.2 + 1)

/-- Digest of a MODEL, DELTA version or GRAMMAR copy at an extent. -/
def State.objDigest (s : State) (first off : Nat) : List Byte := s.hbmRead (first * extBytes + off) 48
def State.modelDigest (s : State) (id : Nat) : List Byte :=
  match Tab.find? s.models id with | some m => s.objDigest m.first 56 | none => []

def deltaCheck (base : List Byte) (b : List Byte) (n : Nat) : Option Ans :=
  let f := bfld b
  let bo := f 575 512
  let bs := f 639 576
  let io := f 767 704
  let is := f 831 768
  let recs := walkRecs b (bs / 8) bo bs
  secondPass (faultAt (f 127 64 != n || n < bo + bs || (is != 0 && n < io + is)) 0)
    (faultAt (f 31 0 != 0x544C4456 || f 47 32 != 1 || f 63 48 != 0x100 || bo < 256 || bo % 64 != 0 || bs % 8 != 0 || f 703 640 == 0 ||
        (is != 0 && (io % 64 != 0 || io < 256)) || (is == 0 && io != 0) || f 2047 1216 != 0 ||
        (is != 0 && bs != 0 && bo < io + is && io < bo + bs) || !digestOk b 104 || (b.drop 16).take 48 != base ||
        recs.2 != f 703 640) 0 ++ recs.1)

/-! ## GRAMMAR (09 R304 to R308) -/

/-- State record `s`. -/
def grmState (b : List Byte) (s : Nat) : Nat := bytesAt b (bfld b 319 256 + 32 * s) 32

/-- Bytes of a state's mask. -/
def maskBytes (vocab v : Nat) : Nat := if fld v 1 0 = 1 then ceilDiv vocab 8 else if fld v 1 0 = 2 then 4 * fld v 50 32 else 0

/-- Length faults of a state record. -/
def stateLenBad (vocab n v : Nat) : Bool :=
  (if fld v 1 0 = 2 then outside (fld v 50 32) 1 262144 else fld v 50 32 != 0) || 262144 < fld v 146 128 ||
    (maskBytes vocab v != 0 && n < fld v 103 64 + maskBytes vocab v) || (fld v 146 128 != 0 && n < fld v 199 160 + 8 * fld v 146 128)

/-- Field faults of a state record itself; `lo` and `hi` bound the state table. -/
def stateFldBad (states lo hi vocab v : Nat) : Bool :=
  let hits (o l : Nat) : Bool := l != 0 && (o < 256 || (o < hi && lo < o + l))
  fld v 1 0 == 3 || !rangesZero v [(7, 3), (31, 28), (63, 51), (127, 104), (159, 147), (255, 200)] || states ≤ fld v 27 8 ||
    (if fld v 1 0 = 1 then fld v 103 64 % 64 != 0 else if fld v 1 0 = 2 then fld v 103 64 % 4 != 0 else fld v 103 64 != 0) ||
    fld v 199 160 % 8 != 0 || (fld v 146 128 == 0 && fld v 199 160 != 0) || hits (fld v 103 64) (maskBytes vocab v) ||
    hits (fld v 199 160) (8 * fld v 146 128)

/-- Faults of the arrays of a state record. -/
def arrayFaults (b : List Byte) (states vocab v : Nat) : List Nat :=
  let mo := fld v 103 64
  let trn := fld v 199 160
  let entry (i : Nat) : Nat := bytesAt b (mo + 4 * i) 4
  let tran (i : Nat) : Nat := bytesAt b (trn + 8 * i) 8
  (if fld v 1 0 = 2 then (List.range (fld v 50 32)).flatMap fun i =>
      faultAt (vocab ≤ fld (entry i) 17 0 || fld (entry i) 31 18 != 0 || (i != 0 && fld (entry i) 17 0 ≤ fld (entry (i - 1)) 17 0)) (mo + 4 * i)
    else if fld v 1 0 = 1 then
      faultAt (vocab % 8 != 0 && bytesAt b (mo + vocab / 8) 1 / 2 ^ (vocab % 8) != 0) (mo + vocab / 8)
    else []) ++
  (List.range (fld v 146 128)).flatMap fun i =>
    faultAt (vocab ≤ fld (tran i) 17 0 || fld (tran i) 31 18 != 0 || states ≤ fld (tran i) 51 32 || fld (tran i) 63 52 != 0 ||
      (i != 0 && fld (tran i) 17 0 ≤ fld (tran (i - 1)) 17 0)) (trn + 8 * i)

def grammarCheck (b : List Byte) (n : Nat) : Option Ans :=
  let f := bfld b
  let vocab := f 146 128
  let states := f 180 160
  let so := f 319 256
  let placed := so + 32 * states ≤ n
  let rs : List (Nat × Nat) := if placed then (List.range states).map fun i => (so + 32 * i, grmState b i) else []
  secondPass
    (faultAt (f 127 64 != n || !decide placed) 0 ++ rs.flatMap fun (o, v) => faultAt (stateLenBad vocab n v) o)
    (faultAt (f 31 0 != 0x4D524756 || f 47 32 != 1 || f 63 48 != 0x100 || outside vocab 2 262144 || f 159 147 != 0 ||
        outside states 1 1048576 || f 191 181 != 0 || states ≤ f 211 192 || f 255 212 != 0 || so < 256 || so % 64 != 0 || f 2047 704 != 0 ||
        !digestOk b 40) 0 ++
      rs.flatMap fun (o, v) =>
        if stateFldBad states so (so + 32 * states) vocab v then [o] else arrayFaults b states vocab v)

/-! ## Registration -/

/-- The next object ID of a kind; none is reused before a cold boot. -/
def State.objId (s : State) (k : Nat) : Nat := Tab.getD 1 s.nextId k
def State.tookId (s : State) (k : Nat) : State := { s with nextId := Tab.put 1 s.nextId k (s.objId k + 1) }

/-- Resident delta versions. -/
def State.deltaCount (s : State) : Nat := Tab.sum s.deltas fun d => d.vers.length

/-- The second pass of a copy. -/
def State.copyCheck (s : State) (k : ObjKind) (obj : Nat) (b : List Byte) (n : Nat) : Option Ans :=
  match k with
  | .image => imgCheck b n
  | .model => modelCheck b n
  | .grammar => grammarCheck b n
  | .delta => if (Tab.find? s.models obj).isNone then some (refuse sBadField) else deltaCheck (s.modelDigest obj) b n
  | .replace => match Tab.find? s.deltas obj with
    | none => some (refuse sBadField)
    | some d => deltaCheck (s.modelDigest d.model) b n

/-- A DELTA's current version. -/
def Delta.cur (d : Delta) : Option DeltaVer := d.vers.find? (·.ver == d.current)

/-- The image is that of the current version (08 R286). -/
def State.sameDelta (s : State) (k : ObjKind) (obj : Nat) (b : List Byte) : Bool :=
  match k, Tab.find? s.deltas obj with
  | .replace, some d => match d.cur with | some v => s.objDigest v.first 104 == (b.drop 104).take 48 | none => false
  | _, _ => false

/-- The device's limits on objects. -/
def State.objLimit (s : State) (k : ObjKind) (obj : Nat) : Bool :=
  match k with
  | .image => 256 ≤ s.images.length
  | .model => 64 ≤ s.models.length
  | .grammar => 1024 ≤ s.grammars.length
  | .delta => 1024 ≤ s.deltas.length || 4096 ≤ s.deltaCount
  | .replace => match Tab.find? s.deltas obj with
    | some d => 8 ≤ d.vers.length || d.current == 0xFFFFFFFF || 4096 ≤ s.deltaCount
    | none => false

/-- The copy registered. -/
def State.register (s : State) (k : ObjKind) (obj tenant size first : Nat) : Ans × State :=
  match k with
  | .image =>
    let id := s.objId 0
    ({ handle := id, r0 := size }, { s.tookId 0 with images := Tab.set s.images id { id, tenant, size, first } })
  | .model =>
    let id := s.objId 1
    ({ handle := id, r0 := size }, { s.tookId 1 with models := Tab.set s.models id { id, tenant, size, first } })
  | .grammar =>
    let id := s.objId 3
    ({ handle := id, r0 := size }, { s.tookId 3 with grammars := Tab.set s.grammars id { id, tenant, size, first } })
  | .delta =>
    let id := s.objId 2
    ({ handle := id, r0 := size, r1 := 1 },
      { s.tookId 2 with deltas := Tab.set s.deltas id { id, tenant, model := obj, current := 1, vers := [{ ver := 1, size, first }] } })
  | .replace =>
    match Tab.find? s.deltas obj with
    | none => (refuse sBadField, s)
    | some d =>
      let v := d.current + 1
      let s := { s with deltas := Tab.set s.deltas obj { d with current := v, vers := d.vers ++ [(⟨v, size, first⟩ : DeltaVer)] } }
      ({ r0 := v, r1 := d.current }, s.retireDelta obj d.current)

/-- A copy has come to its end: the object's bytes are judged, quota and resources too, and the object is registered. -/
def State.copyDone (s : State) (k : ObjKind) (src size tenant obj : Nat) : Ans × State :=
  let b := s.hbmRead src size
  let n := extsOf size
  match s.copyCheck k obj b size with
  | some a => (a, s)
  | none =>
    if s.sameDelta k obj b then ({ status := sOkAlready }, s)
    else
      let r := s.reclaimFor tenant n
      if !r.fits tenant 1 n then (refuse sQuota, s)
      else if s.objLimit k obj then (refuse sNoResource, s)
      else match r.findRun n with
        | (none, _) => (refuse sNoResource, s)
        | (some e, s) => (((s.takeExts 1 e n .object .nobody).charge tenant 1 n).hbmWrite (e * extBytes) b).register k obj tenant size e

/-! ## The load commands -/

/-- The source lies in the HBM window, in extents granted to the host or the tenant and not DRAINING. -/
def State.sourceOk (s : State) (src size tenant : Nat) : Bool :=
  src % 64 == 0 && src + size ≤ hbmSize &&
    s.rangeExts src size fun x => x.st == .granted && (x.who == .host || x.who == .tenant tenant)

/-- MiB of a size, rounded up. -/
def mibs (n : Nat) : Nat := ceilDiv n 1048576

/-- The first pass of a load command, and its wait for the copy. -/
def loadCheck (p : Pkt) (s : State) (src size tenant lo hi : Nat) (unknown : Bool := false) : Option Ans :=
  firstFail [badLen (outside size lo hi || misaligned size 64), badHandle p, badFld (!s.sourceOk src size tenant || unknown), lowPowerBar s 2]

def rowLoadImage : CmdRow :=
  { opcode := 0x0401, resv := [(383, 106)],
    check := fun p s => loadCheck p s (p.f 63 0) (p.f 95 64) (p.f 105 96) 4096 1073741824,
    act := fun p _ s => .wait (.copy .image (p.f 63 0) (p.f 95 64) (p.f 105 96) 0) false (some (ms (250 + mibs (p.f 95 64)))) s }

def execLoadImage (p : Pkt) (s : State) : Res := .next (hostCommand rowLoadImage p s)

def rowLoadModel : CmdRow :=
  { opcode := 0x0501, resv := [(383, 138)],
    check := fun p s => loadCheck p s (p.f 63 0) (p.f 127 64) (p.f 137 128) 4096 1099511627776,
    act := fun p _ s => .wait (.copy .model (p.f 63 0) (p.f 127 64) (p.f 137 128) 0) false (some (ms 250 + us (250 * mibs (p.f 127 64)))) s }

def execLoadModel (p : Pkt) (s : State) : Res := .next (hostCommand rowLoadModel p s)

def rowLoadDelta : CmdRow :=
  { opcode := 0x0601, resv := [(383, 170)],
    check := fun p s =>
      loadCheck p s (p.f 63 0) (p.f 127 64) (p.f 169 160) 4096 1099511627776 (Tab.find? s.models (p.f 159 128)).isNone,
    act := fun p _ s =>
      .wait (.copy .delta (p.f 63 0) (p.f 127 64) (p.f 169 160) (p.f 159 128)) false (some (ms 250 + us (500 * mibs (p.f 127 64)))) s }

def execLoadDelta (p : Pkt) (s : State) : Res := .next (hostCommand rowLoadDelta p s)

/-- Tenant of a DELTA object. -/
def State.deltaTenant (s : State) (id : Nat) : Nat := match Tab.find? s.deltas id with | some d => d.tenant | none => 0

def rowReplaceDelta : CmdRow :=
  { opcode := 0x0602, resv := [(383, 128)],
    check := fun p s =>
      let size := p.f 127 64
      firstFail [badLen (outside size 4096 1099511627776 || misaligned size 64), badFld (Tab.find? s.deltas p.handle).isNone,
        badFld (!s.sourceOk (p.f 63 0) size (s.deltaTenant p.handle)), lowPowerBar s 2],
    act := fun p _ s =>
      .wait (.copy .replace (p.f 63 0) (p.f 127 64) (s.deltaTenant p.handle) p.handle) false (some (ms 250 + us (500 * mibs (p.f 127 64)))) s }

def execReplaceDelta (p : Pkt) (s : State) : Res := .next (hostCommand rowReplaceDelta p s)

def rowLoadGrammar : CmdRow :=
  { opcode := 0x0701, resv := [(383, 138)],
    check := fun p s => loadCheck p s (p.f 63 0) (p.f 127 64) (p.f 137 128) 4096 17179869184,
    act := fun p _ s => .wait (.copy .grammar (p.f 63 0) (p.f 127 64) (p.f 137 128) 0) false (some (ms (250 + mibs (p.f 127 64)))) s }

def execLoadGrammar (p : Pkt) (s : State) : Res := .next (hostCommand rowLoadGrammar p s)

/-! ## The unload commands (06 R201, 07 R245, 08 R283, R290, 09 R315) -/

/-- An object's state codes. -/
abbrev objLoaded := 0x01
abbrev objInUse := 0x02

/-- Some request holds a reference of a test. -/
def State.reqRef (s : State) (f : Ctx → Bool) : Bool := s.ctxs.any fun c => c.2.st != .free && !c.2.released && f c.2

def State.imageBound (s : State) (id : Nat) : Bool := s.parts.any fun x => x.2.st != .absent && x.2.images.contains id
def State.modelUsed (s : State) (id : Nat) : Bool :=
  s.reqRef (·.model == id) || s.deltas.any (fun d => d.2.model == id) || s.parts.any fun x => x.2.st != .absent && x.2.model == id
def State.deltaUsed (s : State) (id : Nat) : Bool := s.reqRef (·.delta == id)
def State.grammarUsed (s : State) (id : Nat) : Bool := s.reqRef (·.grammar == id)

/-- The checks of an unload command. -/
def unloadCheck (s : State) (known used : Bool) : Option Ans := firstFail [badFld (!known), conflict used objInUse, lowPowerBar s 2]

def rowUnloadImage : CmdRow :=
  { opcode := 0x0402, resv := [(383, 0)],
    check := fun p s => unloadCheck s (Tab.find? s.images p.handle).isSome (s.imageBound p.handle),
    act := fun p _ s =>
      match Tab.find? s.images p.handle with
      | none => .done (refuse sBadField) s
      | some o => .done {} (({ s with images := Tab.erase s.images o.id } : State).releaseObject o.tenant o.first (extsOf o.size)) }

def execUnloadImage (p : Pkt) (s : State) : Res := .next (hostCommand rowUnloadImage p s)

def rowUnloadModel : CmdRow :=
  { opcode := 0x0502, resv := [(383, 0)],
    check := fun p s => unloadCheck s (Tab.find? s.models p.handle).isSome (s.modelUsed p.handle),
    act := fun p _ s =>
      match Tab.find? s.models p.handle with
      | none => .done (refuse sBadField) s
      | some o => .done {} (({ s with models := Tab.erase s.models o.id } : State).releaseObject o.tenant o.first (extsOf o.size)) }

def execUnloadModel (p : Pkt) (s : State) : Res := .next (hostCommand rowUnloadModel p s)

def rowUnloadDelta : CmdRow :=
  { opcode := 0x0603, resv := [(383, 0)],
    check := fun p s => unloadCheck s (Tab.find? s.deltas p.handle).isSome (s.deltaUsed p.handle),
    act := fun p _ s =>
      match Tab.find? s.deltas p.handle with
      | none => .done (refuse sBadField) s
      | some d =>
        let s := { s with deltas := Tab.erase s.deltas d.id }
        .done {} (d.vers.foldl (fun s v => s.releaseObject d.tenant v.first (extsOf v.size)) s) }

def execUnloadDelta (p : Pkt) (s : State) : Res := .next (hostCommand rowUnloadDelta p s)

def rowUnloadGrammar : CmdRow :=
  { opcode := 0x0702, resv := [(383, 0)],
    check := fun p s => unloadCheck s (Tab.find? s.grammars p.handle).isSome (s.grammarUsed p.handle),
    act := fun p _ s =>
      match Tab.find? s.grammars p.handle with
      | none => .done (refuse sBadField) s
      | some o => .done {} (({ s with grammars := Tab.erase s.grammars o.id } : State).releaseObject o.tenant o.first (extsOf o.size)) }

def execUnloadGrammar (p : Pkt) (s : State) : Res := .next (hostCommand rowUnloadGrammar p s)

/-! ## Statistics (05 R191, R192, 07 R263, R264, 08 R291, R292) -/

/-- `n` free values (log entry 8). -/
def State.freeVals (s : State) (n : Nat) : List Nat × State :=
  ((List.range n).map fun i => Config.freeNat (s.free + i), { s with free := s.free + n })

/-- Partition that holds a core. -/
def State.partOfCore (s : State) (decode : Bool) (i : Nat) : Option Nat :=
  Tab.first? s.parts fun _ x => x.st != .absent && bitAt (if decode then x.dMask else x.pMask) i

/-- A core statistics counter. -/
def State.stat (s : State) (core field : Nat) : Nat := Tab.getD 0 s.stats (core * 16 + field)
def State.bumpStat (s : State) (core field n : Nat) : State := { s with stats := Tab.modify 0 s.stats (core * 16 + field) (· + n) }

/-- Fields of the core statistics the model counts. -/
abbrev stLeBytes := 4
abbrev stSeBytes := 5
abbrev stNanScale := 8
abbrev stEccC := 9
abbrev stEccU := 10
abbrev stPoisonedLoads := 11

/-- A core statistics record; its counts of busy and waiting cycles are timing, and free values (log entry 20). -/
def State.coreRec (s : State) (decode : Bool) (i : Nat) (cyc : List Nat) : List Byte :=
  let c := coreIx decode i
  let p := s.partOfCore decode i
  toLE 128 (pack
    [(64, Tab.getD 0 s.islands c), (64, cyc.getD 0 0), (64, cyc.getD 1 0), (64, cyc.getD 2 0), (64, s.stat c stLeBytes),
     (64, s.stat c stSeBytes), (64, cyc.getD 3 0), (64, cyc.getD 4 0), (32, s.stat c stNanScale), (32, s.stat c stEccC),
     (32, s.stat c stEccU), (32, s.stat c stPoisonedLoads), (6, i), (1, b2n decode), (1, b2n (s.isFenced (coreDie i))),
     (4, p.getD 0), (1, b2n p.isSome), (1, b2n (match p with | some k => (s.part k).det | none => false))])

/-- Records of a run of cores, `k` free values for each. -/
def coreRun (f : Nat → List Nat → List Byte) (k : Nat) (free : List Nat) (cores : List Nat) : List Byte :=
  cores.zipIdx.flatMap fun (i, n) => f i ((free.drop (k * n)).take k)

/-- The checks READ_CORE_STATS and READ_EXPANDER_STATS share. -/
def statsCheck (p : Pkt) (lo hi each : Nat) : Option Ans :=
  let n := p.f 21 16
  let len := p.f 159 128
  firstFail [badLen (outside n 1 48 || 48 < p.f 13 8 + n || outside len lo hi || len < each * n), badHandle p,
    badFld (misaligned (p.f 127 64) 64)]

def rowReadCoreStats : CmdRow :=
  { opcode := 0x0404, resv := [(7, 1), (15, 14), (63, 22), (383, 160)],
    check := fun p _ => statsCheck p 128 8192 128,
    act := fun p _ s =>
      let cores := (List.range (p.f 21 16)).map (p.f 13 8 + ·)
      let fr := s.freeVals (5 * cores.length)
      .done { wr := [(p.f 127 64, coreRun (s.coreRec (p.b 0)) 5 fr.1 cores)] } fr.2 }

def execReadCoreStats (p : Pkt) (s : State) : Res := .next (hostCommand rowReadCoreStats p s)

/-- Place of a partition's attention counter block in the firmware reserve. -/
def attnPlace (part : Nat) : Nat := 0x8000 + 64 * part

def rowReadAttnCounters : CmdRow :=
  { opcode := 0x0503, resv := [(383, 96)],
    check := fun p s =>
      firstFail [badLen (outside (p.f 95 64) 1024 4096), badHandle p, badFld (misaligned (p.f 63 0) 64), lowPowerBar s 2],
    act := fun p _ s => .done { wr := [(p.f 63 0, Mem.readN s.fw (attnPlace 0) 1024)] } s }

def execReadAttnCounters (p : Pkt) (s : State) : Res := .next (hostCommand rowReadAttnCounters p s)

/-- An expander statistics counter. -/
def State.expStat (s : State) (core me field : Nat) : Nat := Tab.getD 0 s.expStats ((core * 8 + me) * 16 + field)
def State.bumpExp (s : State) (core me field n : Nat) : State :=
  { s with expStats := Tab.modify 0 s.expStats ((core * 8 + me) * 16 + field) (· + n) }

/-- The records of a core's expanders. -/
def State.expRecs (s : State) (decode : Bool) (i : Nat) (cyc : List Nat) : List Byte :=
  let c := coreIx decode i
  (List.range (meCount decode)).flatMap fun m =>
    toLE 64 (pack
      [(64, s.expStat c m 0), (64, s.expStat c m 1), (64, s.expStat c m 2), (64, cyc.getD (3 * m) 0), (64, cyc.getD (3 * m + 1) 0),
       (64, cyc.getD (3 * m + 2) 0), (32, s.expStat c m 6), (3, m), (1, 0), (6, i), (1, b2n decode)])

def rowReadExpanderStats : CmdRow :=
  { opcode := 0x0604, resv := [(7, 1), (15, 14), (63, 22), (383, 160)],
    check := fun p _ => statsCheck p 64 32768 (64 * meCount (p.b 0)),
    act := fun p _ s =>
      let cores := (List.range (p.f 21 16)).map (p.f 13 8 + ·)
      let k := 3 * meCount (p.b 0)
      let fr := s.freeVals (k * cores.length)
      .done { wr := [(p.f 127 64, coreRun (s.expRecs (p.b 0)) k fr.1 cores)] } fr.2 }

def execReadExpanderStats (p : Pkt) (s : State) : Res := .next (hostCommand rowReadExpanderStats p s)

end Sys2Proof.Machine
end

