-- ==== Sys2Proof/Machine/Requests.lean ====
section
/-! DEFINITION. Requests from admission on: the record, placement, ADMIT_REQUEST, the commands on a request, deadlines and the retain time
(03 R85 to R89, R98, R99, R110, R112 to R117, 09 R299, 10 R326, R327, 11 R357 to R359). -/

namespace Sys2Proof.Machine

/-! ## The record (R85) -/

/-- The 256 bytes of a context's record. -/
def State.ctxRecord (s : State) (i : Nat) : List Byte :=
  let c := s.ctx i
  let head := pack
    [(32, s.handleFor i), (8, c.st.code), (1, b2n c.be), (1, b2n c.moved), (1, b2n c.demoted), (1, b2n c.firstDone), (1, b2n c.pauseHost),
     (1, b2n c.pauseSched), (1, b2n c.pauseParked), (1, b2n c.firstMiss), (10, c.tenant), (6, 0), (12, c.job), (4, 0), (16, c.endStatus),
     (32, c.model), (32, c.delta), (32, c.deltaVer), (32, c.grammar), (32, c.grammarState), (64, c.uid), (64, c.cookie), (20, c.promptLen),
     (12, 0), (21, c.maxLen), (11, 0), (21, c.position), (11, 0), (21, c.delivered), (11, 0), (20, c.prefixReused), (12, 0),
     (9, c.layersPushed), (7, 0), (14, c.homeNode), (2, 0), (14, c.fwdNode), (2, 0), (4, c.partition), (4, 0), (8, c.outRing),
     (32, c.fwdHandle), (32, c.firstDeadlineUs), (32, c.tokenDeadlineUs), (64, s.ctxAge i), (64, c.tHandoffUs), (64, c.tFirstUs),
     (64, c.tLastUs), (32, c.tokenMisses), (32, c.schedPauses), (64, s.pausedTime i)]
  let samp := pack
    [(64, c.samp.seed.toNat), (32, c.samp.temperature.toNat), (32, c.samp.topP.toNat), (32, c.samp.minP.toNat), (16, c.samp.topK),
     (4, c.samp.stopCount), (12, 0)]
  toLE 136 head ++ toLE 24 samp ++ (List.range 8).flatMap (fun k => toLE 4 (c.samp.stopTokens.getD k 0)) ++
    toLE 64 (pack [(32, c.region), (14, c.destNode)])

/-! ## Placement (10 R326, R327) -/

/-- The serving context of a partition for a core kind. -/
def State.servingOf (s : State) (part : Nat) (decode : Bool) : Option Nat :=
  Tab.first? s.pcs fun id x => id / 8 == part && x.live && x.serving && x.decode == decode

/-- Requests placed on a partition. -/
def State.placedOn (s : State) (part : Nat) : Nat := Tab.countP s.ctxs fun c => c.placed && c.partition == part

/-- The partition a request of a model is placed on for a core kind: among the candidates, the one with the fewest requests. -/
def State.candidate (s : State) (model : Nat) (decode : Bool) : Option Nat :=
  ((List.range 16).filter fun k =>
    (s.part k).st == .active && (s.part k).model == model && model != 0 && (s.servingOf k decode).isSome).foldl
    (fun b k => match b with
      | none => some k
      | some j => if s.placedOn k < s.placedOn j then some k else some j) none

/-- A request placed, if a candidate stands. -/
def State.place (s : State) (i : Nat) (decode : Bool) : State :=
  match s.candidate (s.ctx i).model decode with
  | some k => s.modCtx i fun c => { c with partition := k, placed := true }
  | none => s

/-! ## ADMIT_REQUEST (R87 to R89) -/

/-- Sampling parameters of the extended block. -/
def admitSamp (p : Pkt) : Sampling :=
  { seed := BitVec.ofNat 64 (p.xf 127 64), temperature := BitVec.ofNat 32 (p.xf 159 128), topP := BitVec.ofNat 32 (p.xf 191 160),
    minP := BitVec.ofNat 32 (p.xf 223 192), topK := p.xf 239 224, stopCount := p.xf 243 240,
    stopTokens := (List.range 8).map fun k => p.xf (287 + 32 * k) (256 + 32 * k) }

/-- Entry `k` of the prompt. -/
def promptEntry (p : Pkt) (k : Nat) : Nat := bytesAt (p.data.getD []) (4 * k) 4

/-- Sampling values of 09 R299 that BAD_FIELD refuses. -/
def sampBad (x : Sampling) : Bool :=
  outside x.temperature.toNat 0x3A800000 0x44800000 || outside x.topP.toNat 0x00800000 0x3F800000 ||
    (x.minP.toNat != 0 && outside x.minP.toNat 0x00800000 0x3F800000)

/-- A model's bytes per token-layer, layers, vocabulary, longest sequence. -/
def State.rowBytesOf (s : State) (m : Nat) : Nat := s.modelF m 187 176
def State.layersOf (s : State) (m : Nat) : Nat := s.modelF m 136 128
def State.vocabOf (s : State) (m : Nat) : Nat := s.modelF m 226 208
def State.maxSeqOf (s : State) (m : Nat) : Nat := s.modelF m 252 232

/-- Header bits of a loaded grammar. -/
def State.grammarF (s : State) (id hi lo : Nat) : Nat :=
  match Tab.find? s.grammars id with
  | some g => bfld (s.hbmRead (g.first * extBytes) 256) hi lo
  | none => 0

/-- Extents of a prefill working set (11 R357). -/
def State.workset (s : State) (model promptLen : Nat) : Nat := extsOf ((promptLen - 1) * s.layersOf model * s.rowBytesOf model)

/-- A node mapped in generation or cache role. -/
def State.canHost (s : State) (n : Nat) : Bool :=
  s.mapped n && (if n = s.self then s.compo.role == 1 || s.compo.role == 2 else (s.node n).role == 1 || (s.node n).role == 2)

/-- The fields of step 6 that are wrong. -/
def admitBad (p : Pkt) (s : State) : Bool :=
  let model := p.f 63 32
  let t := p.f 9 0
  let delta := p.f 95 64
  let gram := p.f 127 96
  let x := admitSamp p
  let vocab := s.vocabOf model
  let late (v : Nat) : Bool := if p.b 10 then v != 0 else v == 0
  let badTok (v : Nat) : Bool := fld v 31 18 != 0 || vocab ≤ fld v 17 0
  misaligned (p.xf 63 0) 4 || late (p.f 255 224) || late (p.f 287 256) || (Tab.find? s.models model).isNone ||
    (delta != 0 && (match Tab.find? s.deltas delta with | some d => d.tenant != t || d.model != model | none => true)) ||
    (gram != 0 && (match Tab.find? s.grammars gram with | some g => g.tenant != t || s.grammarF gram 146 128 != vocab | none => true)) ||
    !s.canHost (p.f 205 192) || sampBad x || (x.stopTokens.take x.stopCount).any badTok || (x.stopTokens.drop x.stopCount).any (· != 0) ||
    (List.range (p.f 147 128)).any fun k => badTok (promptEntry p k)

/-- The module refuses (17 R553). -/
def moduleBar (s : State) : Bool × Ans := conflict (s.rcv.modSt == .draining || s.rcv.modSt == .safe) s.rcv.modSt.code

/-- The window of a job's teardown is open (12 R411). -/
def jobBar (j : Nat) (s : State) : Bool × Ans := conflict (s.jobTd j).open_ 0x20

def checkAdmit (p : Pkt) (s : State) : Option Ans :=
  let model := p.f 63 32
  let plen := p.f 147 128
  let most := if (Tab.find? s.models model).isSome then min 1048576 (s.maxSeqOf model) else 1048576
  let n := s.workset model plen
  let r := s.reclaimFor (p.f 9 0) n
  firstFail
    [badLen (outside plen 1 1048575 || outside (p.f 180 160) (plen + 1) most || 8 < p.xf 243 240 || outside (p.xf 239 224) 1 1024),
     badFld p.data.isNone, badHandle p, badFld (admitBad p s), conflict (s.compo.role != 0) s.compo.role, moduleBar s, jobBar (p.f 27 16) s, lowPowerBar s 1,
     badQuota (!r.fits (p.f 9 0) 1 n), noRes (s.freeCtx.isNone || s.takeLatch.isNone || !r.canRun n)]

/-- The new context. -/
def admitCtx (p : Pkt) (s : State) (gen : Nat) : Ctx :=
  let delta := p.f 95 64
  { st := .admitted, gen, be := p.b 10, tenant := p.f 9 0, job := p.f 27 16, model := p.f 63 32, delta,
    deltaVer := (match Tab.find? s.deltas delta with | some d => d.current | none => 0), grammar := p.f 127 96,
    grammarState := s.grammarF (p.f 127 96) 211 192, uid := s.self * 2 ^ 50 + s.ctr kAdmitted % 2 ^ 50, cookie := p.f 383 320,
    promptLen := p.f 147 128, maxLen := p.f 180 160, position := p.f 147 128, homeNode := s.self, outRing := p.f 215 208,
    firstDeadlineUs := p.f 255 224, tokenDeadlineUs := p.f 287 256, ageAt := s.now, samp := admitSamp p, destNode := p.f 205 192,
    tokens := (List.range (p.f 147 128)).map (promptEntry p) }

/-- The working set taken and charged (11 R357, R359). -/
def State.takeWorkset (s : State) (i n : Nat) : Option State :=
  if n = 0 then some s
  else
    let t := (s.ctx i).tenant
    match (s.reclaimFor t n).findRun n with
    | (none, _) => none
    | (some e, s) => some (((s.takeExts 1 e n .granted (.workset i)).charge t 1 n).modCtx i fun c => { c with wsFirst := e, wsCount := n })

/-- A request admitted in context `i` with latch `k` of `t`; `s` is the state without them. -/
def State.admitAt (s t : State) (i k : Nat) (c : Ctx) : Done :=
  match (t.setCtx i c).takeWorkset i (s.workset c.model c.promptLen) with
  | none => .done (refuse sNoResource) s
  | some t =>
    let h := t.handleFor i
    let t := t.setLatch k { region := 0, st := .home, homeNode := s.self, handle := h, stamp := 1, channel := i }
    .done { handle := h, r0 := c.uid } ((t.place i false).bump kAdmitted)

def actAdmit (p : Pkt) (_id : Nat) (s : State) : Done :=
  match s.freeCtx, s.takeLatch with
  | some i, some (k, t) => s.admitAt t i k (admitCtx p s (s.ctx i).gen)
  | _, _ => .done (refuse sNoResource) s

def rowAdmitRequest : CmdRow :=
  { opcode := 0x0201, resv := [(15, 11), (31, 28), (159, 148), (191, 181), (207, 206), (223, 216), (319, 288)], ext := fun _ => 128,
    extOk := fun _ x => bfld x 255 244 == 0 && bfld x 1023 512 == 0, check := checkAdmit, act := actAdmit }

def execAdmitRequest (p : Pkt) (s : State) : Res := .next (hostCommand rowAdmitRequest p s)

/-! ## Commands on a request (R112 to R117) -/

/-- The refusal of a moved context. -/
def movedAns (c : Ctx) : Ans := refuse sConflict 0x07 (c.fwdHandle + c.fwdNode * 2 ^ 32)

/-- The checks a command on a request shares: the handle names a live context, whose request has not moved and that is not a destination yet
to become home; then the command's own. -/
def onRequest (p : Pkt) (s : State) (own : Nat → Ctx → List (Bool × Ans)) : Option Ans :=
  match s.ctxNamed p.handle with
  | none => some (refuse sBadField)
  | some i =>
    let c := s.ctx i
    firstFail ([(c.moved, movedAns c), conflict (c.st == .handoff && c.isDest) c.st.code] ++ own i c)

/-- What CANCEL answers. -/
def State.cancelAns (s : State) (i status : Nat) : Ans := { status, r0 := (s.ctx i).endStatus + (s.ctx i).st.code * 65536 }

/-- A layer of the request is being computed: the work item in progress names it. -/
def State.layerRunning (s : State) (i : Nat) : Bool :=
  s.pcs.any fun x => x.2.live && x.2.items.head?.any fun w => w.kind == 1 && w.seqs.contains i

def actCancel (p : Pkt) (_id : Nat) (s : State) : Done :=
  match s.ctxNamed p.handle with
  | none => .done (refuse sBadField) s
  | some i =>
    let c := s.ctx i
    match c.st with
    | .prefill =>
      if s.layerRunning i then .wait (.cancel i) true none (s.modCtx i fun c => { c with cancelAsked := true })
      else let t := s.endReq i sCancelled; .done (t.cancelAns i sOK) t
    | .draining => .wait (.cancel i) true none s
    | .done => .done (s.cancelAns i sOkAlready) s
    | .ended => .done (s.cancelAns i sOkAlready) s
    | .free => .done (refuse sBadField) s
    | .admitted => let t := s.endReq i sCancelled; .done (t.cancelAns i sOK) t
    | .handoff => let t := s.endReq i sCancelled; .done (t.cancelAns i sOK) t
    | .decode => let t := s.endReq i sCancelled; .done (t.cancelAns i sOK) t
    | .paused => let t := s.endReq i sCancelled; .done (t.cancelAns i sOK) t

def rowCancel : CmdRow := { opcode := 0x0202, resv := [(383, 0)], check := fun p s => onRequest p s fun _ _ => [], act := actCancel }

def execCancel (p : Pkt) (s : State) : Res := .next (hostCommand rowCancel p s)

/-- A request leaves the steps of its partition for PAUSED by PAUSE. -/
def State.pauseNow (s : State) (i : Nat) : State :=
  (((s.modCtx i fun c => { c with pauseHost := true, pauseAsked := false }).enter i .paused).finishAll (fun w => w == .pause i) {})

/-- A step boundary of a partition: PAUSE commands that waited for it take effect, or are refused where the request has left DECODE. -/
def State.applyPauses (s : State) (part : Nat) : State :=
  (s.ctxsThat fun c => c.pauseAsked && c.partition == part).foldl (fun s i =>
    if (s.ctx i).st = .decode then s.pauseNow i
    else (s.modCtx i fun c => { c with pauseAsked := false }).finishAll (fun w => w == .pause i) (refuse sConflict (s.ctx i).st.code)) s

def actPause (p : Pkt) (_id : Nat) (s : State) : Done :=
  match s.ctxNamed p.handle with
  | none => .done (refuse sBadField) s
  | some i =>
    let c := s.ctx i
    if c.st = .paused then
      if c.pauseHost then .done { status := sOkAlready } s else .done {} (s.modCtx i fun c => { c with pauseHost := true })
    else if (s.part c.partition).stepAt.isSome then .wait (.pause i) false none (s.modCtx i fun c => { c with pauseAsked := true })
    else .done {} (s.pauseNow i)

def rowPause : CmdRow :=
  { opcode := 0x0203, resv := [(383, 0)],
    check := fun p s => onRequest p s fun _ c => [conflict (c.st != .decode && c.st != .paused) c.st.code], act := actPause }

def execPause (p : Pkt) (s : State) : Res := .next (hostCommand rowPause p s)

def actResume (p : Pkt) (_id : Nat) (s : State) : Done :=
  match s.ctxNamed p.handle with
  | none => .done (refuse sBadField) s
  | some i =>
    let t := (s.modCtx i fun c => { c with pauseHost := false }).tryDecode i
    if (t.ctx i).recalling && !(t.ctx i).pauseSched && !(t.ctx i).pauseParked then .wait (.resume i) true none t
    else .done { r0 := (t.ctx i).st.code } t

def rowResume : CmdRow :=
  { opcode := 0x0204, resv := [(383, 0)],
    check := fun p s => onRequest p s fun _ c => [conflict (c.st != .paused || !c.pauseHost) c.st.code], act := actResume }

def execResume (p : Pkt) (s : State) : Res := .next (hostCommand rowResume p s)

def rowQueryRequest : CmdRow :=
  { opcode := 0x0205, resv := [(383, 96)],
    check := fun p s =>
      firstFail [badLen (outside (p.f 95 64) 256 4096), badFld (misaligned (p.f 63 0) 64 || (s.ctxNamed p.handle).isNone)],
    act := fun p _ s =>
      match s.ctxNamed p.handle with
      | none => .done (refuse sBadField) s
      | some i => .done { wr := [(p.f 63 0, s.ctxRecord i)] } s }

def execQueryRequest (p : Pkt) (s : State) : Res := .next (hostCommand rowQueryRequest p s)

def rowReleaseContext : CmdRow :=
  { opcode := 0x0206, resv := [(383, 0)],
    check := fun p s =>
      match s.ctxNamed p.handle with
      | none => some (refuse sBadField)
      | some i => firstFail [conflict ((s.ctx i).st != .done && (s.ctx i).st != .ended) (s.ctx i).st.code],
    act := fun p _ s =>
      match s.ctxNamed p.handle with
      | none => .done (refuse sBadField) s
      | some i => .done {} (s.freeCtxAt i) }

def execReleaseContext (p : Pkt) (s : State) : Res := .next (hostCommand rowReleaseContext p s)

/-- A context that has been over for its retain time returns to FREE (R110). -/
def execCtxRetainExpiry (ctx : Nat) (s : State) : Res :=
  let c := s.ctx ctx
  if s.fwUp && (c.st == .done || c.st == .ended) && c.overAt + ms c.retainMs ≤ s.now then .next (s.freeCtxAt ctx) else .next s

/-! ## Deadlines (R98, R99) -/

/-- The deadline in force: the position it is for, and the age at which it passes. -/
def Ctx.deadline (c : Ctx) : Nat × Nat :=
  if c.firstDone then (c.position, c.tLastUs + c.tokenDeadlineUs) else (c.promptLen, c.firstDeadlineUs)

/-- A home that may miss deadlines. -/
def Ctx.timed (c : Ctx) : Bool :=
  !c.be && !(c.st == .handoff && c.isDest) &&
    (c.st == .admitted || c.st == .prefill || c.st == .handoff || c.st == .decode || c.st == .paused)

/-- The deadline in force has passed and is neither written nor recorded. -/
def State.missed (s : State) (i : Nat) : Bool :=
  let c := s.ctx i
  c.timed && c.missPos != c.deadline.1 && c.deadline.2 ≤ s.ctxAge i

/-- A miss recorded, to be written later. -/
def State.recordMiss (s : State) (i : Nat) : State :=
  s.modCtx i fun c =>
    if c.firstDone then { c with missPos := c.position, unwrittenTok := c.unwrittenTok ++ [c.position] }
    else { c with missPos := c.promptLen, unwrittenFirst := true }

/-- A miss entry written to the request's output ring and counted. -/
def State.writeMiss (s : State) (i : Nat) (first : Bool) (pos : Nat) : State :=
  let s := s.modCtx i fun c => if first then { c with firstMiss := true } else { c with tokenMisses := c.tokenMisses + 1 }
  let s := if s.ringGone (s.ctx i).outRing then s else s.bump (if first then kFirstMisses else kTokenMisses)
  s.pushOut i { kind := if first then 3 else 4, position := pos }

/-- Every recorded miss written, and the deadline in force if it has passed. -/
def State.writeMisses (s : State) (i : Nat) : State :=
  let s := if s.missed i then s.recordMiss i else s
  let c := s.ctx i
  let s := s.modCtx i fun c => { c with unwrittenFirst := false, unwrittenTok := [] }
  let s := if c.unwrittenFirst then s.writeMiss i true c.promptLen else s
  c.unwrittenTok.foldl (fun s n => s.writeMiss i false n) s

/-- A deadline passes: its entry is written by a home bound to a ring that has sent no PREPARE, and recorded otherwise. -/
def execDeadlinePass (ctx : Nat) (s : State) : Res :=
  if s.fwUp && s.missed ctx then
    if (s.ctx ctx).bound && !s.committing ctx then .next (s.writeMisses ctx) else .next (s.recordMiss ctx)
  else .next s

end Sys2Proof.Machine
end

