-- ==== Sys2Proof/Machine/Prog.lean ====
section
/-! DEFINITION. Partitions and program contexts: creation and destruction, bindings, launches, endings, and the choice of the context on cores
(05 R178, R183, 06 R201 to R208, R227, R228, R238, 10 R317 to R331, R586). -/

namespace Sys2Proof.Machine

/-! ## Accessors -/

def State.setPart (s : State) (k : Nat) (x : Part) : State := { s with parts := Tab.put {} s.parts k x }
def State.modPart (s : State) (k : Nat) (f : Part → Part) : State := s.setPart k (f (s.part k))
def State.pc (s : State) (id : Nat) : ProgCtx := Tab.getD {} s.pcs id
def State.setPc (s : State) (id : Nat) (x : ProgCtx) : State := { s with pcs := Tab.put {} s.pcs id x }
def State.modPc (s : State) (id : Nat) (f : ProgCtx → ProgCtx) : State := s.setPc id (f (s.pc id))
def State.rot (s : State) (k : Nat) (decode : Bool) : Rot := if decode then (s.part k).dRot else (s.part k).pRot
def State.setRot (s : State) (k : Nat) (decode : Bool) (r : Rot) : State :=
  s.modPart k fun x => if decode then { x with dRot := r } else { x with pRot := r }

/-- Live program contexts of a partition. -/
def State.pcsOf (s : State) (k : Nat) : List Nat := Tab.keysOf s.pcs fun id x => id / 8 == k && x.live

/-! ## Images as the device reads them -/

/-- Header of a loaded image, and its bits. -/
def State.imgHdr (s : State) (id : Nat) : List Byte :=
  match Tab.find? s.images id with | some m => s.hbmRead (m.first * extBytes) 256 | none => []
def State.imgF (s : State) (id hi lo : Nat) : Nat := bfld (s.imgHdr id) hi lo
/-- `n` bytes at an offset of a loaded image. -/
def State.imgNat (s : State) (id off n : Nat) : Nat :=
  match Tab.find? s.images id with | some m => leNat (s.hbmRead (m.first * extBytes + off) n) | none => 0
/-- LOCAL address of the constant segment. -/
def State.constBase (s : State) (id : Nat) : Nat :=
  match Tab.find? s.images id with | some m => m.first * extBytes + s.imgF id 351 320 | none => 0
/-- Program of a core kind present, its least and most cores. -/
def State.imgHas (s : State) (id : Nat) (decode : Bool) : Bool := if decode then s.imgF id 98 98 == 1 else s.imgF id 97 97 == 1
def State.imgMin (s : State) (id : Nat) (decode : Bool) : Nat := if decode then s.imgF id 183 176 else s.imgF id 167 160
def State.imgMax (s : State) (id : Nat) (decode : Bool) : Nat := if decode then s.imgF id 191 184 else s.imgF id 175 168
/-- Stream of an engine: offset in the image, descriptors. -/
def State.stream (s : State) (id : Nat) (decode : Bool) (eng : Nat) : Nat × Nat :=
  let t := if decode then s.imgF id 319 288 else s.imgF id 287 256
  (s.imgNat id (t + 16 * eng) 4, s.imgNat id (t + 16 * eng + 4) 3)
/-- Descriptor `i` of an engine's stream. -/
def State.descAt (s : State) (id : Nat) (decode : Bool) (eng i : Nat) : Nat := s.imgNat id ((s.stream id decode eng).1 + 64 * i) 64

/-- `det_abi_version` (05 R194). -/
abbrev detAbi := 1

/-- The image may run in a partition of the mode. -/
def State.imgDetOk (s : State) (id : Nat) (det : Bool) : Bool := !det || (s.imgF id 96 96 == 1 && s.imgF id 159 128 == detAbi)

/-! ## The effective pre-emption mode (10 R331) -/

def State.effMode (s : State) (k : Nat) : Bool :=
  let x := s.part k
  x.reqYield && x.images.all fun id => s.imgF id 99 99 == 1 && s.imgF id 255 224 ≤ 800 * s.kset kPreemptBound k

/-- The mode recomputed; the views of the job and the device show a change. -/
def State.recompute (s : State) (k : Nat) : State :=
  let y := s.effMode k
  if (s.part k).effYield = y then s
  else (s.modPart k fun x => { x with effYield := y }).capChanged [none, some (s.part k).job]

/-! ## The firmware's structures (06 R205, R208, 07 R252, 09 R298) -/

/-- Places in the firmware reserve, and the LOCAL address of a place. -/
def launchPlace (pc : Nat) : Nat := 0x20000 + 256 * pc
def sampPlace (ctx : Nat) : Nat := 0x40000 + 64 * ctx
def ringPlace (part : Nat) : Nat := 0x600000 + 0x40000 * part
def arenaPlace (part : Nat) : Nat := 0x1000000 + 0x440000 * part
abbrev arenaBytes := 0x440000
def State.fwAddr (s : State) (place : Nat) : Nat := s.idn.fwAt + place

/-- Bytes written into the firmware reserve. -/
def State.fwWrite (s : State) (place : Nat) (bs : List Byte) : State := { s with fw := Mem.writeN s.fw place bs }

/-- The launch record. -/
def State.launchRec (s : State) (id : Nat) : List Byte :=
  let x := s.pc id
  let k := id / 8
  toLE 256 (pack
    ([(64, s.fwAddr (s.capPlace (s.part k).job)), (32, x.image), (7, id), (1, b2n x.decode), (1, b2n x.be), (1, b2n x.serving),
      (1, b2n (s.part k).det), (5, 0), (8, x.cores.length), (8, 0), (64, s.constBase x.image),
      (64, if x.serving then s.fwAddr (ringPlace k) else 0)] ++ x.args.map fun a => (64, a)))

/-- A counter of a context, and the counter raised. -/
def ProgCtx.ctr (x : ProgCtx) (i : Nat) : Nat := x.ctrs.getD i 0
def ProgCtx.raise (x : ProgCtx) (i n : Nat) : ProgCtx := { x with ctrs := x.ctrs.set i ((x.ctr i + n) % 2 ^ 64) }

/-- Every engine of a context has a fresh time of progress. -/
def ProgCtx.touchAll (x : ProgCtx) (now : Nat) : ProgCtx :=
  { x with core := x.core.map fun c => { c with engines := c.engines.map fun e => { e with progress := now } } }

/-- Item `itemCount` written to the work ring, and counter 31 incremented. -/
def State.pushItem (s : State) (id : Nat) (w : WorkItem) (seqList : Nat) : State :=
  let x := s.pc id
  let i := x.itemCount
  let entry := toLE 64 (pack
    [(8, w.kind), (8, 0), (16, w.seqs.length), (32, i), (64, seqList), (9, w.firstLayer), (7, 0), (9, w.layerCount)])
  let s := s.fwWrite (ringPlace (id / 8) + 64 * (i % 4096)) entry
  let units := if w.kind = 1 then w.layerCount else if w.kind = 2 then 1 else 0
  s.setPc id (({ x with items := x.items ++ [{ w with base := x.units }], itemCount := i + 1, units := x.units + units }.raise 31 1).touchAll
    s.now)

/-- STOP posted; the context ends with the status once its engines have halted. -/
def State.postStop (s : State) (id status : Nat) : State :=
  (s.pushItem id { kind := 3 } 0).modPc id fun x => { x with endWith := status + 1, stopAt := s.now }

/-! ## The choice of the context on cores (10 R329, R330) -/

/-- An engine cannot start its next descriptor for a counter wait on one of counters 28 to 31. -/
def State.fwWait (s : State) (x : ProgCtx) (eng : Nat) (e : Engine) : Bool :=
  !e.halted && e.busy.isEmpty &&
    match dCtrWait (s.descAt x.image x.decode eng e.pos) with
    | some (i, v) => 28 ≤ i && x.ctr i < v
    | none => false

/-- Some engine of the context waits so. -/
def State.anyFwWait (s : State) (x : ProgCtx) : Bool := x.core.any fun c => c.engines.zipIdx.any fun (e, i) => s.fwWait x i e

/-- Every engine that has not halted waits so. -/
def State.waiting (s : State) (x : ProgCtx) : Bool := x.core.all fun c => c.engines.zipIdx.all fun (e, i) => e.halted || s.fwWait x i e

/-- Slots in rotation order: from the one after `last` on. -/
def slotOrder (last : Nat) : List Nat := (List.range 8).map fun i => (last + 1 + i) % 8

/-- The context R330 picks for a rotation: slot plus 1; 0 none. -/
def State.pick (s : State) (k : Nat) (decode : Bool) : Nat :=
  let r := s.rot k decode
  let is (i : Nat) (be : Bool) : Bool :=
    let x := s.pc (k * 8 + i)
    x.live && x.decode == decode && x.be == be && i + 1 != r.cur && !s.waiting x
  let lc := (slotOrder r.lastLc).find? fun i => is i false
  let be := (slotOrder r.lastBe).find? fun i => is i true
  let slot (o : Option Nat) : Nat := match o with | some i => i + 1 | none => r.cur
  if r.cur = 0 then (match lc with | some i => i + 1 | none => slot be)
  else
    let x := s.pc (k * 8 + r.cur - 1)
    if s.waiting x then (match lc with | some i => i + 1 | none => slot be)
    else if x.be && lc.isSome then slot lc
    else if r.ended then slot (if x.be then be else lc)
    else r.cur

/-- R330 run: a switch starts, or a new slice where the old one has ended. -/
def State.choosePc (s : State) (k : Nat) (decode : Bool) : State :=
  let r := s.rot k decode
  if (s.part k).st = .absent || r.sw.isSome then s
  else
    let p := s.pick k decode
    if p = r.cur then
      if r.ended then
        let s := s.adopt kSliceUs k
        s.setRot k decode { r with ended := false, sliceAt := s.now, sliceUs := s.kv kSliceUs k }
      else s
    else
      let pre : Bool := r.cur != 0 && (s.pc (k * 8 + r.cur - 1)).be && !(s.pc (k * 8 + p - 1)).be && !s.waiting (s.pc (k * 8 + r.cur - 1))
      let s := s.adopt kPreemptBound k
      s.setRot k decode
        { r with sw := some { out := r.cur, inc := p, at_ := s.now, preempt := pre,
                              phase := if r.cur = 0 then .restoring else if (s.part k).effYield then .asking else .stopping } }

/-! ## Endings (06 R204, R227, 10 R323, R325, R586) -/

/-- DESTROYING ends: nothing is left of the partition but its counter block (10 R323). -/
def State.finishPart (s : State) (k : Nat) : State :=
  let x := s.part k
  if x.st = .destroying && (s.pcsOf k).isEmpty then
    let mib := 20 * popCount 48 x.pMask + 12 * popCount 48 x.dMask
    let s := (s.setPart k {}).uncharge (s.jobTenant x.job) 0 mib
    let s := s.fwWrite (attnPlace k + 16) [0]
    (s.capChanged [none, some x.job]).finishAll (fun w => w == .destroyPart k) {}
  else s

/-- UNBIND_IMAGE commands whose contexts have all ended complete. -/
def State.finishUnbinds (s : State) (k : Nat) : State :=
  s.inflight.foldl (fun s f =>
    match f.wait with
    | .unbind img p =>
      if p = k && !(s.pcsOf k).any fun id => (s.pc id).image == img then s.finish f { r0 := b2n (s.part k).effYield } else s
    | _ => s) s

/-- A context leaves its rotation; a switch that concerned it goes on or is dropped. -/
def Rot.without (r : Rot) (slot : Nat) : Rot :=
  let r := if r.cur = slot + 1 then { r with cur := 0, ended := false } else r
  match r.sw with
  | none => r
  | some w =>
    if w.out = slot + 1 then
      if w.inc = 0 ∨ w.inc = slot + 1 then { r with sw := none } else { r with sw := some { w with out := 0, phase := .restoring } }
    else if w.inc = slot + 1 then
      (match w.phase with
       | .asking => { r with sw := none }
       | .yielding => { r with sw := some { w with inc := 0 } }
       | .stopping => { r with sw := some { w with inc := 0 } }
       | .saving => { r with sw := some { w with inc := 0 } }
       | .restoring => { r with sw := none })
    else r

/-- Request packets of a context that ends: its reads are forgotten; its writes and atomics are out, and complete for no one (12 R394). -/
def State.orphan (s : State) (id : Nat) : State :=
  let mine (t : Txn) : Bool := match t.who with | .engine p _ _ _ => p == id | _ => false
  let s := { s with fab := { s.fab with txns := s.fab.txns.map fun t => if mine t && t.pkt.ptype != 1 then { t with who := .nobody } else t } }
  s.dropTxns mine

/-- A program context ends with a status: PROGRAM_ENDED, its slot free, its rotation chosen anew. -/
def State.endProg (s : State) (id status : Nat) : State :=
  let x := s.pc id
  if !x.live then s
  else
    let k := id / 8
    let s := { s with pcs := Tab.erase s.pcs id }
    let s := s.orphan id
    let s := s.setRot k x.decode ((s.rot k x.decode).without (id % 8))
    let s := s.postEvent 0x0402 x.image (pack [(7, id), (9, 0), (16, status)]) 0
    let s := if x.serving then (s.modPart k fun p => { p with stepAt := none, batch := [] }).applyPauses k else s
    ((s.finishUnbinds k).finishPart k).choosePc k x.decode

/-- The requests a serving context computes: those placed on its partition, in the state its core kind runs. -/
def State.endPlaced (s : State) (id status : Nat) : State :=
  let x := s.pc id
  if x.serving then
    s.endReqs (fun _ c => c.placed && c.partition == id / 8 && c.st == (if x.decode then .decode else .prefill)) status
  else s

/-- A program context is reset: its requests end with CORE_FAULT; PROGRAM_FAULT, then PROGRAM_ENDED (R227). -/
def State.resetProg (s : State) (id rank eng code index ea : Nat) : State :=
  let x := s.pc id
  let s := (s.endPlaced id sCoreFault).bump kProgramFaults
  let s := s.postEvent 0x0403 x.image
    (pack [(7, id), (6, x.cores.getD rank 0), (1, b2n x.decode), (4, eng), (8, code), (6, 0), (32, index)]) ea
  s.endProg id sCoreFault

/-- Every engine of the context has halted: it ends, as its STOP said or with OK (R204). -/
def State.settleHalt (s : State) (id : Nat) : State :=
  let x := s.pc id
  if x.live && x.place == .onCores && x.core.all fun c => c.engines.all (·.halted) then
    s.endProg id (if x.endWith = 0 then sOK else x.endWith - 1)
  else s

/-- A context ended by a partition command: a serving one on cores is posted STOP, any other ends at once. -/
def State.cancelProg (s : State) (id : Nat) : State :=
  let x := s.pc id
  if x.serving && x.place == .onCores then s.postStop id sCancelled else s.endProg id sCancelled

/-! ## CREATE_PARTITION (10 R321, R322) -/

/-- Cores of a partition that are in a mask. -/
def coresOf (mask : Nat) : List Nat := bitsSet 48 mask

def checkCreatePart (p : Pkt) (s : State) : Option Ans :=
  let k := p.f 3 0
  let j := p.f 19 8
  let pm := p.f 111 64
  let dm := p.f 159 112
  let stray (i : Nat) : Bool := !(s.jobSlices j).contains (coreSlice i) || s.isFenced (coreDie i)
  let taken (d : Bool) (i : Nat) : Bool := (s.partOfCore d i).isSome
  let mib := 20 * popCount 48 pm + 12 * popCount 48 dm
  firstFail
    [badHandle p,
     badFld ((pm == 0 && dm == 0) || (coresOf pm).any stray || (coresOf dm).any stray || !s.jobHere j ||
       (p.f 63 32 != 0 && (Tab.find? s.models (p.f 63 32)).isNone) || outside (p.f 175 160) 50 10000 || outside (p.f 191 176) 5 10000),
     conflict ((s.part k).st != .absent) (match (s.part k).st with | .active => 1 | _ => 2), moduleBar s, lowPowerBar s 2,
     badQuota (!s.fits (s.jobTenant j) 0 mib), noRes ((coresOf pm).any (taken false) || (coresOf dm).any (taken true))]

/-- Per-partition keys returned to their defaults, and the per-partition counters to 0. -/
def State.clearPartKeys (s : State) (k : Nat) : State :=
  let gone (key : Nat) : Bool := [kSlackGuard, kSlackHyst, kBeResume, kSliceUs, kPreemptBound, kSwitches, kLcPreempt, kYieldSaves, kFullSaves,
    kSwitchMax].any fun n => key == kpos n k
  { s with keySet := s.keySet.filter fun e => !gone e.1, keyEff := s.keyEff.filter fun e => !gone e.1,
           ctrs := s.ctrs.filter fun e => !gone e.1 }

def actCreatePart (p : Pkt) (_id : Nat) (s : State) : Done :=
  let k := p.f 3 0
  let j := p.f 19 8
  let pm := p.f 111 64
  let dm := p.f 159 112
  let s := (s.clearPartKeys k).setKey kSliceUs k (p.f 175 160) false
  let s := s.setKey kPreemptBound k (p.f 191 176) false
  let s := s.setPart k { st := .active, det := p.b 4, reqYield := p.b 5, effYield := p.b 5, job := j, model := p.f 63 32, pMask := pm, dMask := dm }
  let s := s.charge (s.jobTenant j) 0 (20 * popCount 48 pm + 12 * popCount 48 dm)
  let s := s.fwWrite (attnPlace k) (List.replicate 16 0 ++ [1] ++ List.replicate 47 0)
  .done { r0 := b2n (p.b 5) } (s.capChanged [none, some j])

def rowCreatePartition : CmdRow :=
  { opcode := 0x0801, resv := [(7, 6), (31, 20), (383, 192)], check := checkCreatePart, act := actCreatePart }

def execCreatePartition (p : Pkt) (s : State) : Res := .next (hostCommand rowCreatePartition p s)

/-! ## DESTROY_PARTITION (10 R323) -/

def rowDestroyPartition : CmdRow :=
  { opcode := 0x0802, resv := [(383, 4)],
    check := fun p s =>
      let k := p.f 3 0
      firstFail [badHandle p, conflict ((s.part k).st == .destroying) 2,
        ((s.part k).st == .active && s.placedOn k != 0, refuse sConflict 1 (s.placedOn k)), lowPowerBar s 2],
    act := fun p _ s =>
      let k := p.f 3 0
      if (s.part k).st = .absent then .done { status := sOkAlready } s
      else
        let s := s.modPart k fun x => { x with st := .destroying }
        let s := (s.pcsOf k).foldl State.cancelProg s
        if (s.pcsOf k).isEmpty then .done {} (s.finishPart k) else .wait (.destroyPart k) true none s }

def execDestroyPartition (p : Pkt) (s : State) : Res := .next (hostCommand rowDestroyPartition p s)

/-! ## BIND_IMAGE and UNBIND_IMAGE (10 R324, R325) -/

/-- Partition state code (10 R317). -/
def PartSt.code : PartSt → Nat
  | .absent => 0 | .active => 1 | .destroying => 2

def rowBindImage : CmdRow :=
  { opcode := 0x0803, resv := [(383, 4)],
    check := fun p s =>
      let x := s.part (p.f 3 0)
      firstFail [badFld ((Tab.find? s.images p.handle).isNone || !s.imgDetOk p.handle (x.st != .absent && x.det)),
        conflict (x.st != .active) x.st.code, noRes (!x.images.contains p.handle && 16 ≤ x.images.length)],
    act := fun p _ s =>
      let k := p.f 3 0
      if (s.part k).images.contains p.handle then .done { status := sOkAlready, r0 := b2n (s.part k).effYield } s
      else
        let s := (s.modPart k fun x => { x with images := NSet.add x.images p.handle }).recompute k
        .done { r0 := b2n (s.part k).effYield } s }

def execBindImage (p : Pkt) (s : State) : Res := .next (hostCommand rowBindImage p s)

/-- A serving context of the image runs on the partition and requests are placed there. -/
def State.bindingUsed (s : State) (img k : Nat) : Bool :=
  s.placedOn k != 0 && (s.pcsOf k).any fun id => (s.pc id).serving && (s.pc id).image == img

def rowUnbindImage : CmdRow :=
  { opcode := 0x0804, resv := [(383, 4)],
    check := fun p s =>
      let x := s.part (p.f 3 0)
      firstFail [badFld (Tab.find? s.images p.handle).isNone, conflict (x.st != .active) x.st.code,
        conflict (s.bindingUsed p.handle (p.f 3 0)) objInUse],
    act := fun p _ s =>
      let k := p.f 3 0
      if !(s.part k).images.contains p.handle then .done { status := sOkAlready, r0 := b2n (s.part k).effYield } s
      else
        let s := (s.modPart k fun x => { x with images := NSet.del x.images p.handle }).recompute k
        let ids := (s.pcsOf k).filter fun id => (s.pc id).image == p.handle
        let s := ids.foldl State.cancelProg s
        if (s.pcsOf k).any fun id => (s.pc id).image == p.handle then .wait (.unbind p.handle k) true none s
        else .done { r0 := b2n (s.part k).effYield } s }

def execUnbindImage (p : Pkt) (s : State) : Res := .next (hostCommand rowUnbindImage p s)

/-! ## LAUNCH_PROGRAM (06 R202 to R208) -/

/-- Cores of a kind the partition holds. -/
def Part.kindCores (x : Part) (decode : Bool) : List Nat := coresOf (if decode then x.dMask else x.pMask)

/-- Free slot of a partition. -/
def State.freeSlot (s : State) (k : Nat) : Option Nat := (List.range 8).find? fun i => !(s.pc (k * 8 + i)).live

def checkLaunch (p : Pkt) (s : State) : Option Ans :=
  let k := p.f 3 0
  let d := p.b 4
  let x := s.part k
  let img := p.handle
  firstFail
    [badFld ((Tab.find? s.images img).isNone || x.st == .absent || !s.imgHas img d || !s.imgDetOk img x.det),
     conflict (x.st == .destroying) 2, moduleBar s, jobBar x.job s, lowPowerBar s 1,
     conflict (!x.images.contains img) (if s.imageBound img then objInUse else objLoaded),
     noRes ((s.freeSlot k).isNone || (p.b 6 && (s.pcsOf k).any fun id => (s.pc id).serving) || (x.kindCores d).length < s.imgMin img d)]

/-- One engine as it stands when its context starts. -/
def State.newEngine (s : State) (x : ProgCtx) (id rank eng : Nat) : Engine :=
  { regs := [0, rank, x.cores.length, s.constBase x.image, s.fwAddr (s.capPlace (s.part (id / 8)).job), s.fwAddr (launchPlace id)] ++ x.args,
    halted := (s.stream x.image x.decode eng).2 == 0, clock := List.replicate (engCount x.decode) 0, progress := s.now }

/-- Requests that waited for a candidate are placed, in index order (10 R327). -/
def State.placeWaiting (s : State) : State :=
  (s.ctxsThat fun c => c.st == .admitted && !c.placed).foldl (fun s i => s.place i false) s

def actLaunch (p : Pkt) (_id : Nat) (s : State) : Done :=
  let k := p.f 3 0
  let d := p.b 4
  match s.freeSlot k with
  | none => .done (refuse sNoResource) s
  | some slot =>
    let id := k * 8 + slot
    let cores := ((s.part k).kindCores d).take (s.imgMax p.handle d)
    let x : ProgCtx := { live := true, image := p.handle, decode := d, be := p.b 5, serving := p.b 6, cores,
                         args := (List.range 10).map fun i => p.xf (64 * i + 63) (64 * i), ctrs := List.replicate 32 0 }
    let x := { x with core := (List.range cores.length).map fun r => { engines := (List.range (engCount d)).map (s.newEngine x id r) } }
    let s := s.setPc id x
    let s := s.fwWrite (launchPlace id) (s.launchRec id)
    let s := if p.b 6 && !d then s.placeWaiting else s
    .done { r0 := id } (s.choosePc k d)

def rowLaunchProgram : CmdRow :=
  { opcode := 0x0403, resv := [(383, 7)], ext := fun _ => 128, extOk := fun _ x => bfld x 1023 640 == 0, check := checkLaunch, act := actLaunch }

def execLaunchProgram (p : Pkt) (s : State) : Res := .next (hostCommand rowLaunchProgram p s)

/-! ## No progress (05 R182, 06 R208, 10 R332) -/

/-- An engine of a context on cores has made no progress for the engine queue timeout, or the context has not halted in that time after its
STOP: the context is reset, with fault code 0x09. -/
def execEngineQueueTimeout (e : EngAt) (s : State) : Res :=
  let x := s.pc e.pc
  if !s.runs then .next s
  else match x.cores.zipIdx.find? fun c => c.1 == e.core with
  | none => .next s
  | some (_, rank) =>
    match (x.core.getD rank {}).engines[e.eng]? with
    | none => .next s
    | some g =>
      let s := s.adopt kEngineTimeout
      let late (t : Nat) : Bool := t + us (s.kv kEngineTimeout) ≤ s.now
      let stuck := late g.progress && !s.anyFwWait x
      let deaf := x.endWith != 0 && late x.stopAt
      if x.live && x.place == .onCores && (s.rot (e.pc / 8) x.decode).sw.isNone && !g.halted && (stuck || deaf) then
        .next (s.resetProg e.pc rank e.eng 0x09 g.pos 0)
      else .next s

end Sys2Proof.Machine
end

