-- ==== Sys2Proof/Machine/Jobs.lean ====
section
/-! DEFINITION. Jobs across nodes: the fabric manager, the end of a job's contexts, dead targets and teardown (12 R405 to R411, 13 R440). -/

namespace Sys2Proof.Machine

/-- Nodes the manifest in force composes to a job. -/
def State.jobNodes (s : State) (j : Nat) : List Nat :=
  let b := s.mbody
  (List.range (mDevCount b)).filterMap fun i =>
    if (List.range 16).any fun k => mSliceJob b i k == j then some (mDev b i 77 64) else none

/-- The fabric manager of a job (R407). -/
def State.managerOf (s : State) (j : Nat) : Option Nat :=
  ((s.jobNodes j).filter fun n => n == s.self || !s.dead n).foldl (fun b n => match b with | none => some n | some m => some (min m n)) none

/-- The collective sessions of a test closed, with what they have staged; a run in progress completes with JOB_TORN_DOWN (R440; the status
is DEDUCED, log entry 21). -/
def State.closeSessions (s : State) (p : Nat → Sess → Bool) (status : Nat) : State :=
  let gone := Tab.keysOf s.net.sess fun k x => x.st != .free && p k x
  let cmds := gone.filterMap fun k => match Tab.find? s.net.sess k with | some x => if x.cmd = 0 then none else some (x.cmd - 1) | none => none
  let s := { s with net := { s.net with sess := s.net.sess.filter fun e => !gone.contains e.1 } }
  let s := s.dropTxns fun t => match t.who with
    | .collFwd e k _ => gone.contains (e * 16 + k)
    | .collRead e k _ => gone.contains (e * 16 + k)
    | .collWrite e k => gone.contains (e * 16 + k)
    | _ => false
  cmds.foldl (fun s c => s.finishId c (refuse status)) s

/-- Extents of a job revoked without drain and scrubbed. -/
def State.dropJobExts (s : State) (j : Nat) : State :=
  let mine (x : Ext) : Bool := match x.who with | .job _ k => k == j | _ => false
  let one := Tab.keysOf s.t1x fun _ x => mine x
  let two := Tab.keysOf s.t2x fun _ x => mine x
  let s := one.foldl (fun s e => s.releaseExt 1 e) s
  (two.foldl (fun s e => s.releaseExt 2 e) s).settleRevokes

/-- What a node does when it ends the contexts of a job (R410). -/
def State.endJob (s : State) (j : Nat) : State :=
  let s := s.endReqs (fun _ c => c.job == j) sTornDown
  let s := (Tab.keysOf s.pcs fun id x => x.live && (s.part (id / 8)).job == j).foldl (fun s id => s.endProg id sTornDown) s
  let s := s.dropJobExts j
  let s := { s with fab := { s.fab with rlc := s.fab.rlc.filter fun x => x.2.job != j } }
  s.closeSessions (fun _ x => x.job == j) sTornDown

/-- TEARDOWN of a job's generation carried out here; the window of R411 closes (R408). -/
def State.teardownHere (s : State) (j g cause target reporter : Nat) : State :=
  let x := s.jobTd j
  if x.gen != g then s
  else
    let s := s.setJobTd j { x with gen := (g + 1) % 65536, open_ := true }
    let s := (s.endJob j).bump kTeardowns
    let s := s.postEvent 0x0A01 0 (pack [(12, j), (4, 0), (16, g), (14, reporter)]) (pack [(2, cause), (14, 0), (14, target)])
    s.setJobTd j { gen := (g + 1) % 65536 }

/-- The manager's part on JOB_FAULT: TEARDOWN to every mapped node not DEAD, this one included. -/
def State.manageFault (s : State) (j g cause target reporter : Nat) : State :=
  if (s.jobTd j).gen != g then s
  else
    let s := (Tab.keysOf s.fab.nodes fun n x => n != s.self && (x.live == .alive || x.live == .suspect)).foldl
      (fun s n => s.mgmtTo n (.teardown j g cause target reporter)) s
    s.teardownHere j g cause target reporter

/-- JOB_FAULT sent to the manager, or dealt with where this device is the manager; it is sent again until the teardown (log entry 22). -/
def State.sendReport (s : State) (j : Nat) : State :=
  match (s.jobTd j).report, s.managerOf j with
  | some (g, cause, target), some m =>
    if m = s.self then s.manageFault j g cause target s.self else s.mgmtTo m (.jobFault j g cause target)
  | _, _ => s

/-- This device detects a fault of a job: it ends its contexts at once and reports (R408, R411). -/
def State.detectFault (s : State) (j cause target : Nat) : State :=
  let x := s.jobTd j
  let s := s.setJobTd j { x with open_ := true, detected := x.gen + 1, report := some (x.gen, cause, target) }
  (s.endJob j).sendReport j

/-- A raw access of a job has met a dead target (R405). -/
def State.rawFault (s : State) (j cause target : Nat) : State := (s.bump kRawDead).detectFault j cause target

end Sys2Proof.Machine
end

