-- ==== Sys2Proof/Machine/Access.lean ====
section
/-! DEFINITION. Accesses to this node's HBM and tier windows: who may make them, lines, poison, atomics (06 R213, R214, R229, R230, 07
R249, 09 R298, 11 R351, R352, R364, R366, 12 R373 to R378, R384). -/

namespace Sys2Proof.Machine

/-! ## Who may access what (06 R214, 11 R364) -/

/-- Who makes an access that its home checks: a program context of this node, or a job on another node. -/
inductive Who where
  | prog (pc : Nat)
  | job (j : Nat)
  deriving DecidableEq, Repr

/-- Kinds of access. -/
inductive Kind where
  | rd | wr
  /-- An atomic, with its code: 0 ADD, 1 SWAP, 2 CAS. -/
  | atom (code : Nat)
  deriving DecidableEq, Repr

/-- Job of an access. -/
def State.jobOf (s : State) : Who → Nat
  | .prog id => (s.part (id / 8)).job
  | .job j => j

/-- Range [a, a+len) lies in [b, b+n). -/
def inside (a len b n : Nat) : Bool := b ≤ a && a + len ≤ b + n

/-- A place in the bytes of the sequence entries of the partition's outstanding items that a program may write: `token_out` and
`token_valid`, bytes 76 to 79 of an entry (07 R252). -/
def State.tokenOut (s : State) (id a len : Nat) : Bool :=
  (s.pc id).items.any fun w => (List.range w.seqs.length).any fun i => inside a len (w.place + 128 * i + 76) 4

/-- Access to a place of the firmware reserve by a program: its job's view, its launch record, its work ring and items, its partition's
attention counters (01 R34, 06 R205, R208, 07 R252, R263). -/
def State.fwPermit (s : State) (id a len : Nat) : Kind → Bool
  | .rd =>
    inside a len (s.capPlace (s.part (id / 8)).job) 512 || inside a len (launchPlace id) 256 || inside a len (attnPlace (id / 8)) 64 ||
      ((s.pc id).serving && (inside a len (ringPlace (id / 8)) 0x40000 || inside a len (arenaPlace (id / 8)) arenaBytes))
  | .wr => (s.pc id).serving && s.tokenOut id a len
  | .atom code => code == 0 && inside a len (attnPlace (id / 8)) 16

/-- A request is placed on the partition of a program of this node. -/
def State.ownRequest (s : State) (w : Who) (c : Nat) : Bool :=
  match w with
  | .prog id => (s.ctx c).placed && (s.ctx c).partition == id / 8
  | .job _ => false

/-- The range lies in the constant segment of the program's own image. -/
def State.ownConst (s : State) (w : Who) (a len : Nat) : Bool :=
  match w with
  | .prog id => inside a len (s.constBase (s.pc id).image) (s.imgF (s.pc id).image 383 352)
  | .job _ => false

/-- A T1 extent of a loaded MODEL or DELTA that programs of a job may read (08 R268; MODEL objects DEDUCED, log entry 23). -/
def State.weightsOf (s : State) (w : Who) (e : Nat) : Bool :=
  let t := s.jobTenant (s.jobOf w)
  let bound (m : Nat) : Bool := match w with | .prog id => (s.part (id / 8)).model == m | .job _ => false
  let holds (first size : Nat) : Bool := first ≤ e && e < first + extsOf size
  (s.models.any fun m => holds m.2.first m.2.size && (m.2.tenant == t || bound m.1)) ||
    s.deltas.any fun d => d.2.tenant == t && d.2.vers.any fun v => holds v.first v.size

/-- An access of `len` bytes at an offset of the HBM window, within one line, is permitted. -/
def State.hbmPermit (s : State) (w : Who) (k : Kind) (a len : Nat) : Bool :=
  let x := s.ext 1 (a / extBytes)
  if s.idn.fwAt ≤ a ∧ a < s.idn.fwAt + fwSize then
    (match w with | .prog id => s.fwPermit id (a - s.idn.fwAt) len k | .job _ => false)
  else match x.st, x.who with
    | .granted, .tenant t => t == s.jobTenant (s.jobOf w)
    | .granted, .job _ j => j == s.jobOf w
    | .granted, .region c => s.ownRequest w c
    | .granted, .workset c => s.ownRequest w c
    | .draining, .region c => s.ownRequest w c
    | .draining, .workset c => s.ownRequest w c
    | .held, .region c => k == .rd && s.ownRequest w c
    | .object, _ => k == .rd && (s.ownConst w a len || s.weightsOf w (a / extBytes))
    | _, _ => false

/-- A read of a T2 extent is permitted: to its grantee, while it is GRANTED; a read of one that has become UNAVAILABLE fails as a tier
read (11 R351, R352). -/
def State.tierPermit (s : State) (w : Who) (k : Kind) (off : Nat) : Bool :=
  let x := s.ext 2 (off / extBytes)
  k == .rd && (x.st == .granted || x.st == .unavailable) &&
    (match x.who with | .tenant t => t == s.jobTenant (s.jobOf w) | .job _ j => j == s.jobOf w | _ => false)

/-! ## Windows (12 R373) -/

/-- Size of the tier window. -/
abbrev tierSize := 562949953421312

/-- The window of an offset: HBM, tier (with its offset there), or none. -/
inductive Window where
  | hbm (a : Nat) | tier (off : Nat) | none
  deriving DecidableEq, Repr

def windowOf (a : Nat) : Window :=
  if a < hbmSize then .hbm a else if tierBase ≤ a ∧ a < tierBase + tierSize then .tier (a - tierBase) else .none

/-- NACK reasons (12 R380). -/
abbrev nNotGranted := 1
abbrev nAddrRange := 2
abbrev nStaleMap := 3
abbrev nMisaligned := 4
abbrev nUnsupported := 5
abbrev nMalformed := 6
abbrev nState := 7

/-! ## Lines of HBM (06 R229, R230, 12 R377, R384) -/

/-- A read of the line gives poison: the line is poisoned, or it lies in a region that reads as poison (04 R154). -/
def State.poisonAt (s : State) (line : Nat) : Bool :=
  s.linePoisoned line ||
    (match (s.ext 1 (line * 128 / extBytes)).who with
     | .region c => (match s.regionOf c with | some r => r.poisoned | none => false)
     | _ => false)

/-- Masked bytes of a line written, `data` and the mask counted from its first byte. A poisoned write poisons the line; a whole line
written without poison is clean; a partial one keeps the line's poison (DEDUCED, log entry 24). -/
def State.putLine (s : State) (line mask : Nat) (data : List Byte) (poison : Bool) : State :=
  let s := (data.zipIdx).foldl (fun s (b, i) => if bitAt mask i then s.hbmPut (line * 128 + i) b else s) s
  if poison then s.linePoison line true else if mask = 2 ^ 128 - 1 then s.linePoison line false else s

/-- Mask of `len` bytes from byte `lo` of a line. -/
def lineMask (lo len : Nat) : Nat := (2 ^ len - 1) * 2 ^ lo

/-- A line of a region of a mirrored request is written: the write goes to the twin too (R150). -/
def State.mirrorLine (s : State) (line mask : Nat) (data : List Byte) (poison : Bool) : State :=
  match (s.ext 1 (line * 128 / extBytes)).who with
  | .region i =>
    match s.latchOf (s.handleFor i), s.regionOf i with
    | some k, some r =>
      let x := s.latch k
      if x.mirrored && x.primary && x.mirrorActive && !s.dead x.twinNode then
        s.request (.mirror i) x.twinNode 2 0 0 (x.twinBase + (line * 128 - r.first * extBytes)) (s.ctx i).job
          (.bytes (toLE 16 mask ++ padTo 128 data)) poison
      else s
    | _, _ => s
  | _ => s

/-- The word after an atomic (12 R377). -/
def atomicNew (code old x y : Nat) : Nat :=
  if code = 0 then (old + x) % 2 ^ 64 else if code = 1 then x else if old = x then y else old

/-- An atomic on an aligned word of HBM: the old value, or none where the word is poisoned and nothing changes. -/
def State.doAtomic (s : State) (a code x y : Nat) : Option Nat × State :=
  if s.poisonAt (a / 128) then (none, s)
  else
    let old := leNat (s.hbmRead a 8)
    (some old, s.hbmWrite a (toLE 8 (atomicNew code old x y)))

end Sys2Proof.Machine
end

