-- ==== Sys2Proof/Machine/Tumbler.lean ====
section
/-! DEFINITION. The Tumbler engine: tables, searches, and the writes that idle cycles carry out (15 R467 to R480, R485 to R494). -/

namespace Sys2Proof.Machine

/-! ## Tables and copies (R467, R468, R480) -/

def State.table (s : State) (k : Nat) : Table := Tab.getD {} s.tum.tables k
def State.setTable (s : State) (k : Nat) (x : Table) : State := { s with tum := { s.tum with tables := Tab.put {} s.tum.tables k x } }

/-- Entries of a copy, by slot. -/
abbrev Copy := Tab TEntry

/-- The live or the shadow copy. -/
def Table.copy (x : Table) (shadow : Bool) : Copy := if x.liveSecond == shadow then x.copyA else x.copyB
def Table.setCopy (x : Table) (shadow : Bool) (c : Copy) : Table :=
  if x.liveSecond == shadow then { x with copyA := c } else { x with copyB := c }

/-- Rows of a table (R467). -/
def Table.rows (x : Table) : Nat := x.depth * x.width * (if x.shadow then 2 else 1)

/-- The match die of a table is fenced. -/
def State.tableGone (s : State) (k : Nat) : Bool := s.isFenced (14 + (s.table k).die)

/-! ## Searching (R471 to R474) -/

/-- An entry hits a key of `w` segments under the global mask. -/
def hits (w key mask : Nat) (e : TEntry) : Bool :=
  (List.range w).all fun i => Nat.land (Nat.xor (fld e.key (160 * i + 159) (160 * i)) (fld key (160 * i + 159) (160 * i))) mask == 0

/-- The hit of lowest index, with its index. -/
def searchCopy (w key mask : Nat) (c : Copy) : Option (Nat × TEntry) := List.find? (fun e => hits w key mask e.2) c

/-- One search: its result, and the search cycle counted. -/
def State.searchOne (s : State) (k : Nat) (shadow : Bool) (key mask : Nat) : Option (Nat × TEntry) × State :=
  let x := s.table k
  (if x.active then searchCopy x.width key mask (x.copy shadow) else none, s.bump kSearches 1 x.die)

/-- Slot of the valid entry of a key. -/
def Copy.slotOf (c : Copy) (key : Nat) : Option Nat := Tab.first? c fun _ e => e.key == key

/-! ## Writing (R475 to R479) -/

/-- What one idle cycle makes of an insertion of priority `pri` into a copy of depth `d`: the slot to write, or a move (from, to), or no hole
(R476). -/
inductive Place where
  | write (slot : Nat) | move (src dst : Nat) | full
  deriving DecidableEq, Repr

/-- The lowest hole of `n` slots from `i` on, the highest hole below `i`. -/
def holeUp (c : Copy) : Nat → Nat → Option Nat
  | 0, _ => none
  | n + 1, i => if (Tab.find? c i).isNone then some i else holeUp c n (i + 1)
def holeDown (c : Copy) : Nat → Option Nat
  | 0 => none
  | i + 1 => if (Tab.find? c i).isNone then some i else holeDown c i

def placeFor (c : Copy) (d pri : Nat) : Place :=
  -- `a1` is a + 1
  let a1 := match (Tab.keysOf c fun _ e => e.pri ≤ pri).getLast? with | some a => a + 1 | none => 0
  let b := match Tab.first? c fun _ e => pri < e.pri with | some b => b | none => d
  if a1 < b then .write a1
  else
    let hd := if b < d then holeUp c (d - b - 1) (b + 1) else none
    let hu := if a1 = 0 then none else holeDown c (a1 - 1)
    match hd, hu with
    | none, none => .full
    | some h, none => .move (h - 1) h
    | none, some h => .move (h + 1) h
    | some h, some g => if h - b ≤ a1 - 1 - g then .move (h - 1) h else .move (g + 1) g

/-- The entry at `i` moved to slot `j`. -/
def Copy.shift (c : Copy) (i j : Nat) : Copy :=
  match Tab.find? c i with
  | some e => Tab.set (Tab.erase c i) j e
  | none => c

/-- The writes of a die, in the order taken. -/
def State.dieJobs (s : State) (die : Nat) : List TJob := s.tum.jobs.filter fun j => (s.table j.table).die == die

/-- A write leaves the queue. -/
def State.endJobT (s : State) (j : TJob) : State := { s with tum := { s.tum with jobs := s.tum.jobs.erase j } }
/-- The write's operation replaced. -/
def State.setOp (s : State) (j : TJob) (op : TWrite) : State :=
  { s with tum := { s.tum with jobs := s.tum.jobs.map fun x => if x == j then { j with op } else x } }

/-- What a command in flight waits for. -/
def State.waitOf (s : State) (id : Nat) : Option Wait := (s.inflight.find? fun (f : Inflight) => f.id == id).map fun f => f.wait

/-- The write is done: its command completes with an answer; an index entry of SEAL_PREFIX counts towards its commit (04 R144). -/
def State.doneJob (s : State) (j : TJob) (a : Ans) : State :=
  let s := s.endJobT j
  if j.cmd ≠ 0 then s.finishId (j.cmd - 1) a
  else if j.sealCmd = 0 then s
  else match s.waitOf (j.sealCmd - 1) with
    | some (.sealing c n obj first count left) =>
      if left ≤ 1 then s.finishId (j.sealCmd - 1) { handle := obj, r0 := n }
      else s.setWait (j.sealCmd - 1) (.sealing c n obj first count (left - 1))
    | _ => s

/-- SEAL_PREFIX cannot insert an entry: the entries inserted and the object are removed, with no side effect (04 R144). -/
def State.unseal (s : State) (cmd status : Nat) : State :=
  match s.waitOf cmd with
  | some (.sealing _ _ obj _ _ _) =>
    let s := { s with tum := { s.tum with jobs := s.tum.jobs.filter fun j => j.sealCmd != cmd + 1 } }
    let s := match Tab.find? s.prefixes obj with
      | some o =>
        let jobs : List TJob := (o.hashes.zip (List.range o.hashes.length)).map fun (h, j) =>
          { table := s.kset kPrefixTable, op := .delete (prefixKey h j) }
        let s := { s with prefixes := Tab.erase s.prefixes obj, tum := { s.tum with jobs := s.tum.jobs ++ jobs } }
        s.releaseObject o.tenant o.first o.count
      | none => s
    s.finishId cmd (refuse status)
  | _ => s

/-- The write cannot be made. -/
def State.failJob (s : State) (j : TJob) (a : Ans) : State :=
  if j.sealCmd ≠ 0 then s.unseal (j.sealCmd - 1) a.status else s.doneJob j a

/-- A command has made a change it does not take back. -/
def State.commitJob (s : State) (j : TJob) : State := if j.cmd = 0 then s else s.commitCmd (j.cmd - 1)

/-- The answer to an insertion of a key that is present (R489). -/
def presentAns (old e : TEntry) : Ans := if old = e then { status := sOkAlready } else refuse sConflict 1

/-- One idle cycle of an insertion. -/
def State.insertCycle (s : State) (j : TJob) (x : Table) (e : TEntry) (moves : Nat) : State :=
  let c := x.copy j.shadow
  match c.slotOf e.key with
  | some i => s.doneJob j (presentAns ((Tab.find? c i).getD {}) e)
  | none =>
    match placeFor c x.depth e.pri with
    | .full => s.failJob j { refuse sNoResource with r1 := moves }
    | .write i => (s.setTable j.table (x.setCopy j.shadow (Tab.set c i e))).doneJob j { r0 := i, r1 := moves }
    | .move a b =>
      ((s.setTable j.table (x.setCopy j.shadow (c.shift a b))).bump kMoves 1 x.die).setOp j (.insert e (moves + 1))

/-- One idle cycle of an update (R478): a clear, a write, a set of the valid bit. -/
def State.updateCycle (s : State) (j : TJob) (x : Table) (stage old : Nat) (e : TEntry) (slot : Nat) : State :=
  let c := x.copy j.shadow
  if stage = 0 then
    match c.slotOf old with
    | none => s.failJob j (refuse sConflict 0)
    | some i =>
      if e.key != old && (c.slotOf e.key).isSome then s.failJob j (refuse sConflict 1)
      else
        let e := { e with pri := ((Tab.find? c i).getD {}).pri }
        ((s.setTable j.table (x.setCopy j.shadow (Tab.erase c i))).commitJob j).setOp j (.update 1 old e i)
  else if stage = 1 then s.setOp j (.update 2 old e slot)
  else (s.setTable j.table (x.setCopy j.shadow (Tab.set c slot e))).doneJob j { r0 := slot }

/-- One idle cycle spent on a write. -/
def State.writeCycle (s : State) (j : TJob) : State :=
  let x := s.table j.table
  if !x.active then s.failJob j (refuse sBadField)
  else match j.op with
    | .insert e m => s.insertCycle j x e m
    | .update st old e i => s.updateCycle j x st old e i
    | .delete key =>
      (match (x.copy j.shadow).slotOf key with
       | some i => (s.setTable j.table (x.setCopy j.shadow (Tab.erase (x.copy j.shadow) i))).doneJob j {}
       | none => s.doneJob j { status := sOkAlready })
    | .clearAll => (s.setTable j.table (x.setCopy j.shadow [])).doneJob j {}
    | .swap => (s.setTable j.table { x with liveSecond := !x.liveSecond }).doneJob j {}
    | .destroy => (s.setTable j.table {}).doneJob j {}

/-- A cycle of a die in which no search waits (R475). -/
def execTumblerIdleCycle (die : Nat) (s : State) : Res :=
  if !s.runs || s.isFenced (14 + die) then .next s
  else
    let s := s.bump kIdleCycles 1 die
    match s.dieJobs die with
    | j :: _ => .next (s.writeCycle j)
    | [] => .next s

/-- An insertion has not reached its commit point, or an update or deletion its clear, within the bound (R477, R490, R491). -/
def execInsertTimeout (cmd : Nat) (s : State) : Res :=
  match s.tum.jobs.find? fun j => (j.cmd == cmd + 1 || j.sealCmd == cmd + 1) && j.due ≤ s.now with
  | none => .next s
  | some j =>
    if !s.runs then .next s
    else match j.op with
      | .insert _ m => .next ((s.bump kInsertTimeouts).failJob j { refuse sInsertTimeout with r1 := m })
      | .update st _ _ _ => if st = 0 then .next (s.failJob j (refuse sTimeout)) else .next s
      | .delete _ => .next (s.failJob j (refuse sTimeout))
      | .clearAll => .next (s.failJob j (refuse sTimeout))
      | .swap => .next s
      | .destroy => .next s

/-- A write of a command queued. -/
def State.queueJob (s : State) (cmd table : Nat) (shadow : Bool) (op : TWrite) : State :=
  { s with tum := { s.tum with jobs := s.tum.jobs ++ [{ cmd := cmd + 1, table, shadow, op, due := s.now + us (s.kv kInsertBound) }] } }

/-! ## CREATE_TABLE, DESTROY_TABLE, SWAP_SHADOW (R486, R487, R494) -/

/-- Position and size of the cascade (16 R517); size 0 outside one. -/
def State.cascPos (s : State) : Nat := s.dev 106 104
def State.cascSize (s : State) : Nat := s.dev 111 108

/-- Gaps of rows of a die. -/
def State.rowGaps (s : State) (die : Nat) : List (Nat × Nat) :=
  let used := (s.tum.tables.filter fun t => t.2.active && t.2.die == die).foldl (fun l t => addRun (t.2.first, t.2.rows) l) []
  if s.isFenced (14 + die) then [] else gapWalk (131072 - (if die = 1 then s.tum.routeRows else 0)) 0 used

/-- Rows charged to a job. -/
def State.rowsOfJob (s : State) (j : Nat) : Nat := Tab.sum s.tum.tables fun x => if x.active && x.job == j then x.rows else 0

def newWidth (p : Pkt) : Nat := 2 ^ p.f 5 4
def newRows (p : Pkt) : Nat := p.f 49 32 * newWidth p * (if p.b 6 then 2 else 1)

def rowCreateTable : CmdRow :=
  { opcode := 0x0D01, resv := [(15, 9), (31, 28), (383, 50)],
    check := fun p s =>
      let j := p.f 27 16
      let k := p.f 3 0
      firstFail
        [badLen (p.f 5 4 != 3 && outside (p.f 49 32) 1 (131072 / (newWidth p * (if p.b 6 then 2 else 1)))), badHandle p,
         badFld (p.f 5 4 == 3 || (p.b 7 && (p.f 5 4 != 0 || s.cascSize == 0)) || (j != 0 && !s.jobHere j)),
         conflict (s.table k).active 1,
         noRes ((j != 0 && s.jobRows j < s.rowsOfJob j + newRows p) || runPlaces (s.rowGaps (b2n (p.b 8))) (newRows p) == 0)],
    act := fun p _ s =>
      let die := b2n (p.b 8)
      let gaps := s.rowGaps die
      let c := s.choose (runPlaces gaps (newRows p))
      match runPlace (newRows p) gaps c.1 with
      | none => .done (refuse sNoResource) s
      | some first =>
        .done { r0 := first } (c.2.setTable (p.f 3 0) { active := true, width := newWidth p, shadow := p.b 6, cascade := p.b 7, die, first,
                                                        depth := p.f 49 32, job := p.f 27 16 }) }

def execCreateTable (p : Pkt) (s : State) : Res := .next (hostCommand rowCreateTable p s)

def rowDestroyTable : CmdRow :=
  { opcode := 0x0D02, resv := [(383, 4)], check := fun p _ => firstFail [badHandle p],
    act := fun p id s =>
      let k := p.f 3 0
      if !(s.table k).active then .done { status := sOkAlready } s
      else .wait (.tumbler k) false none ((s.adopt kInsertBound).queueJob id k false .destroy) }

def execDestroyTable (p : Pkt) (s : State) : Res := .next (hostCommand rowDestroyTable p s)

def rowSwapShadow : CmdRow :=
  { opcode := 0x0D07, resv := [(383, 4)],
    check := fun p s => firstFail [badHandle p, badFld (!(s.table (p.f 3 0)).active || !(s.table (p.f 3 0)).shadow)],
    act := fun p id s => .wait (.tumbler (p.f 3 0)) false none ((s.adopt kInsertBound).queueJob id (p.f 3 0) false .swap) }

def execSwapShadow (p : Pkt) (s : State) : Res := .next (hostCommand rowSwapShadow p s)

/-! ## INSERT_ENTRY, UPDATE_ENTRY, DELETE_ENTRY (R488 to R491) -/

/-- Width of the table a command names. -/
def State.widthOf (s : State) (v : Nat) : Nat := (s.table (fld v 3 0)).width

/-- Key `i` of `w` segments in an extended block. -/
def extKey (p : Pkt) (w i : Nat) : Nat := p.xf (160 * w * (i + 1) - 1) (160 * w * i)

/-- The table is ABSENT, or the copy named does not exist. -/
def badTable (p : Pkt) (s : State) : Bool := !(s.table (p.f 3 0)).active || (p.b 4 && !(s.table (p.f 3 0)).shadow)

/-- The copy a command names. -/
def copyNamed (p : Pkt) (s : State) : Copy := (s.table (p.f 3 0)).copy (p.b 4)

/-- Inline key of width 1, or the extended block's. -/
def insKey (p : Pkt) (s : State) : Nat := if s.widthOf p.v = 1 then p.f 287 128 else extKey p (s.widthOf p.v) 0

def insEntry (p : Pkt) (s : State) : TEntry := { key := insKey p s, pri := p.f 31 16, result := p.f 63 32, flags := p.f 67 64 }

def rowInsertEntry : CmdRow :=
  { opcode := 0x0D03, resv := [(15, 5), (127, 68), (383, 288)], extIn := fun s v => if s.widthOf v = 1 then 0 else 20 * s.widthOf v,
    check := fun p s =>
      let c := copyNamed p s
      let e := insEntry p s
      firstFail
        [badHandle p, badFld (badTable p s || (s.widthOf p.v != 1 && p.f 287 128 != 0)),
         (match c.slotOf e.key with
          | some i => (true, presentAns ((Tab.find? c i).getD {}) e)
          | none => (false, {})),
         noRes ((s.table (p.f 3 0)).depth ≤ c.length)],
    act := fun p id s =>
      let s := s.adopt kInsertBound
      .wait (.tumbler (p.f 3 0)) false (some (us (s.kv kInsertBound) + ms 250))
        (s.queueJob id (p.f 3 0) (p.b 4) (.insert (insEntry p s) 0)) }

def execInsertEntry (p : Pkt) (s : State) : Res := .next (hostCommand rowInsertEntry p s)

def updKeys (p : Pkt) (s : State) : Nat × Nat :=
  let w := s.widthOf p.v
  if w = 1 then (p.f 223 64, p.f 383 224) else (extKey p w 0, extKey p w 1)

def rowUpdateEntry : CmdRow :=
  { opcode := 0x0D04, resv := [(7, 5), (15, 12), (63, 48)], extIn := fun s v => if s.widthOf v = 1 then 0 else 40 * s.widthOf v,
    check := fun p s =>
      let c := copyNamed p s
      let (old, new) := updKeys p s
      let at_ := c.slotOf old
      let e := (at_.bind fun i => Tab.find? c i).getD {}
      firstFail
        [badHandle p, badFld (badTable p s || (s.widthOf p.v != 1 && p.f 383 64 != 0)), conflict at_.isNone 0,
         conflict (new != old && (c.slotOf new).isSome) 1,
         (new == old && e.result == p.f 47 16 && e.flags == p.f 11 8, { status := sOkAlready })],
    act := fun p id s =>
      let (old, new) := updKeys p s
      .wait (.tumbler (p.f 3 0)) false none
        ((s.adopt kInsertBound).queueJob id (p.f 3 0) (p.b 4)
          (.update 0 old { key := new, result := p.f 47 16, flags := p.f 11 8 } 0)) }

def execUpdateEntry (p : Pkt) (s : State) : Res := .next (hostCommand rowUpdateEntry p s)

def rowDeleteEntry : CmdRow :=
  { opcode := 0x0D05, resv := [(127, 6), (383, 288)],
    extIn := fun s v => if s.widthOf v = 1 || bitAt v 5 then 0 else 20 * s.widthOf v,
    check := fun p s =>
      firstFail [badHandle p, badFld (badTable p s || ((p.b 5 || s.widthOf p.v != 1) && p.f 287 128 != 0)),
        (!p.b 5 && ((copyNamed p s).slotOf (insKey p s)).isNone, { status := sOkAlready })],
    act := fun p id s =>
      .wait (.tumbler (p.f 3 0)) false none
        ((s.adopt kInsertBound).queueJob id (p.f 3 0) (p.b 4) (if p.b 5 then .clearAll else .delete (insKey p s))) }

def execDeleteEntry (p : Pkt) (s : State) : Res := .next (hostCommand rowDeleteEntry p s)

/-! ## SEARCH (R492, R493) -/

/-- A result record. -/
def searchRec (r : Option (Nat × TEntry)) (pos status : Nat) : List Byte :=
  match r with
  | some (i, e) => toLE 16 (pack [(32, e.result), (16, e.pri), (4, e.flags), (1, 1), (3, pos), (8, 0), (17, i), (15, 0), (16, status)])
  | none => toLE 16 (pack [(96, 0), (16, status)])

/-- Key record `i` of a SEARCH of width `w`. -/
def keyRec (p : Pkt) (w i : Nat) : Nat := bytesAt (p.data.getD []) (32 * w * i) (32 * w)

/-- A token of a cascaded search (R483): table, origin, the hit so far with its member's position, sequence number, key, mask. -/
def cascToken (table origin seq : Nat) (hit : Option (Nat × TEntry)) (pos key mask : Nat) : BitVec 512 :=
  BitVec.ofNat 512 (match hit with
    | some (i, e) => pack [(4, table), (3, origin), (1, 1), (3, pos), (5, 0), (16, seq), (16, e.pri), (17, i), (15, 0), (32, e.result),
        (4, e.flags), (12, 0), (160, key), (160, mask)]
    | none => pack [(4, table), (3, origin), (9, 0), (16, seq), (96, 0), (160, key), (160, mask)])

/-- A cascaded search begun: this device's own search, and its token sent (R482). -/
def State.cascSearch (s : State) (k cmd ctx ix key mask : Nat) : State :=
  let (r, s) := s.searchOne k false key mask
  let s := s.adopt kCascTimeout
  let seq := s.tum.casSeq
  let out : CascOut := { seq, cmd, ctx, ix, due := s.now + us (s.kv kCascTimeout) }
  { s with tum := { s.tum with casSeq := (seq + 1) % 65536, casOut := s.tum.casOut ++ [out],
                               sent := s.tum.sent ++ [cascToken k s.cascPos seq r s.cascPos key mask] } }

def rowSearch : CmdRow :=
  { opcode := 0x0D06, resv := [(15, 6), (31, 29), (383, 352)],
    check := fun p s =>
      let x := s.table (p.f 3 0)
      let n := p.f 28 16
      firstFail
        [badLen (outside n 1 4096 || outside (p.f 63 32) 16 65536 || p.f 63 32 < 16 * n), badFld p.data.isNone, badHandle p,
         badFld (!x.active || (p.b 4 && !x.shadow) || (p.b 5 && (!x.cascade || p.b 4)) || misaligned (p.f 127 64) 64 ||
           misaligned (p.f 191 128) 64 || (List.range n).any fun i => 2 ^ (160 * x.width) ≤ keyRec p x.width i)],
    act := fun p id s =>
      let k := p.f 3 0
      let w := (s.table k).width
      let n := p.f 28 16
      let mask := p.f 351 192
      if p.b 5 then
        if s.tum.ringDown then .done { wr := [(p.f 191 128, (List.range n).flatMap fun _ => searchRec none 0 sTimeout)] } s
        else
          .wait (.search k n (p.f 191 128) []) true none
            ((List.range n).foldl (fun s i => s.cascSearch k (id + 1) 0 i (keyRec p w i) mask) s)
      else
        let r := (List.range n).foldl (fun (r : List Byte × State) i =>
          let (h, s) := r.2.searchOne k (p.b 4) (keyRec p w i) mask
          (r.1 ++ searchRec h 0 sOK, s)) ([], s)
        .done { wr := [(p.f 191 128, r.1)] } r.2 }

def execSearch (p : Pkt) (s : State) : Res := .next (hostCommand rowSearch p s)

/-! ## Tables lost (R469, R470) -/

/-- A table destroyed by a die fence or a fabric boot: its writes end, TABLE_LOST is posted. -/
def State.loseTable (s : State) (k cause : Nat) : State :=
  let x := s.table k
  if !x.active then s
  else
    let js := s.tum.jobs.filter (·.table == k)
    let s := js.foldl (fun s j => s.failJob j (refuse sBadField)) s
    (s.setTable k {}).postEvent 0x0D01 0 (pack [(4, k), (1, x.die), (3, 0), (1, cause)]) (x.copyA.length + x.copyB.length)

end Sys2Proof.Machine
end

