-- ==== Sys2Proof/Machine/Hinge.lean ====
section
/-! DEFINITION. The hinge's operations: what an opening carries, attempts and pushes at the source, openings and backing at the destination,
the two sides of a latch commit, the twin's copy (03 R91 to R95, R585, 04 R119 to R138, R149 to R154, 07 R246 to R249). -/

namespace Sys2Proof.Machine

/-! ## What travels (03 R91, R92, 04 R127) -/

/-- Fixed fields of a request. -/
def Ctx.fixed (c : Ctx) : ReqFixed :=
  { tenant := c.tenant, job := c.job, be := c.be, uid := BitVec.ofNat 64 c.uid, cookie := BitVec.ofNat 64 c.cookie, promptLen := c.promptLen,
    maxLen := c.maxLen, destNode := c.destNode, outRing := c.outRing, firstDeadlineUs := c.firstDeadlineUs,
    tokenDeadlineUs := c.tokenDeadlineUs, samp := c.samp }

/-- The fields PREPARE installs. -/
def State.moving (s : State) (i : Nat) : ReqMoving :=
  let c := s.ctx i
  { position := c.position, delivered := c.delivered, grammarState := c.grammarState, firstDone := c.firstDone, pauseHost := c.pauseHost,
    pauseSched := c.pauseSched, pauseParked := c.pauseParked, firstMiss := c.firstMiss, tokenMisses := c.tokenMisses,
    schedPauses := c.schedPauses, pausedUs := s.pausedTime i, tHandoffUs := c.tHandoffUs, tFirstUs := c.tFirstUs, tLastUs := c.tLastUs,
    prefixReused := c.prefixReused, unwrittenFirst := c.unwrittenFirst, unwrittenTokens := c.unwrittenTok, lastMissPos := c.missPos,
    tokens := c.tokens.drop (c.promptLen - 1) }

/-- A record with those fields installed. -/
def Ctx.install (c : Ctx) (m : ReqMoving) : Ctx :=
  { c with position := m.position, delivered := m.delivered, grammarState := m.grammarState, firstDone := m.firstDone, pauseHost := m.pauseHost,
           pauseSched := m.pauseSched, pauseParked := m.pauseParked, firstMiss := m.firstMiss, tokenMisses := m.tokenMisses,
           schedPauses := m.schedPauses, pausedUs := m.pausedUs, tHandoffUs := m.tHandoffUs, tFirstUs := m.tFirstUs, tLastUs := m.tLastUs,
           prefixReused := m.prefixReused, unwrittenFirst := m.unwrittenFirst, unwrittenTok := m.unwrittenTokens, missPos := m.lastMissPos,
           tokens := List.replicate (c.promptLen - 1) 0 ++ m.tokens }

/-- Digests as stored: of a model, of a delta version, of a grammar (07 R243, 08 R267, 09 R305). -/
def State.mdlDigest (s : State) (m : Model) : List Byte := s.hbmRead (m.first * extBytes + 56) 48
def State.verDigest (s : State) (v : DeltaVer) : List Byte := s.hbmRead (v.first * extBytes + 104) 48
def State.gramDigest (s : State) (g : Grammar) : List Byte := s.hbmRead (g.first * extBytes + 40) 48

/-- Digests of what a request is bound to; empty where it is bound to none. -/
def State.ctxDigests (s : State) (c : Ctx) : List Byte × List Byte × List Byte :=
  (match Tab.find? s.models c.model with | some m => s.mdlDigest m | none => [],
   match (Tab.find? s.deltas c.delta).bind fun d => d.vers.find? (·.ver == c.deltaVer) with | some v => s.verDigest v | none => [],
   match Tab.find? s.grammars c.grammar with | some g => s.gramDigest g | none => [])

/-! ## The cycle of destinations (04 R136) -/

/-- Nodes of the cycle: `dest_node`, then the valid alternates of the job in slot order. -/
def State.cycle (s : State) (c : Ctx) : List Nat :=
  c.destNode :: (List.range 8).filterMap fun k => let v := s.kset kAltDest (c.job * 8 + k); if bitAt v 15 then some (v % 16384) else none

/-- The next place in the cycle whose node is alive and mapped in generation or cache role, and that node. -/
def State.nextDest (s : State) (c : Ctx) : Option (Nat × Nat) :=
  let l := s.cycle c
  ((List.range l.length).map fun j => (c.cycleIx + 1 + j) % l.length).findSome? fun i =>
    let n := l.getD i 0
    if s.canHost n && !s.dead n then some (i, n) else none

/-! ## Attempts (04 R136 to R138) -/

/-- A region is opened on a destination for an attempt. -/
def State.openTo (s : State) (i node attempt : Nat) : State :=
  match s.latchOf (s.handleFor i) with
  | none => s
  | some k =>
    let s := s.dropTxns fun t => t.who == .hinge k || t.who == .push i
    let s := s.modCtx i fun c => { c with opening := true, curDest := node, layersPushed := 0, pushing := 0, pushLeft := 0,
                                          prefixPushed := c.prefixReused == 0 }
    let s := s.setLatch k { s.latch k with st := .home, peer := node, openRegion := 0, peerHandle := 0, peerBase := 0, fwdNode := 0, attempt }
    let c := s.ctx i
    let (md, dd, gd) := s.ctxDigests c
    s.hingeSend k (.opening c.fixed md dd gd (s.ctxAge i) (s.handleFor i) false [] 0 none)

/-- An attempt has failed: the next one begins, or the request ends. -/
def State.attemptFail (s : State) (i status : Nat) : State :=
  match s.latchOf (s.handleFor i) with
  | none => s
  | some k =>
    let x := s.latch k
    let failed := (s.ctx i).curDest
    let s := s.dropTxns fun t => t.who == .hinge k || t.who == .push i
    let s := s.setLatch k { x with st := .home, openRegion := 0, peerHandle := 0, fwdNode := 0 }
    let s := s.modCtx i fun c => { c with opening := false, layersPushed := 0, pushing := 0, pushLeft := 0, lastFail := status }
    let s := s.adopt kRetryBudget
    let s := (List.range 8).foldl (fun s n => s.adopt kAltDest ((s.ctx i).job * 8 + n)) s
    if s.kv kRetryBudget ≤ x.attempt then s.endReq i status
    else match s.nextDest (s.ctx i) with
      | none => s.endReq i status
      | some (ix, node) =>
        let s := (s.modCtx i fun c => { c with cycleIx := ix }).bump kPushRetries
        let s := s.postEvent 0x0302 (s.handleFor i) (pack [(14, failed), (14, node), (8, x.attempt + 1), (16, status)]) (s.ctx i).cookie
        s.openTo i node (x.attempt + 1)

/-- The first attempt. -/
def State.firstAttempt (s : State) (i : Nat) : State :=
  let d := (s.ctx i).destNode
  let s := s.modCtx i fun c => { c with curDest := d, cycleIx := 0 }
  match s.latchOf (s.handleFor i) with
  | none => s
  | some k =>
    let s := s.modLatch k fun x => { x with attempt := 1 }
    if s.dead d then s.attemptFail i sStateLost else s.openTo i d 1

/-! ## Line writes (04 R132, R133) -/

/-- `len` bytes from offset `src` of this node's HBM written to `len` bytes from offset `off` of another node, a line at a time in ascending order,
partial lines masked. -/
def State.writeLines (s : State) (who : TxnFor) (node cls job off len src : Nat) : State :=
  if len = 0 then s
  else (List.range ((off + len - 1) / 128 + 1 - off / 128)).foldl (fun s n =>
    let line := off / 128 + n
    let lo := max off (line * 128)
    let n := min (off + len) (line * 128 + 128) - lo
    let from_ := src + (lo - off)
    let data := List.replicate (lo - line * 128) 0 ++ s.hbmRead from_ n
    let bad := (List.range ((from_ + n - 1) / 128 + 1 - from_ / 128)).any fun j => s.poisonAt (from_ / 128 + j)
    s.request who node 2 cls 0 (line * 128) job (.bytes (toLE 16 (lineMask (lo - line * 128) n) ++ padTo 128 data)) bad) s

/-- Lines of a run of bytes. -/
def lineCount (off len : Nat) : Nat := if len = 0 then 0 else (off + len - 1) / 128 + 1 - off / 128

/-- Positions a prompt node computes, less those of a sealed prefix. -/
def Ctx.toCompute (c : Ctx) : Nat := c.promptLen - 1 - c.prefixReused

/-- Offset in its region of the row of position `p` in layer `l`, and in its working set. -/
def State.regionRow (s : State) (c : Ctx) (l p : Nat) : Nat := (l * c.maxLen + p) * s.rowBytesOf c.model
def State.worksetRow (s : State) (c : Ctx) (l p : Nat) : Nat :=
  c.wsFirst * extBytes + (l * (c.promptLen - 1) + p) * s.rowBytesOf c.model

/-- Rows [p, q) of a layer pushed. -/
def State.pushRows (s : State) (i l p q : Nat) : State :=
  match s.latchOf (s.handleFor i) with
  | none => s
  | some k =>
    let c := s.ctx i
    let off := (s.latch k).peerBase + s.regionRow c l p
    let len := (q - p) * s.rowBytesOf c.model
    let s := s.modCtx i fun c => { c with pushLeft := c.pushLeft + lineCount off len }
    s.writeLines (.push i) (s.latch k).peer 1 c.job off len (s.worksetRow c l p)

/-! ## Source: from the pushes to PREPARE (03 R93, 04 R127) -/

/-- The region of the attempt in progress stands open on its destination, and no ending is being sent. -/
def State.opened (s : State) (i : Nat) : Option Nat :=
  match s.latchOf (s.handleFor i) with
  | some k => if (s.latch k).openRegion != 0 && (s.latch k).abandon == 0 && !(s.ctx i).opening then some k else none
  | none => none

/-- PREPARE is sent: the latch is COMMITTING. -/
def State.startPrepare (s : State) (i : Nat) : State :=
  match s.latchOf (s.handleFor i) with
  | none => s
  | some k =>
    let x := s.latch k
    let s := s.setLatch k { x with st := .committing, fwdNode := x.peer }
    s.hingeSend k (.prepare (s.moving i) (s.ctxAge i) x.stamp (x.moves + 1))

/-- Where the push stands: the prefix pass starts once its rows and the region are in place; the handover starts once every row is acknowledged. -/
def State.advancePush (s : State) (i : Nat) : State :=
  match s.opened i with
  | none => s
  | some k =>
    let c := s.ctx i
    if (s.latch k).st != .home || c.pushLeft != 0 || c.prefixSt != .inPlace then s
    else if !c.prefixPushed then
      (List.range (s.layersOf c.model)).foldl (fun s l => s.pushRows i l 0 c.prefixReused) s
    else if c.toCompute = 0 || (s.layersOf c.model ≤ c.layersPushed && c.pushing = 0) then
      (if c.st = .handoff then s else s.enter i .handoff).startPrepare i
    else s

/-- A line write of a push is acknowledged (R133). -/
def State.pushAck (s : State) (i : Nat) : State :=
  let s := s.modCtx i fun c => { c with pushLeft := c.pushLeft - 1 }
  let c := s.ctx i
  if c.pushLeft ≠ 0 then s
  else if c.pushing = 0 then (s.modCtx i fun c => { c with prefixPushed := true }).advancePush i
  else (s.modCtx i fun c => { c with layersPushed := c.pushing, pushing := 0 }).advancePush i

/-! ## Destination: openings (03 R585, 07 R248, R249) -/

/-- Local indexes of regions that are open or named by a latch of this node. -/
def State.regionIds (s : State) : List Nat := s.regions.map (·.1) ++ s.latches.map fun x => x.2.region

/-- The next local index from `n` on that is not in use; `fuel` bounds the tries. -/
def State.freeRegion (s : State) : Nat → Nat → Nat
  | 0, n => n
  | f + 1, n =>
    let n := if 262143 < n then 1 else n
    if s.regionIds.contains (s.self * 2 ^ 18 + n) then State.freeRegion s f (n + 1) else n

/-- What an opening asks for. -/
structure Opening where
  src : Nat
  srcHandle : Nat
  attempt : Nat
  f : ReqFixed
  model : List Byte
  delta : List Byte
  grammar : List Byte
  age : Nat
  /-- A mirror copy: output ring and partition on this device. -/
  mirror : Option (Nat × Nat) := none

/-- The local objects an opening binds: lowest ID, and the highest version of the lowest delta (03 R92, 08 R289, 09 R312). -/
def State.bindModel (s : State) (o : Opening) : Option Nat := Tab.first? s.models fun _ m => s.mdlDigest m == o.model
def State.bindDelta (s : State) (o : Opening) : Option (Nat × Nat) :=
  if o.delta.isEmpty then some (0, 0)
  else (List.find? (fun e => e.2.tenant == o.f.tenant && e.2.vers.any fun v => s.verDigest v == o.delta) s.deltas).bind fun e =>
    ((e.2.vers.filter fun v => s.verDigest v == o.delta).getLast?).map fun v => (e.1, v.ver)
def State.bindGrammar (s : State) (o : Opening) : Option Nat :=
  if o.grammar.isEmpty then some 0 else Tab.first? s.grammars fun _ g => g.tenant == o.f.tenant && s.gramDigest g == o.grammar

/-- Extents of the region an opening needs. -/
def State.openExts (s : State) (o : Opening) : Nat :=
  match s.bindModel o with | some m => extsOf (o.f.maxLen * s.layersOf m * s.rowBytesOf m) | none => 0

/-- The partition a request or a mirror copy is placed on: none where none is a candidate. -/
def State.openPart (s : State) (o : Opening) (model : Nat) : Option Nat :=
  match o.mirror with
  | some (_, p) => if (s.part p).st == .active && (s.part p).model == model && (s.part p).dMask != 0 then some p else none
  | none => if s.compo.role = 1 then s.candidate model true else some 0

/-- The status with which the first eight rows of R585 refuse an opening, if they do (04 R149); `all` says whether rows 1 and 4 are judged. -/
def State.judge (s : State) (o : Opening) (all : Bool) : Option Nat :=
  let ring := match o.mirror with | some (q, _) => q | none => o.f.outRing
  let no : Ans := refuse sNoResource
  (firstFail
    [(all && (s.rcv.modSt != .inService || s.pow.level != 0), no), (s.freeCtx.isNone, no), (s.takeLatch.isNone, no),
     (all && (s.oqr ring).st != .active, refuse (if o.mirror.isSome then sBadField else sCancelled)), ((s.bindModel o).isNone, no),
     ((s.bindDelta o).isNone, no), ((s.bindGrammar o).isNone, no),
     ((s.openPart o ((s.bindModel o).getD 0)).isNone, refuse (if o.mirror.isSome then sBadField else sNoResource))]).map (·.status)

/-- The last rows of R585, quota and run, each after the reclaim of 11 R368: the status of a refusal, or the index of the context of the
opening with its latch and region. -/
def State.acceptOpening (s : State) (o : Opening) (moveCmd : Nat) : Sum Nat Nat × State :=
  let n := s.openExts o
  let s := s.reclaimFor o.f.tenant 1
  if !s.fits o.f.tenant 1 1 then (.inl sQuota, s)
  else match s.findRun n with
  | (none, s) => (.inl sNoResource, s)
  | (some e, s) =>
    match s.freeCtx, s.takeLatch with
    | some i, some (k, s) =>
      let local_ := s.freeRegion (s.regionIds.length + 1) (Tab.getD 0 s.nextId 5 + 1)
      let id := s.self * 2 ^ 18 + local_
      let s := { s with nextId := Tab.put 0 s.nextId 5 local_ }
      let model := (s.bindModel o).getD 0
      let (delta, ver) := (s.bindDelta o).getD (0, 0)
      let part := s.openPart o model
      let placed := s.compo.role == 1
      let c : Ctx :=
        { st := .handoff, gen := (s.ctx i).gen, be := o.f.be, tenant := o.f.tenant, job := o.f.job, model, delta, deltaVer := ver,
          grammar := (s.bindGrammar o).getD 0, uid := o.f.uid.toNat, cookie := o.f.cookie.toNat, promptLen := o.f.promptLen,
          maxLen := o.f.maxLen, homeNode := o.src, outRing := o.f.outRing, firstDeadlineUs := o.f.firstDeadlineUs,
          tokenDeadlineUs := o.f.tokenDeadlineUs, ageBase := o.age, ageAt := s.now, samp := o.f.samp, region := id, destNode := o.f.destNode,
          bound := true, isDest := true, partition := part.getD 0, placed := placed && o.mirror.isNone, moveCmd,
          mirrorRing := (o.mirror.getD (0, 0)).1, twinPart := (o.mirror.getD (0, 0)).2 }
      let s := (s.setCtx i c).takeExts 1 e n .held (.region i)
      let s := s.setRegion { id, ctx := i, first := e, count := n, bytes := n * extBytes }
      (.inr i, s.setLatch k
        { region := id, st := .pending, homeNode := s.self, handle := s.handleFor i, channel := i, peer := o.src, openRegion := id,
          peerHandle := o.srcHandle, attempt := o.attempt, mirrored := o.mirror.isSome, twinNode := if o.mirror.isSome then o.src else 0 })
    | _, _ => (.inl sNoResource, s)

/-- The region's extent of an offset, backed if it is HELD, after the reclaim of 11 R368; whether the tenant's quota allows it (04 R135, 07
R249). -/
def State.backExt (s : State) (i e : Nat) : Bool × State :=
  if (s.ext 1 e).st = .held then
    let t := (s.ctx i).tenant
    let s := s.reclaimFor t 1
    if s.fits t 1 1 then (true, (s.takeExts 1 e 1 .granted (.region i)).charge t 1 1) else (false, s)
  else (true, s)

/-- Byte `z` of a region: T1, or the drive a demoted extent is on. -/
def State.regionByte (s : State) (r : Region) (z : Nat) : Byte :=
  let k := z / extBytes
  let here : Bool := r.hasRun && ((s.ext 1 (r.first + k)).st == .granted || (s.ext 1 (r.first + k)).st == .draining)
  if here then s.hbmByte (r.first * extBytes + z)
  else match r.demoted.find? (·.1 == k) with
    | some d => Mem.read s.t2 (t2Off d.2 + z % extBytes)
    | none => 0

/-! ## The two sides of a latch commit (03 R94, R95, 04 R127, R128) -/

/-- Source side: FORWARDING is written. -/
def State.commitSource (s : State) (k i destHandle : Nat) : State :=
  let x := s.latch k
  let age := s.ctxAge i
  let s := s.dropTxns fun t => t.who == .hinge k
  let s := s.freeTwin k sOK
  let s := s.setLatch k { x with st := .forwarding, fwdHandle := destHandle, moves := x.moves + 1, mirrored := false, mirrorActive := false,
                                 primary := false, peerHandle := destHandle }
  let s := s.modCtx i fun c => { c with moved := true, fwdNode := x.fwdNode, fwdHandle := destHandle, tHandoffUs := age }
  let s := (s.releaseCtx i).enter i .done
  let s := s.postEvent 0x0202 (s.handleFor i) (pack [(32, destHandle), (14, x.fwdNode)]) (s.ctx i).cookie
  let s := (s.bump kHandovers).finishCtxCmds i
  s.hingeSend k (.commit age)

/-- Destination side: this node is home. -/
def State.commitDest (s : State) (k i age : Nat) : State :=
  let x := s.latch k
  let src := (s.ctx i).homeNode
  let s := s.dropTxns fun t => t.who == .hinge k
  let s := s.setLatch k { x with st := .home, stamp := x.stamp + 1, withdrawing := false, openRegion := 0, homeNode := s.self }
  let gen : Bool := s.compo.role == 1
  let s := s.modCtx i fun c => { c with ageBase := age, ageAt := s.now, tHandoffUs := age, isDest := false, homeNode := s.self, pauseSched := false,
                                        pauseParked := !gen }
  let c := s.ctx i
  let s := s.enter i (if gen && !c.pauseHost then .decode else .paused)
  let s := s.postEvent 0x0201 (s.handleFor i) c.cookie c.uid
  let s := s.writeMisses i
  if c.moveCmd = 0 then s
  else s.finishId (c.moveCmd - 1) { handle := s.handleFor i, r0 := x.peerHandle + src * 2 ^ 32 }

/-- A handover from a PAUSED source is off: the latch is HOME and the request stays PAUSED; misses of the meantime are written (03 R99). -/
def State.backHome (s : State) (k i : Nat) : State :=
  let s := s.dropTxns fun t => t.who == .hinge k
  let s := s.modLatch k fun x => { x with st := .home, openRegion := 0, peerHandle := 0, fwdNode := 0 }
  (if (s.ctx i).bound then s.writeMisses i else s).tryDecode i

/-! ## The twin's copy (04 R149 to R154) -/

/-- Line writes and records for the twin are outstanding. -/
def State.mirrorBusy (s : State) (i : Nat) : Bool := (s.fab.txns ++ s.fab.unsent).any fun t => t.who == .mirror i

/-- A record sent to the twin under a stamp. -/
def State.mirrorRecord (s : State) (k i : Nat) (m : ReqMoving) (stamp : Nat) : State :=
  let x := s.latch k
  s.request (.mirror i) x.twinNode 0xD 0 0 0 0
    (.hinge { region := x.twinRegion, handle := s.handleFor i } (.prepare m (s.ctxAge i) stamp x.moves))

/-- The region's backed extents and the record copied to the twin. -/
def State.mirrorCopy (s : State) (k i : Nat) : State :=
  let x := s.latch k
  match s.regionOf i with
  | none => s
  | some r =>
    let s := (List.range r.count).foldl (fun s j =>
      let off := x.twinBase + j * extBytes
      if (s.backed r).contains j then s.writeLines (.mirror i) x.twinNode 0 (s.ctx i).job off extBytes ((r.first + j) * extBytes)
      else if r.demoted.any fun d => d.1 == j then
        (List.range (extBytes / 128)).foldl (fun s n =>
          let data := (List.range 128).map fun b => s.regionByte r (j * extBytes + n * 128 + b)
          s.request (.mirror i) x.twinNode 2 0 0 (off + n * 128) (s.ctx i).job (.bytes (toLE 16 (2 ^ 128 - 1) ++ data))) s
      else s) s
    s.mirrorRecord k i (s.moving i) x.stamp

/-- Mirroring is suspended: the primary goes on alone (R152). -/
def State.suspendMirror (s : State) (k i : Nat) : State :=
  let x := s.latch k
  let s := s.dropTxns fun t => t.who == .mirror i
  let s := (s.setLatch k { x with mirrorActive := false }).modCtx i fun c => { c with mirrorSent := false }
  if x.mirrorActive then s.postEvent 0x0304 (s.handleFor i) x.twinNode (s.ctx i).cookie else s

/-- Mirroring ends on the primary. -/
def State.endMirror (s : State) (k i : Nat) : State :=
  let s := s.dropTxns fun t => t.who == .mirror i
  (s.modLatch k fun x => { x with mirrored := false, mirrorActive := false, primary := false, twinNode := 0, twinRegion := 0, twinHandle := 0,
                                  twinBase := 0 }).modCtx i fun c => { c with mirrorSent := false }

/-- The copy already holds the request's last token (03 R97): a stop token, the last position, or a final grammar state. -/
def State.copyOver (s : State) (c : Ctx) : Bool :=
  c.promptLen < c.position &&
    ((c.samp.stopTokens.take c.samp.stopCount).contains (c.tokens.getD (c.position - 1) 0) || c.position == c.maxLen ||
      match Tab.find? s.grammars c.grammar with
      | some g =>
        let base := g.first * extBytes
        bitAt (leNat (s.hbmRead (base + leNat (s.hbmRead (base + 32) 8) + 32 * c.grammarState) 4)) 2
      | none => false)

/-- The twin takes over as the only home (R151), or ends the request where its copy is not in step. A copy that holds the last token is
DRAINING. -/
def State.failover (s : State) (k i : Nat) : State :=
  let x := s.latch k
  let c := s.ctx i
  let s := s.dropTxns fun t => t.who == .hinge k
  let s := s.setLatch k { x with st := .home, mirrored := false, mirrorActive := false, primary := false, openRegion := 0, homeNode := s.self }
  let s := s.modCtx i fun c => { c with isDest := false, homeNode := s.self, outRing := c.mirrorRing, partition := c.twinPart, placed := true }
  if !x.mirrorActive then (s.modCtx i fun c => { c with bound := false }).endReq i sStateLost
  else
    let s := s.enter i (if c.pauseHost || c.pauseSched || c.pauseParked then .paused else .decode)
    let s := s.postEvent 0x0303 (s.handleFor i) x.twinNode c.cookie
    let s := s.writeMisses i
    let s := (List.range (c.position - (c.promptLen + c.delivered))).foldl (fun s j =>
      let p := c.promptLen + c.delivered + j
      s.pushOut i { kind := 1, token := c.tokens.getD p 0, position := p }) s
    if s.copyOver c then ((s.enter i .draining).pushOut i { kind := 2, position := c.position, status := sOK }).settleDrain i else s

/-- The primary of a mirrored request hands it to the twin for a module drain, and releases it (17 R554). The message that tells the twin is
COMMIT to its copy (DEDUCED, log entry 49). -/
def State.handTwin (s : State) (k i : Nat) : State :=
  let x := s.latch k
  let s := s.dropTxns fun t => t.who == .mirror i
  let s := s.oneWay x.twinNode 0 { region := x.twinRegion, handle := x.handle } (.commit (s.ctxAge i))
  let s := s.modCtx i fun c => { c with moved := true, fwdNode := x.twinNode, fwdHandle := x.twinHandle }
  (((s.releaseCtx i).dropLatch k).enter i .done).finishCtxCmds i

/-- The two copies of a mirrored request compared (R154). The stamp that wins, or the poisoning. -/
def State.compareCopies (s : State) (k i : Nat) (t : TwinCopy) : State :=
  let x := s.latch k
  if t.stamp < x.stamp then (s.bump kStampRepairs |>.postEvent 0x0305 (s.handleFor i) x.stamp (s.ctx i).cookie).mirrorCopy k i
  else if x.stamp < t.stamp then
    let s := (s.bump kStampRepairs).postEvent 0x0305 (s.handleFor i) t.stamp (s.ctx i).cookie
    let s := (s.modLatch k fun x => { x with stamp := t.stamp }).modCtx i fun c => c.install t.moving
    let s := match s.regionOf i with
      | some r => (t.bytes.zipIdx).foldl (fun (s : State) (b, z) =>
          match s.backExt i (r.first + z / extBytes) with
          | (true, s) => if b = s.hbmByte (r.first * extBytes + z) then s else s.hbmPut (r.first * extBytes + z) b
          | (false, s) => s) s
      | none => s
    s.mirrorRecord k i (s.moving i) t.stamp
  else if t.same then s.mirrorRecord k i (s.moving i) x.stamp
  else
    let s := s.modLatch k fun x => { x with st := .poisoned }
    let s := match s.regionOf i with | some r => s.setRegion { r with poisoned := true } | none => s
    let s := (s.bump kCopyMismatches).postEvent 0x0306 (s.handleFor i) (s.ctx i).region (s.ctx i).cookie
    s.endReq i sCopyMismatch

/-! ## A node declared dead (04 R127, R129, R136, R146, R151) -/

/-- What a death means for one latch. -/
def State.latchPeerDead (s : State) (k n : Nat) : State :=
  let x := s.latch k
  let i := fld x.handle 12 0
  let mine : Bool := s.handleFor i == x.handle
  if x.mirrored && !x.primary && x.twinNode == n && mine then s.failover k i
  else
    let s := if x.mirrored && x.primary && x.twinNode == n && mine then s.suspendMirror k i else s
    if x.peer ≠ n then s
    else match x.st with
      | .pending => s.failDest i sStateLost false
      | .ready => s.failDest i sStateLost false
      | .forwarding => s.dropTxns fun t => t.who == .hinge k
      | .absent => s
      | .poisoned => s
      | .home =>
        if !mine || (s.ctx i).st.over then s.dropLatch k
        else if (s.ctx i).opening || (x.openRegion != 0 && (s.ctx i).st != .paused) then s.attemptFail i sStateLost
        else if x.abandon != 0 then (s.modLatch k fun x => { x with abandon := 0 }).backHome k i else s
      | .committing => if (s.ctx i).st = .paused then s.backHome k i else s.attemptFail i sStateLost

/-- Every movement of state with a node that is declared dead. -/
def State.hingeDead (s : State) (n : Nat) : State :=
  let ks := Tab.keysOf s.latches fun _ x => x.peer == n || (x.mirrored && x.twinNode == n)
  let s := ks.foldl (fun s k => s.latchPeerDead k n) s
  s.inflight.foldl (fun s f =>
    match f.wait with
    | .moveAsk node _ _ => if node = n then (s.dropTxns fun t => t.who == .command f.id).finish f (refuse sStateLost) else s
    | .fetch id _ => if id / 2 ^ 18 = n then s.finish f (refuse sBadField) else s
    | _ => s) s

/-- The context whose movement a transaction serves. -/
def State.txnCtx (s : State) : TxnFor → Option Nat
  | .push i => some i
  | .pull i _ => some i
  | .mirror i => some i
  | .hinge k => let i := fld (s.latch k).handle 12 0; if s.handleFor i = (s.latch k).handle then some i else none
  | _ => none

end Sys2Proof.Machine
end

