-- ==== Sys2Proof/Machine/HingeIn.lean ====
section
/-! DEFINITION. What each hinge message does where it arrives (04 R127 to R131, R146 to R152), MOVE_STATE, QUERY_LATCH, SET_MIRROR, and the
hinge's own events. The rows that deliver the messages are with the fabric's. -/

namespace Sys2Proof.Machine

/-- The reply header of a message: what the sender named, sent back to it. -/
def State.answer (s : State) (h : HHdr) (m : HMsg) : State :=
  if s.dead h.src then s else s.oneWay h.src 0 { region := h.region, handle := h.handle, attempt := h.attempt } m

/-- A redirect of a message that names a forwarded latch, counted (R147). -/
def State.redirectFrom (s : State) (k : Nat) (h : HHdr) : State :=
  let x := s.latch k
  (s.modLatch k fun x => { x with redirects := (x.redirects + 1) % 2 ^ 32, lastRedirect := s.now }).answer h (.redirect x.fwdNode x.fwdHandle)

/-- The latch a message to a destination names: by its region, else by its context handle. -/
def State.latchFor (s : State) (h : HHdr) : Option Nat :=
  match s.latchOfRegion h.region with
  | some k => some k
  | none => if h.region = 0 then s.latchOf h.handle else none

/-- The latch a message to a source names, by its own context's handle. -/
def State.sourceLatch (s : State) (h : HHdr) : Option Nat := s.latchOf h.handle

/-- Context of a latch. -/
def Latch.ctx (x : Latch) : Nat := fld x.handle 12 0

/-! ## Openings (03 R91, R585) -/

/-- Lines of a region that hold bytes of rows [0, rows) of some layer, as offsets in the region. -/
def rowLines (maxLen layers rowBytes rows : Nat) : List Nat :=
  (List.range layers).foldl (fun l k =>
    let lo := k * maxLen * rowBytes
    let ls := (List.range (lineCount lo (rows * rowBytes))).map fun n => (lo / 128 + n) * 128
    l ++ (if l.getLast? == ls.head? then ls.drop 1 else ls)) []

/-- Every line of the source's rows has been pulled: the source is told that the region is ready. -/
def State.pulled (s : State) (i rows : Nat) : State :=
  if (s.fab.txns ++ s.fab.unsent).any (fun t => match t.who with | .pull c _ => c == i | _ => false) then s
  else match s.latchOf (s.handleFor i) with
    | none => s
    | some k => s.hingeSend k (.accepted (s.handleFor i) (s.ctx i).region 0 rows)

/-- Rows per layer that MOVE_STATE pulls into a context's region are kept in `pushLeft` until PREPARE comes. -/
def State.startPull (s : State) (i node rows : Nat) (src : List (Nat × Nat)) : State :=
  let c := s.ctx i
  let s := s.modCtx i fun c => { c with pushLeft := rows }
  let s := (rowLines c.maxLen (s.layersOf c.model) (s.rowBytesOf c.model) rows).foldl (fun s o =>
    match src.find? (·.1 == o / extBytes) with
    | some e => s.request (.pull i o) node 1 1 0 (e.2 + o % extBytes) c.job (.bytes [])
    | none => s) s
  s.pulled i rows

/-- A line of a MOVE_STATE pull has arrived: its row bytes are written, their extent backed (R146, 07 R249). -/
def State.pullIn (s : State) (i off : Nat) (data : List Byte) (poison : Bool) : State :=
  let c := s.ctx i
  match s.regionOf i with
  | none => s
  | some r =>
    if poison then s.failDest i sTierFault true
    else match s.backExt i (r.first + off / extBytes) with
      | (false, s) => s.failDest i sQuota true
      | (true, s) =>
        let b := s.rowBytesOf c.model
        let mask := maskOf ((List.range 128).filter fun n => ((off + n) / b) % c.maxLen < c.pushLeft)
        (s.putLine ((r.first * extBytes + off) / 128) mask data false).pulled i c.pushLeft

/-- What MOVE_STATE is refused for on this node besides its parameters (04 R146 item 4). -/
def moveBar (s : State) : Option Ans := firstFail [conflict (s.compo.role == 0) s.compo.role, moduleBar s, lowPowerBar s 1]

/-- The opening that answers MOVE_STATE's query: judged here; a refusal completes the command. -/
def State.onMoveOpening (s : State) (h : HHdr) (o : Opening) (src : List (Nat × Nat)) (rows : Nat) : State :=
  let asked := s.inflight.findSome? fun f => match f.wait with
    | .moveAsk node handle ring => if node == h.src && handle == o.srcHandle then some (f, ring) else none
    | _ => none
  match asked with
  | none => s
  | some (f, ring) =>
    let s := s.dropTxns fun t => t.who == .command f.id
    let o := { o with f := { o.f with outRing := ring }, attempt := 1 }
    match moveBar s with
    | some a => s.finish f a
    | none => match s.judge o false with
      | some st => s.finish f (refuse st)
      | none => match s.acceptOpening o (f.id + 1) with
        | (.inl st, s) => s.finish f (refuse st)
        | (.inr i, s) => (s.setWait f.id (.move i)).startPull i h.src rows src

/-- The latch an opening opened already, where it is sent again. -/
def State.openedFor (s : State) (h : HHdr) (srcHandle : Nat) : Option Nat :=
  Tab.first? s.latches fun _ x =>
    (x.st == .pending || x.st == .ready) && x.peer == h.src && x.peerHandle == srcHandle && x.attempt == h.attempt

/-- REGION_OPENING: accepted with the handle, the region and its place, or refused. -/
def State.onOpening (s : State) (h : HHdr) (o : Opening) (move : Bool) (src : List (Nat × Nat)) (rows : Nat) : State :=
  let reply (s : State) (i : Nat) : State :=
    let base := match s.regionOf i with | some r => r.first * extBytes | none => 0
    s.answer { h with region := (s.ctx i).region, handle := o.srcHandle } (.accepted (s.handleFor i) (s.ctx i).region base 0)
  if move then s.onMoveOpening h o src rows
  else match s.openedFor h o.srcHandle with
    | some k => reply s (s.latch k).ctx
    | none =>
      let no (s : State) (st : Nat) : State := s.answer { h with region := 0, handle := o.srcHandle } (.refuse st)
      match s.judge o true with
      | some st => no s st
      | none => match s.acceptOpening o 0 with
        | (.inl st, s) => no s st
        | (.inr i, s) => reply s i

/-- OPENING_RESPONSE, at the source. -/
def State.onOpeningResponse (s : State) (h : HHdr) (ok : Bool) (status handle base rows : Nat) : State :=
  match s.sourceLatch h with
  | none => s
  | some k =>
    let x := s.latch k
    let i := x.ctx
    let c := s.ctx i
    let live : Bool := s.handleFor i == x.handle && !c.st.over
    if x.twinNode == h.src && live && (s.inflight.any fun f => f.wait == .mirror i true) && x.twinHandle == 0 then
      -- the twin's answer to SET_MIRROR
      let s := s.dropTxns fun t => t.who == .mirror i
      if ok then
        (s.setLatch k { x with mirrored := true, primary := true, twinRegion := h.region, twinHandle := handle, twinBase := base }).mirrorCopy k i
      else ((s.setLatch k { x with twinNode := 0 }).finishAll (fun w => w == .mirror i true) (refuse status))
    else if live && c.st == .paused && x.st == .home && x.openRegion == 0 && ok && x.abandon == 0 then
      -- MOVE_STATE's region is ready: the handover begins, if the request has not moved on since the query
      let s := s.setLatch k { x with peer := h.src, openRegion := h.region, peerHandle := handle, attempt := h.attempt }
      if rows + 1 = c.position then s.startPrepare i
      else (s.modLatch k fun x => { x with abandon := sConflict + 1 }).hingeSend k (.abandon sConflict)
    else if x.peer ≠ h.src ∨ x.attempt ≠ h.attempt then s
    else if x.abandon ≠ 0 then
      if !ok then s.dropLatch k
      else if x.openRegion = 0 then
        let s := s.dropTxns fun t => t.who == .hinge k
        (s.setLatch k { x with openRegion := h.region, peerHandle := handle }).hingeSend k (.abandon (x.abandon - 1))
      else s
    else if live && c.opening then
      if ok then
        let s := s.dropTxns fun t => t.who == .hinge k
        ((s.setLatch k { x with openRegion := h.region, peerHandle := handle, peerBase := base }).modCtx i
          fun c => { c with opening := false }).advancePush i
      else s.attemptFail i status
    else if ok && !live && x.st != .forwarding then
      s.answer { h with handle } (.abandon sStateLost)
    else s

/-! ## PREPARE, COMMIT, ABANDON at the destination (R127) -/

def State.onPrepare (s : State) (h : HHdr) (m : ReqMoving) (age stamp moves : Nat) : State :=
  match s.latchFor h with
  | none => s.answer h (.refuse sStateLost)
  | some k =>
    let x := s.latch k
    let i := x.ctx
    if x.st = .forwarding then s.redirectFrom k h
    else if x.mirrored && !x.primary then
      let s := s.modCtx i fun c => { c.install m with ageBase := age, ageAt := s.now }
      (s.setLatch k { x with st := .ready, stamp, mirrorActive := true }).answer { h with handle := x.peerHandle } (.ready (s.handleFor i))
    else if x.attempt ≠ h.attempt then s
    else if x.st = .pending then
      let s := (s.dropTxns fun t => t.who == .hinge k).modCtx i fun c =>
        { c.install m with ageBase := age, ageAt := s.now, pushLeft := 0 }
      (s.setLatch k { x with st := .ready, stamp, moves }).answer { h with handle := x.peerHandle } (.ready (s.handleFor i))
    else if x.st = .ready then s.answer { h with handle := x.peerHandle } (.ready (s.handleFor i))
    else s

def State.onCommit (s : State) (h : HHdr) (age : Nat) : State :=
  match s.latchFor h with
  | none => s.answer h (.refuse sStateLost)
  | some k =>
    let x := s.latch k
    let reply (s : State) : State := s.answer { h with handle := x.peerHandle } .commitAck
    if x.st = .forwarding then s.redirectFrom k h
    else if x.mirrored && !x.primary && x.twinNode == h.src && s.handleFor x.ctx == x.handle then s.failover k x.ctx
    else if x.st = .ready ∧ x.attempt = h.attempt ∧ !x.mirrored then reply (s.commitDest k x.ctx age)
    else if x.st = .home then reply s
    else s

/-- The twin's copy released: its resources given back, nothing posted. -/
def State.dropCopy (s : State) (k i : Nat) : State := ((s.dropLatch k).releaseCtx i).freeCtxAt i

def State.onAbandon (s : State) (h : HHdr) (status : Nat) : State :=
  match s.latchFor h with
  | none => s.answer h .abandonAck
  | some k =>
    let x := s.latch k
    let reply (s : State) : State := s.answer { h with handle := x.peerHandle } .abandonAck
    if x.st = .forwarding then s.redirectFrom k h
    else if x.mirrored && !x.primary then reply (s.dropCopy k x.ctx)
    else if (x.st = .pending ∨ x.st = .ready) ∧ x.attempt = h.attempt then reply (s.failDest x.ctx status false)
    else s

/-! ## READY, COMMIT_ACK, REFUSE, ABANDON_ACK, WITHDRAW at the source (R127, R128) -/

/-- The twin holds what was sent to it: SET_MIRROR completes, or mirroring resumes. -/
def State.twinReady (s : State) (k i : Nat) : State :=
  let s := s.dropTxns fun t => t.who == .mirror i && t.pkt.ptype == 0xD
  let s := s.modLatch k fun x => { x with mirrorActive := true }
  s.finishAll (fun w => w == .mirror i true) {}

def State.onReady (s : State) (h : HHdr) (destHandle : Nat) : State :=
  match s.sourceLatch h with
  | none => s.answer { h with handle := destHandle } (.abandon sStateLost)
  | some k =>
    let x := s.latch k
    let i := x.ctx
    if x.mirrored && x.primary && x.twinNode == h.src && x.twinRegion == h.region then s.twinReady k i
    else if x.openRegion ≠ h.region ∨ x.attempt ≠ h.attempt then s
    else match x.st with
      | .committing => s.commitSource k i destHandle
      | .forwarding => s.answer { h with handle := destHandle } (.commit (s.ctx i).tHandoffUs)
      | .home => if x.abandon = 0 then s else s.answer { h with handle := destHandle } (.abandon (x.abandon - 1))
      | .absent => s
      | .pending => s
      | .ready => s
      | .poisoned => s

def State.onCommitAck (s : State) (h : HHdr) : State :=
  match s.sourceLatch h with
  | some k => if (s.latch k).st = .forwarding then s.dropTxns fun t => t.who == .hinge k else s
  | none => s

/-- REFUSE. One that names no region answers MOVE_STATE's query: its status, with the source context's state code above it and a moved
context's forwarding record above that. -/
def State.onRefuse (s : State) (h : HHdr) (status : Nat) : State :=
  if h.region = 0 then
    let asked := s.inflight.find? fun f => match f.wait with | .moveAsk n c _ => n == h.src && c == h.handle | _ => false
    match asked with
    | none => s
    | some f =>
      let s := s.dropTxns fun t => t.who == .command f.id
      let a := refuse (status % 65536) (status / 65536 % 256) (status / 2 ^ 24)
      if a.status = sBadField then s.finish f a else s.finish f ((moveBar s).getD a)
  else match s.sourceLatch h with
    | none => s
    | some k =>
      let x := s.latch k
      let i := x.ctx
      let live : Bool := s.handleFor i == x.handle && !(s.ctx i).st.over
      if x.mirrored && x.primary && x.twinNode == h.src && x.twinRegion == h.region then
        (s.endMirror k i).finishAll (fun w => w == .mirror i true) (refuse status)
      else if x.peer ≠ h.src ∨ x.attempt ≠ h.attempt ∨ x.openRegion ≠ h.region ∨ x.abandon ≠ 0 ∨ !live then s
      else if x.st = .home ∨ x.st = .committing then
        if (s.ctx i).st = .paused then s.backHome k i else s.attemptFail i status
      else s

def State.onAbandonAck (s : State) (h : HHdr) : State :=
  match s.sourceLatch h with
  | none => s
  | some k =>
    let x := s.latch k
    let i := x.ctx
    if x.mirrored && x.primary && x.twinRegion == h.region && x.twinNode == h.src then
      (s.endMirror k i).finishAll (fun w => w == .mirror i false) {}
    else if x.abandon = 0 ∨ x.peer ≠ h.src then s
    else if s.handleFor i == x.handle && !(s.ctx i).st.over then
      (s.modLatch k fun x => { x with abandon := 0 }).backHome k i
    else s.dropLatch k

def State.onWithdraw (s : State) (h : HHdr) : State :=
  match s.sourceLatch h with
  | none => s.answer { h with handle := 0 } (.abandon sStateLost)
  | some k =>
    let x := s.latch k
    if x.abandon ≠ 0 then s.answer { h with handle := x.peerHandle } (.abandon (x.abandon - 1))
    else if x.st = .home ∨ x.st = .committing then
      let s := s.dropTxns fun t => t.who == .hinge k
      (s.setLatch k { x with st := .home, peer := h.src, openRegion := h.region, attempt := h.attempt, fwdNode := 0,
                             abandon := sTimeout + 1 }).hingeSend k (.abandon sTimeout)
    else if x.st = .forwarding then s.answer { h with handle := x.fwdHandle } (.commit (s.ctx x.ctx).tHandoffUs)
    else s

/-- A redirect: the message outstanding is sent again to the new home (R147). -/
def State.onRedirect (s : State) (h : HHdr) (node handle : Nat) : State :=
  match s.sourceLatch h with
  | none => s
  | some k =>
    match s.fab.txns.find? fun t => t.who == .hinge k && t.pkt.dst == h.src with
    | some t =>
      let s := s.dropTxn t
      let s := s.modLatch k fun x => { x with peer := node, peerHandle := handle, openRegion := 0 }
      (match t.pkt.pay with | .hinge _ m => s.hingeSend k m | _ => s)
    | none => s

/-! ## MOVE_STATE (R145, R146) -/

def rowMoveState : CmdRow :=
  { opcode := 0x0301, resv := [(47, 46), (383, 56)],
    check := fun p s =>
      let n := p.f 45 32
      firstFail
        [badHandle p, badFld (!s.mapped n || n == s.self || (s.oqr (p.f 55 48)).st != .active), (s.dead n, refuse sStateLost)],
    act := fun p id s =>
      let n := p.f 45 32
      let s := s.adopt kMoveTimeout
      .wait (.moveAsk n (p.f 31 0) (p.f 55 48)) false (some (ms (s.kv kMoveTimeout)))
        (s.request (.command id) n 0xD 0 0 0 0 (.hinge { handle := p.f 31 0 } .query)) }

def execMoveState (p : Pkt) (s : State) : Res := .next (hostCommand rowMoveState p s)

/-- Where a region's data lie: (extent of the region, offset in this node's offset space) of each extent that holds some. -/
def State.regionPlaces (s : State) (r : Region) : List (Nat × Nat) :=
  (List.range r.count).filterMap fun k =>
    if (s.backed r).contains k then some (k, (r.first + k) * extBytes)
    else (r.demoted.find? (·.1 == k)).map fun d => (k, tierBase + t2Off d.2)

/-- SOURCE_QUERY: the source's answer, with no effect on it but the comparison of a mirrored region's copies (R146, R154). -/
def State.onQuery (s : State) (h : HHdr) (twin : List TwinCopy) : State :=
  let no (s : State) (st : Nat) : State := s.answer { h with region := 0 } (.refuse st)
  match s.ctxNamed h.handle with
  | none => no s sBadField
  | some i =>
    let s := match s.latchOf (s.handleFor i), twin with
      | some k, t :: _ => if (s.latch k).mirrored && (s.latch k).primary && !s.mirrorBusy i then s.compareCopies k i t else s
      | _, _ => s
    let c := s.ctx i
    let home : Bool := match s.latchOf (s.handleFor i) with
      | some k => (s.latch k).st == .home && (s.latch k).openRegion == 0 && (s.latch k).abandon == 0
      | none => false
    if c.st != .paused || !home then
      no s (sConflict + c.st.code * 65536 + (if c.moved then (c.fwdHandle + c.fwdNode * 2 ^ 32) * 2 ^ 24 else 0))
    else
      let (md, dd, gd) := s.ctxDigests c
      let src := match s.regionOf i with | some r => s.regionPlaces r | none => []
      s.answer { h with region := 0 } (.opening c.fixed md dd gd (s.ctxAge i) h.handle true src (c.position - 1) none)

/-- WITHDRAW sent to the source of a MOVE_STATE on behalf of its context. -/
def State.withdraw (s : State) (i : Nat) (later : Bool) : State :=
  match s.latchOf (s.handleFor i) with
  | some k =>
    let x := s.latch k
    let s := s.modLatch k fun x => { x with retryLater := x.retryLater || later }
    if x.withdrawing then s
    else
      let s := s.dropTxns fun t => t.who == .hinge k || (match t.who with | .pull c _ => c == i | _ => false)
      (s.modLatch k fun x => { x with withdrawing := true }).hingeSend k .withdraw
  | none => s

/-- The bound of MOVE_STATE has expired before the commit: WITHDRAW is sent (R146). -/
def execMoveStateBoundExpiry (cmd : Nat) (s : State) : Res :=
  match s.inflight.find? fun f => f.id == cmd with
  | none => .next s
  | some f =>
    if !s.runs || s.now < f.due then .next s
    else match f.wait with
      | .moveAsk _ _ _ => .next ((s.dropTxns fun t => t.who == .command f.id).finish f (refuse sTimeout))
      | .move i => .next (s.withdraw i false)
      | _ => .next s

/-! ## QUERY_LATCH (R122, R155) -/

/-- Latch state codes (R123). -/
def LatchSt.code : LatchSt → Nat
  | .absent => 0 | .pending => 1 | .ready => 2 | .home => 3 | .committing => 4 | .forwarding => 5 | .poisoned => 6

/-- The 64 bytes of a latch record. -/
def Latch.record (x : Latch) : List Byte :=
  toLE 64 (pack
    [(32, x.region), (3, x.st.code), (1, b2n x.mirrored), (1, b2n x.mirrorActive), (1, b2n x.primary), (2, 0), (14, x.homeNode), (2, 0),
     (14, if x.mirrored then x.twinNode else 0), (2, 0), (14, if x.st == .committing || x.st == .forwarding then x.fwdNode else 0), (2, 0),
     (8, x.attempt), (32, x.handle), (32, if x.st == .forwarding then x.fwdHandle else 0), (64, x.stamp), (16, x.epoch), (13, x.channel),
     (3, 0), (32, x.redirects), (32, x.moves), (64, x.tState)])

def latchAsked (p : Pkt) (s : State) : Option Nat :=
  if p.b 32 then s.latchOfRegion (p.f 31 0) else (s.ctxNamed p.handle).bind fun i => s.latchOf (s.handleFor i)

def rowQueryLatch : CmdRow :=
  { opcode := 0x0304, resv := [(63, 33), (383, 160)],
    check := fun p s =>
      firstFail [badLen (outside (p.f 159 128) 64 4096),
        badFld (misaligned (p.f 127 64) 64 || (!p.b 32 && p.f 31 0 != 0) || (latchAsked p s).isNone)],
    act := fun p _ s =>
      match latchAsked p s with
      | some k => .done { wr := [(p.f 127 64, (s.latch k).record)] } s
      | none => .done (refuse sBadField) s }

def execQueryLatch (p : Pkt) (s : State) : Res := .next (hostCommand rowQueryLatch p s)

/-! ## SET_MIRROR (R149) -/

/-- The latch of a context already has the mirroring asked for. -/
def State.mirrorIs (s : State) (i : Nat) (on : Bool) : Bool :=
  match s.latchOf (s.handleFor i) with
  | some k => if on then (s.latch k).mirrored && (s.latch k).mirrorActive else !(s.latch k).mirrored
  | none => !on

def rowSetMirror : CmdRow :=
  { opcode := 0x0305, resv := [(7, 1), (383, 20)],
    check := fun p s => onRequest p s fun i c =>
      [badFld (!p.b 0 && p.f 19 8 != 0), conflict (c.st != .decode && c.st != .paused) c.st.code,
       (if p.b 0 then moduleBar s else (false, {})), (s.mirrorIs i (p.b 0), { status := sOkAlready }),
       noRes (p.b 0 && !s.twinValid || !s.compo.mapped)],
    act := fun p _ s =>
      match s.ctxNamed p.handle with
      | none => .done (refuse sBadField) s
      | some i =>
        match s.latchOf (s.handleFor i) with
        | none => .done (refuse sBadField) s
        | some k =>
          let s := s.adopt kMoveTimeout
          let bound := some (ms (s.kv kMoveTimeout))
          let c := s.ctx i
          let x := s.latch k
          if p.b 0 then
            let (md, dd, gd) := s.ctxDigests c
            let m : HMsg := .opening c.fixed md dd gd (s.ctxAge i) p.handle false [] 0 (some (p.f 15 8, p.f 19 16))
            let s := s.setLatch k { x with twinNode := s.twinNode, twinHandle := 0, twinRegion := 0 }
            .wait (.mirror i true) false bound (s.request (.mirror i) s.twinNode 0xD 0 0 0 0 (.hinge { handle := p.handle } m))
          else if s.dead x.twinNode then .done {} (s.endMirror k i)
          else
            .wait (.mirror i false) false bound
              (s.request (.mirror i) x.twinNode 0xD 0 0 0 0 (.hinge { region := x.twinRegion, handle := x.handle } (.abandon sOK))) }

def execSetMirror (p : Pkt) (s : State) : Res := .next (hostCommand rowSetMirror p s)

/-- Every copy of this device compared with the other one. -/
def State.compareAll (s : State) (twins : List TwinCopy) : State :=
  twins.foldl (fun s t =>
    match s.latchOf t.handle with
    | some k =>
      let x := s.latch k
      if x.mirrored && x.primary && x.twinHandle != 0 && s.handleFor x.ctx == x.handle && !s.mirrorBusy x.ctx then s.compareCopies k x.ctx t
      else s
    | none => s) s

/-- The scrub of R154. -/
def execMirrorScrub (twins : List TwinCopy) (s : State) : Res :=
  if !s.fwUp then .next s
  else
    let s := (s.adopt kScrubMs).adopt kScrubEnable
    if s.kv kScrubEnable = 1 then .next (s.compareAll twins) else .next s

/-- The twin link fails while both devices live (R152). -/
def execTwinLinkFail (s : State) : Res :=
  if !s.runs then .next s
  else .next ((Tab.keysOf s.latches fun _ x => x.mirrored).foldl (fun s k =>
    let x := s.latch k
    if x.primary then s.suspendMirror k x.ctx else s.setLatch k { x with mirrorActive := false }) s)

/-- The twin link returns: the copies are compared and mirroring resumes. -/
def execTwinLinkReturn (twins : List TwinCopy) (s : State) : Res := if s.runs then .next (s.compareAll twins) else .next s

/-! ## Pushes and forwarding records (R134, R148) -/

/-- The push of a layer starts: its rows are complete, and the one before it is acknowledged. -/
def execLayerPushStart (ctx layer : Nat) (s : State) : Res :=
  let c := s.ctx ctx
  if !s.runs || (c.st != .prefill && !(c.st == .handoff && !c.isDest)) || (s.opened ctx).isNone || !c.prefixPushed || c.pushing != 0 ||
      c.pushLeft != 0 || layer != c.layersPushed || c.layersDone ≤ layer || c.toCompute = 0 then .next s
  else .next ((s.modCtx ctx fun c => { c with pushing := layer + 1 }).pushRows ctx layer c.prefixReused (c.promptLen - 1))

/-- Forwarding records past their times are removed. -/
def execFwdRecordCheck (s : State) : Res :=
  if !s.fwUp then .next s
  else
    let s := (s.adopt kFwdHold).adopt kFwdDrain
    let old := Tab.keysOf s.latches fun _ x =>
      x.st == .forwarding && x.tState + us (s.kv kFwdHold) ≤ s.now && (x.redirects == 0 || x.lastRedirect + us (s.kv kFwdDrain) ≤ s.now)
    .next (old.foldl State.dropLatch s)

end Sys2Proof.Machine
end

