-- ==== Sys2Proof/Machine/Manifest.lean ====
section
/-! DEFINITION. The composition manifest: its checks, owner keys, STAGE_MANIFEST, the manifest region of the boot flash and the flash
handshake (16 R516 to R521, 18 R570, R574). -/

namespace Sys2Proof.Machine

/-! ## Structure (R516 to R519) -/

/-- `lms_sig_len` of the signature block; offset of the block. -/
def mSigAt (b : List Byte) : Nat := bfld b 191 160
def mLmsLen (b : List Byte) : Nat := bytesAt b (mSigAt b) 2

/-- Sizes and counts that are out of range or disagree. -/
def mLenBad (b : List Byte) (size : Nat) : Bool :=
  outside size 512 2097152 || bfld b 95 64 != size || outside (mDevCount b) 1 16384 || 4095 < mJobCount b ||
    mSigAt b != 256 + 64 * mDevCount b + 16 * mJobCount b || outside (mLmsLen b) 1292 9324 || size != mSigAt b + 257 + mLmsLen b

/-- The header is in order. -/
def mHeaderOk (b : List Byte) (enroll : Bool) : Bool :=
  bfld b 31 0 == 0x53464D56 && bfld b 47 32 == 1 && bfld b 63 48 == 0x100 && bfld b 143 143 == 0 && bfld b 159 157 == 0 &&
    (enroll || allZero ((b.drop 24).take 48)) && allZero ((b.drop 72).take 184)

/-- A job is listed. -/
def mHasJob (b : List Byte) (j : Nat) : Bool := (List.range (mJobCount b)).any fun i => mJob b i 11 0 == j

/-- The twin an entry names names it back. -/
def mTwinOk (b : List Byte) (i : Nat) : Bool :=
  if mDev b i 85 85 = 0 then mDev b i 101 88 == 0
  else match mFindNode b (mDev b i 101 88) with
    | some k => k != i && mDev b k 85 85 == 1 && mDev b k 101 88 == mDev b i 77 64
    | none => false

/-- Device entry `i` is in order. -/
def mDevOk (b : List Byte) (i : Nat) : Bool :=
  let f := mDev b i
  let n := f 111 108
  f 87 86 == 0 && f 103 102 == 0 && f 107 107 == 0 && f 127 112 == 0 && allZero ((b.drop (256 + 64 * i + 42)).take 22) &&
    (i == 0 || mDev b (i - 1) 77 64 < f 77 64) && !((List.range i).any fun k => mDev b k 63 0 == f 63 0) &&
    (f 79 78 == 3 || bitAt (f 83 80) (f 79 78)) && mTwinOk b i && (n == 0 || 2 ≤ n && n ≤ 8) &&
    (if n = 0 then f 106 104 == 0 else f 106 104 < n) &&
    (List.range 16).all fun k => mSliceJob b i k == 0 || (f 79 78 != 3 && mHasJob b (mSliceJob b i k))

/-- Job entry `i` is in order. -/
def mJobOk (b : List Byte) (i : Nat) : Bool :=
  let f := mJob b i
  f 11 0 != 0 && f 15 12 == 0 && f 31 26 == 0 && f 39 32 != 0 && f 127 40 == 0 && (i == 0 || mJob b (i - 1) 11 0 < f 11 0)

/-- Offset of the first structure that fails; a manifest with no entry for this device fails at its header (log entry 31). -/
def mFault (uid : Nat) (b : List Byte) (enroll : Bool) : Option Nat :=
  if !mHeaderOk b enroll || (mFindUid b uid).isNone then some 0
  else match (List.range (mDevCount b)).find? fun i => !mDevOk b i with
    | some i => some (256 + 64 * i)
    | none => match (List.range (mJobCount b)).find? fun i => !mJobOk b i with
      | some i => some (256 + 64 * mDevCount b + 16 * i)
      | none => if allZero ((b.drop (mSigAt b + 2)).take 6) then none else some (mSigAt b)

/-! ## Trust (R519, R520) -/

/-- The owner's keys and signatures in the signature block. -/
def mP384 (b : List Byte) : List Byte := (b.drop (mSigAt b + 8)).take 97
def mLms (b : List Byte) : List Byte := (b.drop (mSigAt b + 105)).take 56
def mEcdsa (b : List Byte) : List Byte := (b.drop (mSigAt b + 161)).take 96
def mLmsSig (b : List Byte) : List Byte := (b.drop (mSigAt b + 257)).take (mLmsLen b)

/-- The owner digest. -/
def mOwner (b : List Byte) : List Byte := sha384 (mP384 b ++ mLms b)

/-- The owner slot that is fused with the digest and not revoked. -/
def State.ownerSlot (s : State) (d : List Byte) : Option Nat :=
  (List.range 4).find? fun i => s.idn.ownerSlots.getD i [] == d && !bitAt s.idn.ownerRevoked i

/-- Owner slots fused. -/
def State.slotsUsed (s : State) : Nat := (s.idn.ownerSlots.filter fun x => !x.isEmpty).length

/-- The manifest is trusted. -/
def State.trusted (s : State) (b : List Byte) : Bool :=
  let body := b.take (mSigAt b)
  (s.ownerSlot (mOwner b)).isSome && ecdsaVerify (mP384 b) body (mEcdsa b) && lmsVerify (fun _ _ => true) (mLms b) body (mLmsSig b)

/-- A slot fused. -/
def fuseSlot (l : List (List Byte)) (i : Nat) (d : List Byte) : List (List Byte) := (List.range 4).map fun k => if k = i then d else l.getD k []

/-- Enrolment burns the slot (R520). -/
def State.enrol (s : State) (b : List Byte) : State :=
  let n := s.slotsUsed
  let i := s.idn
  match n, s.ownerSlot (mOwner b) with
  | 0, _ => { s with idn := { i with ownerSlots := fuseSlot i.ownerSlots 0 (mOwner b) } }
  | n, some k =>
    { s with idn := { i with ownerSlots := fuseSlot i.ownerSlots n ((b.drop 24).take 48), ownerRevoked := setBit i.ownerRevoked k true } }
  | _, none => s

/-- The manifest of the bytes read. -/
def manifestOf (b : List Byte) : Manifest := { body := b.take (mSigAt b), digest := sha384 (b.take (mSigAt b)) }

/-! ## The manifest region (R500, R521) -/

/-- Places of the two copies and of their sequence words in the region (log entry 32). -/
def copyAt (i : Nat) : Nat := 0x04000000 + 0x200000 * i
def seqAt (i : Nat) : Nat := 0x04400000 + 8 * i

/-- Sequence word of a copy. -/
def State.copySeq (s : State) (i : Nat) : Nat := leNat (Mem.readN s.idn.flash (seqAt i) 4)

/-- The older copy. -/
def State.olderCopy (s : State) : Nat := if s.copySeq 1 < s.copySeq 0 then 1 else 0

/-- The manifest written to the older copy, then the copy's sequence word set. -/
def State.flashManifest (s : State) (b : List Byte) : State :=
  let i := s.olderCopy
  let seq := max (s.copySeq 0) (s.copySeq 1) + 1
  let f := Mem.writeN s.idn.flash (copyAt i) b
  { s with idn := { s.idn with flash := Mem.writeN f (seqAt i) (toLE 4 seq) } }

/-- The persisted manifest that a cold boot finds: of the newer copy that is valid and names this device. -/
def State.flashStored (s : State) : Option Manifest :=
  let order := if s.copySeq 0 < s.copySeq 1 then [1, 0] else [0, 1]
  order.findSome? fun i =>
    let b := Mem.readN s.idn.flash (copyAt i) 2097152
    let size := bfld b 95 64
    if s.copySeq i != 0 && !mLenBad b size && (mFault s.idn.uid b true).isNone && s.trusted b then some (manifestOf b) else none

/-! ## STAGE_MANIFEST (R521) -/

/-- The manifest's bytes as read from host memory. -/
def manifestBytes (p : Pkt) : List Byte := padTo (p.f 95 64) (p.data.getD [])

def checkStage (p : Pkt) (s : State) : Option Ans :=
  let b := manifestBytes p
  let enroll := p.b 97
  let first : Bool := enroll && s.slotsUsed == 0
  firstFail
    [badLen (outside (p.f 95 64) 512 2097152), badFld p.data.isNone, badLen (mLenBad b (p.f 95 64)), badHandle p,
     badFld (misaligned (p.f 63 0) 64),
     ((mFault s.idn.uid b enroll).isSome, refuse sBadField 0 ((mFault s.idn.uid b enroll).getD 0)),
     badFld (enroll && s.slotsUsed != 0 && allZero ((b.drop 24).take 48)),
     (!(first || s.trusted b) || bfld b 127 96 < s.mfld 127 96, refuse sAuthFailed), conflict (s.compo.phase != .idle) 0x30,
     noRes (enroll && s.slotsUsed == 4)]

/-- The commit: the manifest staged and, with `enroll`, the slot burnt. -/
def State.stage (s : State) (b : List Byte) (enroll : Bool) : State :=
  let s := { s with compo := { s.compo with staged := some (manifestOf b) } }
  if enroll then s.enrol b else s

/-- The flash can be written: not granted to the board, no write in progress. -/
def State.flashFree (s : State) : Bool := !s.board.flashGnt && !s.idn.flashBusy

/-- A persisted manifest staged and its write begun. -/
def State.beginPersist (s : State) (id : Nat) (b : List Byte) (enroll : Bool) : State :=
  let s := (s.stage b enroll).commitCmd id
  { s with idn := { s.idn with flashBusy := true } }

/-- The next STAGE_MANIFEST that waits for the flash goes on. -/
def State.nextPersist (s : State) : State :=
  if s.flashFree then
    match s.inflight.findSome? fun f => match f.wait with
        | .persist _ b e => if f.committed then none else some (f.id, b, e)
        | _ => none with
    | some (id, b, e) => s.beginPersist id b e
    | none => s
  else s

def rowStageManifest : CmdRow :=
  { opcode := 0x0E03, resv := [(383, 98)], check := checkStage,
    act := fun p id s =>
      let b := manifestBytes p
      let m := manifestOf b
      if (match s.compo.staged with | some x => x.digest == m.digest | none => false) then .done { status := sOkAlready } s
      else if !p.b 96 then .done {} (s.stage b (p.b 97))
      else if s.flashFree then .wait (.persist m.body b (p.b 97)) true none (s.beginPersist id b (p.b 97))
      else .wait (.persist m.body b (p.b 97)) false none s }

def execStageManifest (p : Pkt) (s : State) : Res := .next (hostCommand rowStageManifest p s)

/-- A manifest write ends: STAGE_MANIFEST completes; a grant to the board, a further write or OFF_READY that waited for it follows. -/
def execFlashWriteComplete (s : State) : Res :=
  if s.runs && s.idn.flashBusy then
    let f := s.inflight.findSome? fun f => match f.wait with
      | .persist _ b _ => if f.committed then some (f, b) else none
      | _ => none
    let s := { s with idn := { s.idn with flashBusy := false } }
    let s := match f with | some (f, b) => (s.flashManifest b).finish f {} | none => s
    let s := match s.levelWait with | some (f, 3) => (s.setLevel 3).finish f {} | _ => s
    .next (if s.board.flashReq then { s with board := { s.board with flashGnt := true } } else s.nextPersist)
  else .next s

/-! ## The flash handshake (18 R574) -/

/-- FLASH_REQ_N falls: the flash is granted once no write is in progress. -/
def execFlashReq (s : State) : Res :=
  if s.board.pwrok then .next { s with board := { s.board with flashReq := true, flashGnt := s.board.flashGnt || !s.idn.flashBusy } } else .next s

/-- FLASH_REQ_N is released: the device takes the flash back and resumes. -/
def execFlashRelease (s : State) : Res :=
  if s.board.pwrok && s.board.flashReq then
    let s := { s with board := { s.board with flashReq := false, flashGnt := false } }
    .next (if s.fwUp then s.nextPersist else s)
  else .next s

end Sys2Proof.Machine
end

