-- ==== Sys2Proof/Machine/Prefix.lean ====
section
/-! DEFINITION. Prefix reuse: the lookup, the fetch of reused rows, FETCH_PREFIX and SEAL_PREFIX; the end of the device's copies; cascaded
searches, whose answers may be a lookup's (02 R584, 03 R90, 04 R139 to R144, 15 R481 to R485, 18 R580). -/

namespace Sys2Proof.Machine

/-! ## Block hashes (04 R139) -/

/-- Hashes of `n` blocks of tokens, as the first 16 bytes of each digest. -/
def blockHashes (md dd : List Byte) (tenant : Nat) : Nat → List Byte → List Nat → List (List Byte)
  | 0, _, _ => []
  | n + 1, prev, toks =>
    let h := (sha384 (prev ++ md ++ dd ++ toLE 2 tenant ++ (toks.take 64).flatMap (toLE 4 ·))).take 16
    h :: blockHashes md dd tenant n h (toks.drop 64)

/-- Hashes of the first `n` blocks of a token list for a request. -/
def State.hashes (s : State) (c : Ctx) (toks : List Nat) (n : Nat) : List Nat :=
  let (md, dd, _) := s.ctxDigests c
  (blockHashes md (padTo 48 dd) c.tenant n (List.replicate 16 0) toks).map leNat

/-! ## The lookup (03 R90, 04 R141, 15 R485) -/

/-- The prefix index, if its table is ACTIVE with width 1. -/
def State.indexTable (s : State) : Option Nat :=
  let k := s.kv kPrefixTable
  if (s.table k).active && (s.table k).width == 1 then some k else none

def allOnes : Nat := 2 ^ 160 - 1

/-- Blocks (index, hash) searched for from the highest downward until one is found: the block and the object. -/
def State.searchBlocks (s : State) (k : Nat) : List (Nat × Nat) → Option (Nat × Nat) × State
  | [] => (none, s)
  | (j, h) :: rest =>
    match s.searchOne k false (prefixKey h j) allOnes with
    | (some (_, e), s) => (some (j, e.result), s)
    | (none, s) => State.searchBlocks s k rest

/-- Whole blocks of a request's prompt below its last position, highest first. -/
def State.promptBlocks (s : State) (c : Ctx) : List (Nat × Nat) :=
  let n := (c.promptLen - 1) / 64
  ((List.range n).zip (s.hashes c c.tokens n)).reverse

/-- What the lookup found: the rows to fetch, or none. -/
def State.prefixFound (s : State) (i : Nat) (r : Option (Nat × Nat)) : State :=
  let s := match r with
    | some (j, obj) =>
      let s := match Tab.find? s.prefixes obj with
        | some o => { s with prefixes := Tab.set s.prefixes obj { o with used := s.now } }
        | none => s
      s.modCtx i fun c => { c with prefixSt := .fetching, prefixObj := obj, prefixReused := 64 * (j + 1) }
    | none => s.modCtx i fun c => { c with prefixSt := .inPlace, prefixReused := 0 }
  s.firstAttempt i

/-- A cascaded lookup of the next lower block. -/
def State.cascLookup (s : State) (i : Nat) : List (Nat × Nat) → State
  | [] => s.prefixFound i none
  | (j, h) :: _ =>
    match s.indexTable with
    | some k => if s.tum.ringDown then s.prefixFound i none else s.cascSearch k 0 (i + 1) j (prefixKey h j) allOnes
    | none => s.prefixFound i none

/-- PREFIX_LOOKUP of a new request. -/
def execPrefixLookup (ctx : Nat) (s : State) : Res :=
  let c := s.ctx ctx
  if !s.fwUp || c.st != .admitted || c.prefixSt != .unlooked then .next s
  else
    let s := s.adopt kPrefixTable
    let s := s.modCtx ctx fun c => { c with prefixSt := .searching }
    match s.indexTable with
    | none => .next (s.prefixFound ctx none)
    | some k =>
      if (s.table k).cascade then .next (s.cascLookup ctx (s.promptBlocks c))
      else let r := s.searchBlocks k (s.promptBlocks c); .next (r.2.prefixFound ctx r.1)

/-! ## The fetch of reused rows (04 R142) -/

/-- Rows of an object as this node holds it: the bytes of rows [0, n) of layer `l`. -/
def State.objectRows (s : State) (o : PrefixObj) (l n : Nat) : List Byte :=
  s.hbmRead (o.first * extBytes + l * 64 * o.blocks * o.rowBytes) (n * o.rowBytes)

/-- PREFIX_FETCH_COMPLETE: the rows are in the working set, or every position is computed. -/
def execPrefixFetchComplete (ctx : Nat) (ok : Bool) (obj : Option ObjFetch) (s : State) : Res :=
  let c := s.ctx ctx
  if !s.runs || c.prefixSt != .fetching || c.st.over then .next s
  else
    let b := s.rowBytesOf c.model
    let n := c.prefixReused
    let rows : Option (Nat → List Byte) :=
      if !ok then none
      else match Tab.find? s.prefixes c.prefixObj with
        | some o => some fun l => s.objectRows o l n
        | none => match obj with
          | some o =>
            if s.dead (c.prefixObj / 2 ^ 18) || o.tenant != c.tenant || o.blocks * 64 < n then none
            else some fun l => (o.rows.drop (l * 64 * o.blocks * b)).take (n * b)
          | none => none
    match rows with
    | some f =>
      let s := (List.range (s.layersOf c.model)).foldl (fun s l => s.hbmWrite (s.worksetRow c l 0) (f l)) s
      .next ((s.modCtx ctx fun c => { c with prefixSt := .inPlace, prefixPushed := false }).advancePush ctx)
    | none =>
      let s := s.modCtx ctx fun c => { c with prefixSt := .inPlace, prefixReused := 0, prefixPushed := true }
      .next ((s.bump kPrefixFallbacks).advancePush ctx)

/-! ## FETCH_PREFIX (04 R143) -/

/-- The object queue of 64 entries is full (R126). -/
def State.objQueueFull (s : State) : Bool :=
  64 ≤ (s.inflight.filter fun f => match f.wait with | .fetch _ _ => true | .sealing _ _ _ _ _ _ => true | _ => false).length

def rowFetchPrefix : CmdRow :=
  { opcode := 0x0302, resv := [(383, 42)], resvHandle := true,
    check := fun p s =>
      let id := p.f 31 0
      let node := id / 2 ^ 18
      let own := match Tab.find? s.prefixes id with | some o => o.tenant != p.f 41 32 | none => node == s.self
      firstFail
        [badFld (!s.mapped node || s.dead node || own), ((Tab.find? s.prefixes id).isSome, { status := sOkAlready }), lowPowerBar s 2,
         noRes s.objQueueFull],
    act := fun p _ s =>
      let s := s.adopt kMoveTimeout
      .wait (.fetch (p.f 31 0) (p.f 41 32)) false (some (ms (s.kv kMoveTimeout))) s }

def execFetchPrefix (p : Pkt) (s : State) : Res := .next (hostCommand rowFetchPrefix p s)

/-- The transfer of FETCH_PREFIX is over. -/
def State.fetched (s : State) (f : Inflight) (id tenant : Nat) (obj : Option ObjFetch) : State :=
  match obj with
  | none => s.finish f (refuse sBadField)
  | some o =>
    let size := o.layers * 64 * o.blocks * o.rowBytes
    let n := extsOf size
    let s := s.reclaimFor tenant n
    if o.tenant ≠ tenant then s.finish f (refuse sBadField)
    else if (Tab.find? s.prefixes id).isSome then s.finish f { status := sOkAlready }
    else if !s.fits tenant 1 n then s.finish f (refuse sQuota)
    else match s.findRun n with
      | (none, s) => s.finish f (refuse sNoResource)
      | (some e, s) =>
        let s := ((s.takeExts 1 e n .object .nobody).charge tenant 1 n).hbmWrite (e * extBytes) (o.rows.take size)
        let x : PrefixObj := { id, tenant, blocks := o.blocks, layers := o.layers, rowBytes := o.rowBytes, first := e, count := n,
                               hashes := o.hashes, replica := true, used := s.now }
        { s with prefixes := Tab.set s.prefixes id x }.finish f { r0 := size }

/-! ## SEAL_PREFIX (04 R144) -/

/-- Token `k` of the command's data. -/
def sealTok (p : Pkt) (k : Nat) : Nat := bytesAt (p.data.getD []) (4 * k) 4

/-- Hashes of the `n` blocks the command names. -/
def sealHashes (p : Pkt) (s : State) (c : Ctx) : List Nat :=
  let n := p.f 14 0
  s.hashes c ((List.range (64 * n)).map (sealTok p)) n

/-- This node's object that the prefix index names for the last block. -/
def sealedAs (p : Pkt) (s : State) (c : Ctx) : Option Nat :=
  let n := p.f 14 0
  (s.indexTable.bind fun k =>
    searchCopy 1 (prefixKey ((sealHashes p s c).getD (n - 1) 0) (n - 1)) allOnes ((s.table k).copy false)).bind
    fun e => if e.2.result / 2 ^ 18 = s.self then some e.2.result else none

/-- The next free local index of a PREFIX object. -/
def State.freePrefixId (s : State) : Option Nat :=
  let n := Tab.getD 0 s.nextId 4
  ((List.range (s.prefixes.length + 1)).map fun j => (n + j) % 2 ^ 18).find? fun j => (Tab.find? s.prefixes (s.self * 2 ^ 18 + j)).isNone

/-- Extents of the object. -/
def sealExts (p : Pkt) (s : State) (c : Ctx) : Nat := extsOf (s.layersOf c.model * 64 * p.f 14 0 * s.rowBytesOf c.model)

def checkSeal (p : Pkt) (s : State) : Option Ans :=
  let n := p.f 14 0
  let c := match s.ctxNamed p.handle with | some i => s.ctx i | none => {}
  let known := (s.ctxNamed p.handle).isSome
  let bad (v : Nat) : Bool := fld v 31 18 != 0 || s.vocabOf c.model ≤ fld v 17 0
  let r := s.reclaimFor c.tenant (sealExts p s c)
  firstFail
    [badLen (outside n 1 16384 || (known && (c.position - 1) / 64 < n)), badFld p.data.isNone,
     badFld (!known || misaligned (p.f 127 64) 4 || (List.range (64 * n)).any fun k => bad (sealTok p k)), (c.moved, movedAns c),
     conflict (c.st != .decode && c.st != .paused) c.st.code, lowPowerBar s 2,
     (match sealedAs p s c with | some o => (true, { status := sOkAlready, handle := o }) | none => (false, {})),
     badQuota (!r.fits c.tenant 1 (sealExts p s c)),
     noRes (s.indexTable.isNone || s.objQueueFull || s.freePrefixId.isNone || !r.canRun (sealExts p s c))]

def actSeal (p : Pkt) (_id : Nat) (s : State) : Done :=
  match s.ctxNamed p.handle, s.freePrefixId with
  | some i, some j =>
    let c := s.ctx i
    let n := p.f 14 0
    let m := sealExts p s c
    match (s.reclaimFor c.tenant m).findRun m with
    | (none, s) => .done (refuse sNoResource) s
    | (some e, t) =>
      let obj := s.self * 2 ^ 18 + j
      let x : PrefixObj := { id := obj, tenant := c.tenant, blocks := n, layers := s.layersOf c.model, rowBytes := s.rowBytesOf c.model, first := e,
                             count := m, hashes := sealHashes p s c, used := s.now }
      let t := (t.takeExts 1 e m .object .nobody).charge c.tenant 1 m
      .wait (.sealing i n obj e m n) false none
        { t with prefixes := Tab.set t.prefixes obj x, nextId := Tab.put 0 t.nextId 4 (j + 1) }
  | _, _ => .done (refuse sNoResource) s

def rowSealPrefix : CmdRow :=
  { opcode := 0x0303, resv := [(63, 15), (383, 128)], check := fun p s => checkSeal p (s.adopt kPrefixTable),
    act := fun p id s => actSeal p id (s.adopt kPrefixTable) }

def execSealPrefix (p : Pkt) (s : State) : Res := .next (hostCommand rowSealPrefix p s)

/-- The rows are copied: an index entry is inserted for each block. A request that has left DECODE and PAUSED since takes the command with it. -/
def State.sealCopied (s : State) (f : Inflight) (i n obj first : Nat) : State :=
  let c := s.ctx i
  if s.handleFor i != f.handle || (c.st != .decode && c.st != .paused) then s.unseal f.id sConflict
  else match s.regionOf i, s.indexTable, Tab.find? s.prefixes obj with
    | some r, some k, some o =>
      let s := (List.range o.layers).foldl (fun s l =>
        s.hbmWrite (first * extBytes + l * 64 * n * o.rowBytes)
          ((List.range (64 * n * o.rowBytes)).map fun z => s.regionByte r (s.regionRow c l 0 + z))) s
      let s := s.adopt kInsertBound
      let jobs : List TJob := (o.hashes.zip (List.range n)).map fun (h, j) =>
        { sealCmd := f.id + 1, table := k, op := .insert { key := prefixKey h j, result := obj } 0, due := s.now + us (s.kv kInsertBound) }
      { s with tum := { s.tum with jobs := s.tum.jobs ++ jobs } }
    | _, _, _ => s.unseal f.id sNoResource

/-- The device's copy for a command in flight is complete (02 R584). -/
def execObjectCopyComplete (op : Nat) (obj : Option ObjFetch) (s : State) : Res :=
  match s.inflight.find? fun f => f.id == op with
  | none => .next s
  | some f =>
    if !s.runs then .next s
    else match f.wait with
      | .copy k src size tenant o => let r := s.copyDone k src size tenant o; .next (r.2.finish f r.1)
      | .fetch id tenant => .next (s.fetched f id tenant obj)
      | .sealing i n o first _ left => if left = n ∧ !(s.tum.jobs.any fun j => j.sealCmd == op + 1) then .next (s.sealCopied f i n o first) else .next s
      | _ => .next s

/-! ## Cascaded searches (15 R482 to R485) -/

/-- Fields of a token. -/
def tokF (t : BitVec 512) (hi lo : Nat) : Nat := fld t.toNat hi lo

/-- The hit a token holds, as an entry and its index. -/
def tokHit (t : BitVec 512) : Option (Nat × TEntry) :=
  if tokF t 7 7 = 1 then some (tokF t 64 48, { pri := tokF t 47 32, result := tokF t 111 80, flags := tokF t 115 112 }) else none

/-- One key of a cascaded SEARCH has its record; the last one completes the command. -/
def State.cascRecord (s : State) (cmd ix : Nat) (rec_ : List Byte) : State :=
  match s.waitOf cmd with
  | some (.search k n res recs) =>
    let recs := recs ++ [(ix, rec_)]
    if recs.length < n then s.setWait cmd (.search k n res recs)
    else s.finishId cmd { wr := [(res, (List.range n).flatMap fun i => (match recs.find? (·.1 == i) with | some r => r.2 | none => []))] }
  | _ => s

/-- The prompt blocks below one. -/
def State.blocksBelow (s : State) (i j : Nat) : List (Nat × Nat) := (s.promptBlocks (s.ctx i)).filter fun b => b.1 < j

/-- An outstanding token is answered: with the hit it brought back, or timed out. -/
def State.cascDone (s : State) (o : CascOut) (hit : Option (Nat × TEntry)) (pos : Nat) (late : Bool) : State :=
  let s := { s with tum := { s.tum with casOut := s.tum.casOut.erase o } }
  if o.cmd ≠ 0 then s.cascRecord (o.cmd - 1) o.ix (searchRec hit pos (if late then sTimeout else sOK))
  else if o.ctx ≠ 0 then
    let i := o.ctx - 1
    if (s.ctx i).prefixSt != .searching then s
    else match hit with
      | some (_, e) => s.prefixFound i (some (o.ix, e.result))
      | none => if late then s.prefixFound i none else s.cascLookup i (s.blocksBelow i o.ix)
  else s

/-- A frame from MATCH_IN. A bad CRC or an idle frame is dropped; a token of this device's own ends its search; any other is searched, and
passed on. -/
def execCascadeToken (tok : BitVec 512) (crcOk : Bool) (s : State) : Res :=
  if !s.runs || !crcOk || tok == 0 || s.cascSize == 0 then .next s
  else if tokF tok 6 4 = s.cascPos then
    match s.tum.casOut.find? fun o => o.seq == tokF tok 31 16 with
    | none => .next s
    | some o =>
      let s := { s with tum := { s.tum with casRun := 0, ringDown := if o.cmd == 0 && o.ctx == 0 then false else s.tum.ringDown } }
      .next (s.cascDone o (tokHit tok) (tokF tok 10 8) false)
  else
    let k := tokF tok 3 0
    let x := s.table k
    let r := if x.active && x.cascade then s.searchOne k false (tokF tok 287 128) (tokF tok 447 288) else (none, s)
    let s := r.2
    let better := match r.1, tokHit tok with
      | some (_, e), some (_, w) => e.pri < w.pri || (e.pri == w.pri && s.cascPos < tokF tok 10 8)
      | some _, none => true
      | none, _ => false
    let out := if better then cascToken k (tokF tok 6 4) (tokF tok 31 16) r.1 s.cascPos (tokF tok 287 128) (tokF tok 447 288) else tok
    .next { s with tum := { s.tum with sent := s.tum.sent ++ [out] } }

/-- A token has not returned in time. -/
def execCascadeTimeout (seq : Nat) (s : State) : Res :=
  match s.tum.casOut.find? fun o => o.seq == seq && o.due ≤ s.now with
  | none => .next s
  | some o =>
    if !s.runs then .next s
    else if o.cmd = 0 ∧ o.ctx = 0 then .next (s.cascDone o none 0 true)
    else
      let s := s.bump kCascTimeouts
      let run := s.tum.casRun + 1
      let s := { s with tum := { s.tum with casRun := run } }
      let s := if run = 3 ∧ !s.tum.ringDown then
          { s with tum := { s.tum with ringDown := true, probeAt := s.now } }.postEvent 0x0D02 0 (pack [(3, s.cascPos), (5, 0), (3, s.cascSize)])
            (s.ctr kCascTimeouts)
        else s
      .next (s.cascDone o none 0 true)

/-- While the ring is DOWN a probe goes out every 1 ms. -/
def execCascadeProbeTimer (s : State) : Res :=
  if s.runs && s.tum.ringDown && s.tum.probeAt + ms 1 ≤ s.now then
    let s := { s with tum := { s.tum with probeAt := s.now } }.adopt kCascTimeout
    let seq := s.tum.casSeq
    let o : CascOut := { seq, due := s.now + us (s.kv kCascTimeout) }
    .next { s with tum := { s.tum with casSeq := (seq + 1) % 65536, casOut := s.tum.casOut ++ [o],
                                       sent := s.tum.sent ++ [cascToken 0 s.cascPos seq none 0 0 allOnes] } }
  else .next s

end Sys2Proof.Machine
end

