-- ==== Sys2Proof/Machine/Abandon.lean ====
section
/-! DEFINITION. Commands given up before their commit points: by their timeout, by a control-core restart, by a teardown of the host
interface (02 R44, R66, R67, 04 R146). -/

namespace Sys2Proof.Machine

/-- SET_MIRROR given up: the twin's copy is released, and the home is not mirrored. -/
def State.dropMirror (s : State) (i : Nat) : State :=
  match s.latchOf (s.handleFor i) with
  | some k => (s.freeTwin k sOK).endMirror k i
  | none => s

/-- A PAUSE given up; another one may still wait. -/
def State.dropPause (s : State) (f : Inflight) (i : Nat) : State :=
  let others : Bool := s.inflight.any fun g => g.id != f.id && g.wait == .pause i
  s.modCtx i fun c => { c with pauseAsked := others }

/-- The Tumbler write of a command. -/
def State.tumJob (s : State) (id : Nat) : Option TJob := s.tum.jobs.find? fun j => j.cmd == id + 1

/-- What a command in flight has begun is undone, and it completes with the status. MOVE_STATE is withdrawn first, and completes when its
source has answered. -/
def State.abandonCmd (s : State) (f : Inflight) (status : Nat) (later : Bool := false) : State :=
  let a := refuse status
  let quiet (s : State) : State := s.dropTxns fun t => t.who == .command f.id
  match f.wait with
  | .fill _ _ first n => s.failFill f first n status
  | .pause i => (s.dropPause f i).finish f a
  | .mirror i true => (s.dropMirror i).finish f a
  | .mirror i false => (s.dropTxns fun t => t.who == .mirror i).finish f a
  | .move i => s.withdraw i later
  | .sealing _ _ _ _ _ _ => s.unseal f.id status
  | .tumbler _ => match s.tumJob f.id with | some j => s.failJob j a | none => s.finish f a
  | _ => (quiet s).finish f a

/-- READY has been sent for a MOVE_STATE: it is carried through a restart. -/
def State.readySent (s : State) (f : Inflight) : Bool :=
  match f.wait with
  | .move i => (match s.latchOf (s.handleFor i) with | some k => (s.latch k).st == .ready | none => false)
  | _ => false

/-- Commands that have not passed their commit points. -/
def State.uncommittedCmds (s : State) : List Inflight := s.inflight.filter fun f => !f.committed

/-- Every uncommitted command of a list given up. -/
def State.abandonAll (s : State) (fs : List Inflight) (status : Nat) (later : Bool) : State :=
  fs.foldl (fun s f => if s.inflight.any (·.id == f.id) then s.abandonCmd f status later else s) s

/-- A command's timeout, or the bound in its place, expires before its commit point. MOVE_STATE has its own row. -/
def execCommandTimeout (cmd : Nat) (s : State) : Res :=
  match s.inflight.find? (·.id == cmd) with
  | none => .next s
  | some f =>
    let moving : Bool := match f.wait with | .move _ => true | .moveAsk _ _ _ => true | _ => false
    if s.runs && !f.committed && f.due ≤ s.now && !moving then .next (s.abandonCmd f sTimeout) else .next s

end Sys2Proof.Machine
end

