-- ==== Sys2Proof/Machine/Routes.lean ====
section
/-! DEFINITION. Levels, legal routes and the route table (13 R431, R432, R434). -/

namespace Sys2Proof.Machine

/-- The links of the map: each member's number with its neighbours' numbers. -/
abbrev Graph := List (Nat × List Nat)

/-- Neighbours a node lists. -/
def Graph.lists (g : Graph) (n : Nat) : List Nat := match List.lookup n g with | some l => l | none => []

/-- Neighbours of a node: each lists the other (DEDUCED, log entry 47). -/
def Graph.nbrs (g : Graph) (n : Nat) : List Nat := (g.lists n).filter fun m => (g.lists m).contains n

/-- One round of a breadth-first search: the places reached in `d` steps and not before, with their distances. -/
def bfsRound (d : Nat) (found : Tab Nat) : List Nat → Tab Nat × List Nat
  | [] => (found, [])
  | n :: ns =>
    if (Tab.find? found n).isSome then bfsRound d found ns
    else
      let r := bfsRound d (Tab.set found n d) ns
      (r.1, n :: r.2)

/-- Distances of the places reached from a frontier; `fuel` bounds the rounds. -/
def bfs (next : Nat → List Nat) : Nat → Nat → List Nat → Tab Nat → Tab Nat
  | 0, _, _, found => found
  | k + 1, d, fr, found =>
    let r := bfsRound d found fr
    if r.2.isEmpty then r.1 else bfs next k (d + 1) (r.2.flatMap next) r.1

/-- Hop distances from a node over the links of the map. -/
def Graph.levels (g : Graph) (root : Nat) : Tab Nat := bfs g.nbrs (g.length + 1) 0 [root] []

/-- The link from `a` to `b` is an up link. -/
def upLink (lv : Nat → Nat) (a b : Nat) : Bool := lv b < lv a || (lv b == lv a && b < a)

/-- Steps of a legal route: a place is twice the node, plus 1 once a down link has been taken. -/
def legalNext (g : Graph) (lv : Nat → Nat) (x : Nat) : List Nat :=
  (g.nbrs (x / 2)).filterMap fun m =>
    if upLink lv (x / 2) m then (if x % 2 = 0 then some (2 * m) else none) else some (2 * m + 1)

/-- Hops of the shortest legal route from `a` that begins with the link to its peer `b`, by destination. -/
def Graph.via (g : Graph) (lv : Nat → Nat) (a b : Nat) : Nat → Option Nat :=
  let d := bfs (legalNext g lv) (2 * g.length + 2) 1 [if upLink lv a b then 2 * b else 2 * b + 1] []
  fun n => match Tab.find? d (2 * n), Tab.find? d (2 * n + 1) with
    | some x, some y => some (min x y)
    | some x, none => some x
    | none, y => y

/-- The links among the members of the map, from the slice tables kept. -/
def State.graph (s : State) : Graph :=
  (s.compo.tables.filter fun t => !t.unnumbered && s.mapped t.node).map fun t => (t.node, t.neigh)

/-- Level of a node. -/
def State.level (s : State) (n : Nat) : Nat := (s.node n).level

/-- The least of some numbers. -/
def least (l : List Nat) : Option Nat := l.foldl (fun b x => match b with | some y => some (min x y) | none => some x) none

/-- The route entry of a destination, from the hops over each link. -/
def routeEntry (vias : List (Nat × (Nat → Option Nat))) (n : Nat) (x : Node) : Node :=
  let hs := vias.filterMap fun (l, f) => (f n).map fun h => (l, h)
  match least (hs.map (·.2)) with
  | some m => { x with hops := m, route := ((hs.filter fun e => e.2 == m).map (·.1)).take 8,
                       backup := ((hs.filter fun e => e.2 == m + 1).map (·.1)).take 4 }
  | none => { x with hops := 0, route := [], backup := [] }

/-- The route table built over the links that are UP (R432, 16 R529). -/
def State.buildRoutes (s : State) : State :=
  let g := s.graph
  let vias := ((List.range 40).filter fun l => (s.link l).st == .up).map fun l => (l, g.via s.level s.self (s.link l).peerNode)
  { s with fab := { s.fab with nodes := Tab.update {} s.fab.nodes fun n x =>
      if n = s.self ∨ x.live = .unmapped then x else routeEntry vias n x } }

/-- A link that trained after the fabric boot joins the route sets for which it begins a legal route of no more hops (R434). The peer is
judged a neighbour from now on (17 R536). -/
def State.addLink (s : State) (l : Nat) : State :=
  let s := s.modNode (s.link l).peerNode fun x => { x with beat := s.now }
  let f := s.graph.via s.level s.self (s.link l).peerNode
  { s with fab := { s.fab with nodes := Tab.update {} s.fab.nodes fun n x =>
      if n = s.self ∨ x.live = .unmapped then x
      else match (f n) with
        | some h => if h ≤ x.hops && x.route.length < 8 then { x with route := NSet.add x.route l } else x
        | none => x } }

/-- A link returned to the sets it belonged to (R425). -/
def State.reroute (s : State) (l : Nat) : State :=
  let x := s.link l
  { s with fab := { s.fab with nodes := Tab.update {} s.fab.nodes fun n v =>
      { v with route := if x.hadRoute.contains n then NSet.add v.route l else v.route,
               backup := if x.hadBackup.contains n then NSet.add v.backup l else v.backup } } }

/-- Mapped nodes that a link's removal would leave with neither a route nor a backup route (R429). -/
def State.strandedBy (s : State) (l : Nat) : Nat :=
  Tab.countP s.fab.nodes fun x =>
    x.live != .unmapped && (x.route ++ x.backup).contains l &&
      !((x.route ++ x.backup).any fun m => m != l && (s.link m).st == .up)

end Sys2Proof.Machine
end

