-- ==== Sys2Proof/Machine/Links.lean ====
section
/-! DEFINITION. Links: flits, acknowledgement and replay, IDENT, training and retraining, port states, PORT_CONTROL and PORT_STATUS, and
forwarding (13 R416 to R434). -/

namespace Sys2Proof.Machine

/-! ## Flits (R418 to R421) -/

/-- Trailer bits [47:0]. -/
def trailer (f : Flit) : Nat :=
  pack [(12, f.seq), (1, b2n f.ctrl), (1, b2n f.ackV), (12, f.ackSeq), (1, b2n f.nak), (7, f.firstHdr), (3, f.creditVl), (11, f.creditSlots)]

/-- The CRC of a flit (R419). -/
def flitCrc (f : Flit) : W32 := crc32 (f.body.flatMap (fun x => toLE 32 x.toNat) ++ toLE 6 (trailer f))

/-- The slots of a packet, its header first. -/
def packetSlots (p : FPkt) : List (BitVec 256 × Bool) :=
  (BitVec.ofNat 256 p.header, true) ::
    (chunks 32 (p.plen / 32 + 1) p.pay.toBytes).map fun b => (BitVec.ofNat 256 (leNat b), false)

/-- A packet read from its slots; payloads of types 0xD and 0xE are read back from their own layouts. -/
def packetOf (slots : List (BitVec 256)) : FPkt :=
  let h := (slots.headD 0).toNat
  let b := ((slots.drop 1).flatMap fun x => toLE 32 x.toNat).take (fld h 207 192)
  let ty := fld h 3 0
  let pay := if ty = 0xD then (match Config.hingeRead b with | some (hh, m) => Payload.hinge hh m | none => .bytes b)
    else if ty = 0xE then (match Config.mgmtRead b with | some m => .mgmt m | none => .bytes b)
    else .bytes b
  { ptype := ty, cls := fld h 5 4, code := fld h 11 8, dst := fld h 29 16, src := fld h 45 32, epoch := fld h 63 48, offset := fld h 113 64,
    seq := fld h 159 128, tag := fld h 175 160, job := fld h 187 176, poison := bitAt h 208, sld := bitAt h 209,
    rsv := !rangesZero h [(7, 6), (15, 12), (31, 30), (47, 46), (127, 114), (191, 188), (255, 210)], pay }

/-- Whole packets taken from received slots, IDLE slots dropped: packets, IDLE slots dropped, slots left over; `fuel` is their number. -/
def parseSlots : Nat → List (BitVec 256) → List FPkt × Nat × List (BitVec 256)
  | 0, l => ([], 0, l)
  | _ + 1, [] => ([], 0, [])
  | k + 1, x :: xs =>
    if x = 0 then
      let r := parseSlots k xs
      (r.1, r.2.1 + 1, r.2.2)
    else
      let n := ceilDiv (32 + fld x.toNat 207 192) 32
      if xs.length + 1 < n then ([], 0, x :: xs)
      else
        let r := parseSlots k (xs.drop (n - 1))
        (packetOf ((x :: xs).take n) :: r.1, r.2.1, r.2.2)

/-! ## Sending flits (R422, R424, R427) -/

/-- Lane whose owed credits are returned next. -/
def Link.nextCredit (x : Link) : Option Nat := ((List.range 8).map fun i => (x.creditPtr + i) % 8).find? fun v => 0 < x.creditOwed.getD v 0

/-- The entry of a list changed. -/
def setAt (l : List Nat) (i v : Nat) : List Nat := l.zipIdx.map fun (w, j) => if j = i then v else w

/-- A flit given its acknowledgement, the credits of one lane and its CRC, and sent. -/
def Link.put (x : Link) (f : Flit) : Flit × Link :=
  let f := { f with ackV := true, ackSeq := (x.expected + 4095) % 4096 }
  let r := match x.nextCredit with
    | some v =>
      let c := x.creditOwed.getD v 0
      let n := min c 2047
      ({ f with creditVl := v, creditSlots := n }, { x with creditOwed := setAt x.creditOwed v (c - n), creditPtr := (v + 1) % 8 })
    | none => (f, x)
  let f := { r.1 with crc := flitCrc r.1 }
  (f, { r.2 with ackOwed := 0, sent := x.sent ++ [f] })

/-- A body of 80 slots. -/
def fullBody (l : List (BitVec 256)) : List (BitVec 256) := l ++ List.replicate (80 - l.length) 0

/-- A control flit sent, with an optional link message in slot 0. -/
def Link.control (x : Link) (nak : Bool) (msg : BitVec 256 := 0) : Link :=
  (x.put { ctrl := true, nak, body := fullBody [msg] }).2

/-- The next new flit sent and kept. -/
def Link.newFlit (x : Link) (now : Nat) : Link :=
  let part := x.txStream.take 80
  let first := match part.findIdx? (·.2) with | some i => i | none => 80
  let r := x.put { seq := x.txSeq, firstHdr := first, body := fullBody (part.map (·.1)) }
  let y := r.2
  { y with txSeq := (x.txSeq + 1) % 4096, txStream := x.txStream.drop 80, ackAt := if x.kept.isEmpty then now else x.ackAt,
           kept := x.kept ++ [r.1], txSlots := (x.txSlots + part.length) % 2 ^ 64 }

/-- Flits sent while at least `least` slots wait and fewer than 256 flits are kept; `fuel` bounds them. -/
def Link.drain (now least : Nat) : Nat → Link → Link
  | 0, x => x
  | k + 1, x => if least ≤ x.txStream.length && x.kept.length < 256 then Link.drain now least k (x.newFlit now) else x

/-- Every full flit sent; every flit sent, the last padded with IDLE slots. -/
def Link.sendFull (x : Link) (now : Nat) : Link := Link.drain now 80 (x.txStream.length / 80 + 1) x
def Link.sendAll (x : Link) (now : Nat) : Link := Link.drain now 1 (x.txStream.length / 80 + 1) x

/-- Node number the device gives itself: in a fabric boot, the one it claims. -/
def State.ownNode (s : State) : Nat := if s.compo.phase = .idle then s.self else s.compo.claimNode

/-- IDENT of this device on a link (R424). -/
def State.identSlot (s : State) (l : Nat) : BitVec 256 :=
  BitVec.ofNat 256 (pack [(4, 1), (60, 0), (64, s.idn.uid), (14, s.ownNode), (1, 0), (1, b2n s.compo.unnumbered), (16, s.compo.epoch), (8, l), (88, 0)])

def State.sendIdent (s : State) (l : Nat) : State := s.modLink l fun x => x.control false (s.identSlot l)

/-- The IDENT of a slot, if it is one. -/
def identOf (x : BitVec 256) : Option Ident :=
  let v := x.toNat
  if fld v 3 0 = 1 then
    some { uid := fld v 127 64, node := fld v 141 128, unnumbered := bitAt v 143, epoch := fld v 159 144, link := fld v 167 160 }
  else none

/-! ## Ports -/

/-- The switch core of a link's die acts. -/
def State.linkLive (s : State) (l : Nat) : Bool := s.runs && l < 40 && !s.isFenced (8 + linkDie l)

/-- A flooded message, which belongs to the link it is queued on. -/
def floods (p : FPkt) : Bool := p.ptype == 0xE && p.dst == p.src

/-- Packets not yet queued to the port take the other links of their sets (R425). -/
def State.reholds (s : State) (l : Nat) : State :=
  let h := (s.link l).held
  (h.filter fun p => !floods p).foldl (fun s p => s.sendPkt p) (s.modLink l fun x => { x with held := h.filter floods })

/-- Kept flits and every packet queued to the port discarded (R425, R429). -/
def State.clearPort (s : State) (l : Nat) : State :=
  (s.modLink l fun x => { x with kept := [], txStream := [], queues := Tab.update {} x.queues fun _ q => { q with resp := [], req := [] } }).reholds l

/-- Nothing queued, and every flit acknowledged. -/
def Link.idle (x : Link) : Bool := x.kept.isEmpty && x.txStream.isEmpty && x.queues.all fun q => q.2.resp.isEmpty && q.2.req.isEmpty

/-- The module is SAFE once its drain has given up and every port is DISABLED (17 R554). -/
def State.settleModule (s : State) : State :=
  if s.rcv.modSt = .draining ∧ s.rcv.modClosing && (List.range 40).all fun l => (s.link l).st == .disabled then
    let s := { s with rcv := { s.rcv with modSt := .safe, modClosing := false } }
    let n := s.rcv.modEnded
    (s.postEvent 0x0F05 0 ModSt.safe.code n).finishAll (· == .drain 2 0) { r0 := n }
  else s

/-- The port enters a state; commands that wait for its final state complete with the state's code (R429). -/
def State.portTo (s : State) (l : Nat) (st : PortSt) : State :=
  let s := (s.setPort l st).settleModule
  let final : Bool := st != .training && st != .draining && (st != .unmapped || (s.link l).peerIdent)
  if final then (s.finishAll (· == .port l) { r0 := st.code }).finishAll (· == .drain 0 l) {} else s

/-- Training begins on a link that is down (R417, R428). -/
def State.trainFrom (s : State) (l : Nat) : State :=
  (s.modLink l fun x => { x with backTo := .down, retrainFails := 0, trainAt := s.now }).portTo l .training

/-- A retrain begins; `back` is the state it returns to (R425). -/
def State.retrain (s : State) (l : Nat) (back : PortSt) : State :=
  ((s.modLink l fun x => { x with backTo := back, trainAt := s.now, retrains := (x.retrains + 1) % 65536 }).portTo l .training).reholds l

/-- FAILED (R425). -/
def State.failPort (s : State) (l : Nat) : State := (s.portTo l .failed).clearPort l

/-- Twin ports are trained only with a twin (R416). -/
def State.portUsable (s : State) (l : Nat) : Bool :=
  l < 36 || s.twinValid || (match s.compo.bootMf with
    | some m => (match mFindUid m.body s.idn.uid with | some i => mDev m.body i 85 85 == 1 | none => false)
    | none => false)

/-- A peer appears on a port: training begins. -/
def execPeerDetected (l : Nat) (s : State) : Res :=
  if s.linkLive l && (s.link l).st == .down && s.portUsable l then .next (s.trainFrom l) else .next s

/-- Training on a link that was down has ended: fresh sequence numbers and credits, IDENT sent; UNMAPPED until the peer's IDENT. -/
def execLinkTrained (l : Nat) (s : State) : Res :=
  let x := s.link l
  if s.linkLive l && x.st == .training && x.backTo == .down then
    let s := s.setLink l { x with
      txSeq := 0, kept := [], ackAt := s.now, replayRun := 0, expected := 0, nakSent := false, ackOwed := 0, txStream := [], rxStream := [],
      credits := ({} : Link).credits, creditOwed := ({} : Link).creditOwed, creditPtr := 0, peerNode := 0, peerUnnumbered := false,
      peerIdent := false, peerUid := 0, peerLink := 0, peerEpoch := 0 }
    let s := (s.portTo l .unmapped).sendIdent l
    if s.compo.booting.contains l then
      .next (({ s with compo := { s.compo with booting := NSet.del s.compo.booting l } }).mgmtOn l (.boot s.compo.bootOf s.compo.bootNo))
    else .next s
  else .next s

/-- The peer is a mapped node, not held DEAD (R428, R434). -/
def State.peerMapped (s : State) (l : Nat) : Bool :=
  let x := s.link l
  x.peerIdent && !x.peerUnnumbered && s.compo.mapped && !s.compo.unnumbered && !s.rcv.isolated &&
    s.compo.phase == .idle && x.peerNode != s.self && (s.node x.peerNode).live != .unmapped && !s.dead x.peerNode &&
    (s.node x.peerNode).uid == x.peerUid

/-- An IDENT received: the peer is known; the first since the link-up settles the port's state (R430, R434). -/
def State.gotIdent (s : State) (l : Nat) (m : Ident) : State :=
  let x := s.link l
  let s := s.setLink l { x with peerIdent := true, peerNode := m.node, peerUnnumbered := m.unnumbered, peerUid := m.uid, peerEpoch := m.epoch,
                                peerLink := m.link }
  if x.st = .unmapped ∧ !x.peerIdent then
    if s.peerMapped l && m.epoch == s.compo.epoch then (s.portTo l .up).addLink l
    else (s.finishAll (· == .port l) { r0 := PortSt.unmapped.code }).finishAll (· == .drain 0 l) {}
  else s

def execIdent (l : Nat) (m : Ident) (s : State) : Res :=
  if s.linkLive l && ((s.link l).st.trained || (s.link l).st == .training) then .next (s.gotIdent l m) else .next s

/-! ## Receiving flits (R422) -/

/-- Every kept flit sent again; too many replays with no progress retrain the link. -/
def State.replay (s : State) (l : Nat) : State :=
  let s := (s.adopt kReplayTimer).adopt kReplayLimit
  let x := s.link l
  if s.kv kReplayLimit ≤ x.replayRun then s.retrain l x.st
  else s.setLink l { x with sent := x.sent ++ x.kept, replays := (x.replays + 1) % 2 ^ 32, replayRun := x.replayRun + 1, ackAt := s.now }

/-- Flits up to the one acknowledged released. -/
def Link.release (x : Link) (a now : Nat) : Link :=
  match x.kept.findIdx? fun f => f.seq == a with
  | some i => { x with kept := x.kept.drop (i + 1), ackAt := now, replayRun := 0 }
  | none => x

/-- Returned credits counted. -/
def Link.credit (x : Link) (f : Flit) : Link := { x with credits := setAt x.credits f.creditVl (x.credits.getD f.creditVl 0 + f.creditSlots) }

/-- The flit expected next: its slots delivered, its credits counted, its acknowledgement owed. -/
def State.acceptFlit (s : State) (l : Nat) (f : Flit) : State :=
  let s := s.adopt kAckInterval
  let x := (s.link l).credit f
  let r := parseSlots (x.rxStream.length + 80) (x.rxStream ++ f.body)
  let x := { x with rxStream := r.2.2, rx := x.rx ++ r.1, rxSlots := (x.rxSlots + (80 - r.2.1)) % 2 ^ 64, expected := (x.expected + 1) % 4096,
                    nakSent := false, ackOwed := x.ackOwed + 1, ackDue := if x.ackOwed = 0 then s.now + ns 200 else x.ackDue }
  s.setLink l (if s.kv kAckInterval ≤ x.ackOwed then x.control false else x)

/-- What a flit that passed R419 does to its body and sequence. -/
def State.flitBody (s : State) (l : Nat) (f : Flit) : State :=
  let x := s.link l
  if f.ctrl then
    let s := s.setLink l (x.credit f)
    match identOf (f.body.headD 0) with
    | some m => s.gotIdent l m
    | none => s
  else if x.st = .training then s
  else if f.seq = x.expected then s.acceptFlit l f
  else if 2048 ≤ (f.seq + 4096 - x.expected) % 4096 then s
  else if x.nakSent then s
  else s.setLink l { x.control true with nakSent := true }

/-- A flit arrives, with the symbol errors its codewords showed. -/
def execFlitReceive (l : Nat) (f : Flit) (symErrs : List Nat) (s : State) : Res :=
  let x := s.link l
  if s.linkLive l && (x.st.trained || x.st == .training) then
    let bad := (symErrs.filter (15 < ·)).length
    let x := { x with fecCorrected := (x.fecCorrected + (symErrs.filter (· ≤ 15)).foldl (· + ·) 0) % 2 ^ 64,
                      fecUncorrectable := (x.fecUncorrectable + bad) % 2 ^ 32 }
    if bad ≠ 0 ∨ f.crc ≠ flitCrc f then .next (s.setLink l (x.control true))
    else
      let s := s.setLink l (if f.ackV || f.nak then x.release f.ackSeq s.now else x)
      let s := if f.nak then s.replay l else s
      .next (s.flitBody l f)
  else .next s

/-- No acknowledgement progress for `replay_timer_ns` while a flit is kept. -/
def execReplayTimerExpiry (l : Nat) (s : State) : Res :=
  let x := s.link l
  if s.linkLive l && x.st.trained && !x.kept.isEmpty && x.ackAt + ns (s.kset kReplayTimer) ≤ s.now then .next (s.replay l) else .next s

/-! ## Retraining (R425) -/

/-- A lane loses signal or lock: the port retrains at once. -/
def execLaneSignalLoss (l lane : Nat) (s : State) : Res :=
  if s.linkLive l && lane < 4 && (s.link l).st.trained then .next (s.retrain l (s.link l).st) else .next s

/-- The retrain completes: the port returns to its state and its sets, IDENT is sent and every kept flit is sent again. -/
def execRetrainComplete (l : Nat) (s : State) : Res :=
  let x := s.link l
  if s.linkLive l && x.st == .training && x.backTo != .down then
    let s := s.setLink l { x with retrainFails := 0, ackAt := s.now, replayRun := 0 }
    let s := (s.portTo l x.backTo).sendIdent l
    let s := s.modLink l fun y => { y with sent := y.sent ++ y.kept }
    .next (if x.backTo = .up then s.reroute l else s)
  else .next s

/-- The retrain has not completed within 50 ms: it fails, and the port tries again or enters FAILED. -/
def execRetrainTimeout (l : Nat) (s : State) : Res :=
  let x := s.link l
  if s.linkLive l && x.st == .training && x.backTo != .down && x.trainAt + ms 50 ≤ s.now then
    let s := (s.adopt kRetrainLimit).setLink l { x with retrainFails := x.retrainFails + 1 }
    if s.kv kRetrainLimit ≤ x.retrainFails + 1 then .next (s.failPort l) else .next (s.retrain l x.backTo)
  else .next s

/-! ## PORT_CONTROL (R429) -/

/-- A drain of a port begins; it ends in `goal`. -/
def State.drainPort (s : State) (l : Nat) (goal : PortSt) : State :=
  let s := s.modLink l fun x => { x with drainTo := goal, drainBy := s.now + us (s.kv kPortDrain) }
  if (s.link l).st = .training then s.modLink l fun x => { x with backTo := .draining } else (s.portTo l .draining).reholds l

/-- Every packet still queued to the port discarded; a packet started is sent whole, and kept flits stay (R429, 14 R451). -/
def State.clearQueues (s : State) (l : Nat) : State :=
  (s.modLink l fun x => { x with queues := Tab.update {} x.queues fun _ q => { q with resp := [], req := [] } }).reholds l

/-- A drain of a port ends; a port whose lanes go off keeps no flit. -/
def State.endDrain (s : State) (l : Nat) : State :=
  match (s.link l).drainTo with
  | .training => (s.clearQueues l).retrain l .up
  | .disabled => (s.clearPort l).portTo l .disabled
  | st => (s.clearQueues l).portTo l st

/-- The queues of a draining port are empty and every flit is acknowledged, or the drain's time has passed. -/
def execPortDrainEnd (l : Nat) (s : State) : Res :=
  let x := s.link l
  let draining : Bool := x.st == .draining || (x.st == .training && x.backTo == .draining)
  if s.linkLive l && draining && ((x.idle && x.held.all floods) || x.drainBy ≤ s.now) then .next (s.endDrain l) else .next s

/-- DISABLE: a drain first where something is queued. -/
def State.disablePort (s : State) (l : Nat) : State :=
  let x := s.link l
  let waits : Bool := x.st.trained || (x.st == .training && x.backTo != .down)
  if waits && !(x.idle && x.held.all floods) then s.drainPort l .disabled else (s.portTo l .disabled).clearPort l

/-- Reserved and out-of-range fields of PORT_CONTROL. -/
def portFields (p : Pkt) (action : Nat) : List (Bool × Ans) := [badHandle p, badFld (39 < p.f 5 0 || p.f 10 8 != action)]

/-- STATE_CONFLICT where the port's state is none of those in which the action is legal or already in effect. -/
def portConflict (s : State) (l : Nat) (legal : List PortSt) : Bool × Ans := conflict (!legal.contains (s.link l).st) (s.link l).st.code

/-- Without `force`, no mapped node may be left without a route (R429). -/
def stranding (p : Pkt) (s : State) : Bool × Ans :=
  let n := s.strandedBy (p.f 5 0)
  (!p.b 11 && (s.link (p.f 5 0)).st == .up && n != 0, { status := sConflict, sc := PortSt.up.code, r0 := n })

/-- A row of PORT_CONTROL. -/
def portRow (check : Pkt → State → List (Bool × Ans)) (action : Nat) (act : Nat → State → Done) : CmdRow :=
  { opcode := 0x0B01, resv := [(7, 6), (383, 12)], check := fun p s => firstFail (portFields p action ++ check p s),
    act := fun p _ s => act (p.f 5 0) s }

/-- An action begun: completed where it has already brought the port to a final state. -/
def portWait (l : Nat) (s : State) : Done :=
  let st := (s.link l).st
  if st = .training ∨ st = .draining then .wait (.port l) true none s else .done { r0 := st.code } s

def rowPortEnable : CmdRow :=
  portRow (fun _ _ => []) 0 fun l s =>
    let st := (s.link l).st
    if (st = .disabled ∨ st = .failed) then portWait l (s.trainFrom l) else .done { status := sOkAlready, r0 := st.code } s

def execPortEnable (p : Pkt) (s : State) : Res := .next (hostCommand rowPortEnable p s)

def rowPortDisable : CmdRow :=
  portRow (fun p s => [stranding p s]) 1 fun l s =>
    if (s.link l).st = .disabled then .done { status := sOkAlready, r0 := PortSt.disabled.code } s else portWait l (s.disablePort l)

def execPortDisable (p : Pkt) (s : State) : Res := .next (hostCommand rowPortDisable p s)

def rowPortRetrain : CmdRow :=
  portRow (fun p s => [portConflict s (p.f 5 0) [.up, .unmapped, .out]]) 2 fun l s =>
    portWait l (if (s.link l).st = .up then s.drainPort l .training else s.retrain l (s.link l).st)

def execPortRetrain (p : Pkt) (s : State) : Res := .next (hostCommand rowPortRetrain p s)

def rowPortDrain : CmdRow :=
  portRow (fun p s => [portConflict s (p.f 5 0) [.up, .out], stranding p s]) 3 fun l s =>
    if (s.link l).st = .out then .done { status := sOkAlready, r0 := PortSt.out.code } s else portWait l (s.drainPort l .out)

def execPortDrain (p : Pkt) (s : State) : Res := .next (hostCommand rowPortDrain p s)

/-- RESTORE of an OUT port (R429). -/
def State.restorePort (s : State) (l : Nat) : State := if s.peerMapped l then (s.portTo l .up).addLink l else s.portTo l .unmapped

def rowPortRestore : CmdRow :=
  portRow (fun p s => [portConflict s (p.f 5 0) [.out]]) 4 fun l s => portWait l (s.restorePort l)

def execPortRestore (p : Pkt) (s : State) : Res := .next (hostCommand rowPortRestore p s)

/-! ## PORT_STATUS (R430) -/

/-- The 64-byte record of a link. -/
def State.portRecord (s : State) (l : Nat) : List Byte :=
  let x := s.link l
  toLE 64 (pack [(6, l), (2, 0), (3, x.st.code), (5, 0), (14, x.peerNode), (1, b2n x.peerUnnumbered), (1, b2n x.peerIdent), (64, x.peerUid),
    (6, x.peerLink), (2, 0), (16, x.peerEpoch), (8, 0), (64, x.fecCorrected), (32, x.fecUncorrectable), (32, x.replays), (16, x.retrains),
    (112, 0), (64, x.txSlots), (64, x.rxSlots)])

def rowPortStatus : CmdRow :=
  { opcode := 0x0B02, resv := [(7, 6), (63, 14), (383, 160)],
    check := fun p _ =>
      let n := p.f 13 8
      firstFail [badLen (outside n 1 40 || 40 < p.f 5 0 + n || outside (p.f 159 128) 64 4096 || p.f 159 128 < 64 * n), badHandle p,
        badFld (misaligned (p.f 127 64) 64)],
    act := fun p _ s => .done { wr := [(p.f 127 64, (List.range (p.f 13 8)).flatMap fun i => s.portRecord (p.f 5 0 + i))] } s }

def execPortStatus (p : Pkt) (s : State) : Res := .next (hostCommand rowPortStatus p s)

/-! ## Forwarding (R433) -/

/-- A packet for another node leaves the receive buffer of its link for an egress queue; with the buffer full it waits where it is. -/
def execPacketForward (l : Nat) (p : FPkt) (s : State) : Res :=
  if s.linkLive l && p.dst != s.self && !floods p && !s.rcv.isolated && !s.compo.unnumbered then
    match s.routeLink p.dst p.cls with
    | some o =>
      let x := s.link o
      if x.held.isEmpty && x.bufBytes + p.bytes ≤ extBytes then .next ((s.takeRx l (· == p)).joinQueue o p) else .next s
    | none => .next ((s.takeRx l (· == p)).bump kNoRoute)
  else .next s

/-! ## Time on the links (R422, R427) -/

/-- A link with nothing else to do: slots waiting leave in a flit padded with IDLE slots; an acknowledgement that is due, or credits to
return, leave in a control flit. -/
def Link.rest (x : Link) (now : Nat) : Link :=
  if x.st.trained then
    let x := x.sendAll now
    if (0 < x.ackOwed && x.ackDue ≤ now) || x.nextCredit.isSome then x.control false else x
  else x

end Sys2Proof.Machine
end

