-- ==== Sys2Proof/Machine/Boot.lean ====
section
/-! DEFINITION. Fabric boot: its start, LINK, CLAIM, FLOOD and AGREE, the commit of a map and its failure (16 R522 to R530). -/

namespace Sys2Proof.Machine

/-! ## What the start of a fabric boot ends (R523) -/

/-- Every request ends with STALE_MAP and every context returns to FREE (03 R109); nothing of the hinge's state is kept. -/
def State.endAllReqs (s : State) : State :=
  let s := (Tab.keysOf s.latches fun _ x => x.mirrored && !x.primary).foldl (fun s k => s.dropCopy k (s.latch k).ctx) s
  let s := s.endReqs (fun _ _ => true) sStaleMap
  let s := (Tab.keysOf s.ctxs fun _ c => c.st != .free).foldl (fun s i => (s.releaseCtx i).freeCtxAt i) s
  { s with latches := [] }

/-- Every partition is destroyed; its program contexts end with CANCELLED (10 R320). -/
def State.endAllParts (s : State) : State :=
  let s := (Tab.keysOf s.pcs fun _ x => x.live).foldl (fun s id => s.endProg id sCancelled) s
  (Tab.keysOf s.parts fun _ x => x.st != .absent).foldl (fun s k => (s.modPart k fun x => { x with st := .destroying }).finishPart k) s

/-- Every JOB extent is revoked with no drain (11 R369); a fill for a job ends. -/
def State.endAllJobExts (s : State) : State :=
  let s := s.inflight.foldl (fun s f =>
    match f.wait with
    | .fill (.job _ _) _ first n => s.failFill f first n sStaleMap
    | _ => s) s
  let mine (x : Ext) : Bool := match x.who with | .job _ _ => true | _ => false
  let s := (Tab.keysOf s.t1x fun _ x => mine x).foldl (fun s e => s.releaseExt 1 e) s
  ((Tab.keysOf s.t2x fun _ x => mine x).foldl (fun s e => s.releaseExt 2 e) s).settleRevokes

/-- Commands that wait for another node complete with STALE_MAP (log entry 33). -/
def State.endAllWaits (s : State) : State :=
  s.finishAll (fun w => match w with
    | .flush _ => true | .acquire _ _ _ => true | .publish _ _ _ _ _ _ _ _ => true | .fetch _ _ => true | .moveAsk _ _ _ => true
    | _ => false) (refuse sStaleMap)

/-- Ports in routing leave it: no node is mapped. -/
def State.unmapPorts (s : State) : State :=
  (List.range 40).foldl (fun s l =>
    let x := s.link l
    if x.st = .up then s.portTo l .unmapped
    else if x.st = .training ∧ x.backTo = .up then s.setLink l { x with backTo := .unmapped }
    else s) s

/-- The power mode reverts to the role's default (01 R29, 18 R569). -/
def State.roleMode (s : State) : State :=
  if !s.compo.roleKnown || 3 ≤ s.compo.role then s
  else if s.pow.level ≠ 0 then { s with pow := { s.pow with pendMode := some s.compo.role } }
  else
    let changed := s.pow.mode ≠ s.compo.role
    let s := s.forceMode s.compo.role
    if changed then s.capChanged s.views else s

/-- Node number a manifest gives this device. -/
def Manifest.ownNode (uid : Nat) (m : Manifest) : Option Nat := (mFindUid m.body uid).map fun i => mDev m.body i 77 64

/-- A fabric boot starts for an initiator's BOOT (R523, R524). -/
def State.startBoot (s : State) (uid no : Nat) : State :=
  let s := [kFbTimeout, kLinkPhase, kFloodQuiet, kAgreeTimeout, kAgreeRounds].foldl (fun s k => s.adopt k) s
  let s := s.unmapPorts
  let bootMf := match s.compo.staged with | some m => some m | none => s.compo.inForce
  let node? := bootMf.bind (Manifest.ownNode s.idn.uid)
  let c := s.compo
  let training := (List.range 40).filter fun l => (s.link l).st == .training
  let s := { s with compo := { c with
    phase := .link, startAt := s.now, phaseAt := s.now, bootMf, bootOf := uid, bootNo := no, uncommitted := true, mapped := false,
    claimNode := node?.getD 0, unnumbered := node?.isNone, tables := [], seen := c.seen.filter (fun m => m.1 == 1), rounds := 0,
    waiting := false, propEpoch := 0, proposed := false, acks := [], acked := false, booting := training } }
  let s := s.endAllReqs.endAllParts.endAllJobExts.endAllWaits
  let s := { s with fab := { s.fab with rlc := [], txns := [], unsent := [], early := [], seqTx := [], seqRx := [], jobs := [], nodes := [] } }
  let s := s.closeSessions (fun _ _ => true) sStaleMap
  let s := { s with rcv := { s.rcv with isolated := false, silent := 0, heard := false, upAll := [] } }
  let s := s.roleMode
  (List.range 40).foldl (fun s l => if (s.link l).st.trained then s.sendIdent l else s) s

/-- A map message is seen for the first time: its type, origin and epoch are remembered (R525). -/
def State.unseen (s : State) (ty origin epoch : Nat) : Bool := !s.compo.seen.contains (ty, origin, epoch)
def State.see (s : State) (ty origin epoch : Nat) : State :=
  { s with compo := { s.compo with seen := s.compo.seen ++ [(ty, origin, epoch)] } }

/-- A MGMT packet delivered by a row leaves the receive buffer of its link. -/
def State.gotMgmt (s : State) (l : Nat) (m : MMsg) : State := s.takeRx l (·.pay == .mgmt m)

/-- The device takes part in map traffic on a link: trained, and no module drain (17 R553). -/
def State.mapOn (s : State) (l : Nat) : Bool :=
  s.linkLive l && (s.link l).st.trained && s.rcv.modSt != .draining && s.rcv.modSt != .safe

/-- This device initiates a fabric boot. -/
def State.initiate (s : State) : State :=
  let n := (s.compo.bootCount + 1) % 2 ^ 32
  let s := ({ s with compo := { s.compo with bootCount := n } }).see 1 s.idn.uid (n * 65536 + s.compo.epoch)
  (s.startBoot s.idn.uid n).flood none (.boot s.idn.uid n)

/-- BOOT arrives: it starts a fabric boot, or joins the one in progress; it is forwarded the first time (R525, R528). -/
def execBoot (l uid count epoch : Nat) (s : State) : Res :=
  if s.mapOn l && s.unseen 1 uid (count * 65536 + epoch) then
    let s := (s.gotMgmt l (.boot uid count)).see 1 uid (count * 65536 + epoch)
    let s := if s.compo.phase = .idle then s.startBoot uid count else s
    .next (s.flood (some l) (.boot uid count))
  else .next s

/-! ## FABRIC_BOOT (R522) -/

def rowFabricBoot : CmdRow :=
  { opcode := 0x0F03, resv := [(383, 0)],
    check := fun p s =>
      firstFail [badHandle p, conflict (s.rcv.modSt == .draining || s.rcv.modSt == .safe) s.rcv.modSt.code,
        conflict (s.compo.staged.isNone && s.compo.inForce.isNone) 0x31],
    act := fun _ _ s => .wait .fabricBoot true none (if s.compo.phase = .idle then s.initiate else s) }

def execFabricBoot (p : Pkt) (s : State) : Res := .next (hostCommand rowFabricBoot p s)

/-! ## CLAIM and FLOOD (R524 to R526) -/

/-- Bits of this device's entry in the manifest of the boot. -/
def State.bootDev (s : State) (hi lo : Nat) : Nat :=
  match s.compo.bootMf with
  | some m => (match mFindUid m.body s.idn.uid with | some i => mDev m.body i hi lo | none => 0)
  | none => 0

/-- `manifest_seq` and digest prefix of the manifest of the boot. -/
def State.bootSeq (s : State) : Nat := match s.compo.bootMf with | some m => bfld m.body 127 96 | none => 0
def State.bootDigest (s : State) : Nat := match s.compo.bootMf with | some m => leNat (m.digest.take 16) | none => 0

/-- This device's slice table. -/
def State.ownTable (s : State) : SliceTab :=
  let slices := (List.range 16).filter fun k => s.bootDev (12 * k + 139) (12 * k + 128) != 0 && !s.sliceLost k
  let near := (List.range 40).filter fun l => (s.link l).st.trained && (s.link l).peerIdent && !(s.link l).peerUnnumbered
  { uid := s.idn.uid, node := s.compo.claimNode, unnumbered := s.compo.unnumbered, mseq := s.bootSeq, mdig := s.bootDigest,
    sliceMask := maskOf slices, role := s.bootDev 79 78, epoch := s.compo.epoch, neigh := near.map fun l => (s.link l).peerNode }

/-- A table kept in place of an earlier one of the same device. -/
def State.keepTable (s : State) (t : SliceTab) : State :=
  { s with compo := { s.compo with tables := (s.compo.tables.filter fun u => u.uid != t.uid) ++ [t] } }

/-- Identity of a SLICE_TABLE; a table flooded again with the UNNUMBERED bit is another message (log entry 34). -/
def tabIdent (t : SliceTab) : Nat := t.epoch + 65536 * b2n t.unnumbered

/-- The own table kept and flooded. -/
def State.floodOwn (s : State) : State :=
  let t := s.ownTable
  ((s.keepTable t).see 3 t.uid (tabIdent t)).flood none (.sliceTable t)

/-- LINK ends: CLAIM is flooded, then the slice table (R524). -/
def execLinkPhaseEnd (s : State) : Res :=
  let c := s.compo
  if s.fwUp && c.phase == .link && (!(List.range 40).any (fun l => (s.link l).st == .training) || c.phaseAt + ms (s.kv kLinkPhase) ≤ s.now) then
    let s := if c.unnumbered then s else (s.see 2 s.idn.uid c.epoch).flood none (.claim s.idn.uid c.claimNode)
    let s := s.floodOwn
    .next { s with compo := { s.compo with phase := .flood, phaseAt := s.now } }
  else .next s

/-- A new CLAIM or table restarts the quiet time of FLOOD. -/
def State.stir (s : State) : State := if s.compo.phase = .flood then { s with compo := { s.compo with phaseAt := s.now } } else s

/-- A lower unique ID keeps the number this device claims (R526). -/
def State.yieldNumber (s : State) (uid node : Nat) : State :=
  if s.compo.phase = .idle ∨ s.compo.unnumbered ∨ node ≠ s.compo.claimNode ∨ s.idn.uid ≤ uid then s
  else
    let s := ({ s with compo := { s.compo with unnumbered := true } }).postEvent 0x0F11 0 node uid
    if s.compo.phase = .link then s else s.floodOwn

/-- CLAIM arrives: forwarded the first time. -/
def execClaim (l uid node epoch : Nat) (s : State) : Res :=
  if s.mapOn l && s.unseen 2 uid epoch then
    let s := (s.gotMgmt l (.claim uid node)).see 2 uid epoch
    .next ((s.flood (some l) (.claim uid node)).stir.yieldNumber uid node)
  else .next s

/-- SLICE_TABLE arrives: kept, and forwarded the first time. -/
def execSliceTable (l : Nat) (t : SliceTab) (s : State) : Res :=
  if s.mapOn l && s.unseen 3 t.uid (tabIdent t) then
    let s := ((s.gotMgmt l (.sliceTable t)).see 3 t.uid (tabIdent t)).flood (some l) (.sliceTable t)
    .next (if s.compo.phase = .idle then s else (s.keepTable t).stir)
  else .next s

/-! ## AGREE (R527) -/

/-- The component's manifest: highest `manifest_seq`, then lower digest prefix. -/
def compManifest (ts : List SliceTab) : Nat × Nat :=
  ts.foldl (fun b t => if b.1 < t.mseq || (b.1 == t.mseq && (b.1 == 0 || t.mdig < b.2)) then (t.mseq, t.mdig) else b) (0, 0)

/-- Tables of the numbered devices that hold the component's manifest. -/
def State.candidates (s : State) : List SliceTab :=
  let m := compManifest s.compo.tables
  s.compo.tables.filter fun t => !t.unnumbered && t.mseq == m.1 && t.mdig == m.2

/-- This device's own manifest is not the component's. -/
def State.excluded (s : State) : Bool := compManifest s.compo.tables != (s.bootSeq, s.bootDigest)

/-- Tables of the members: candidates reachable from this device over links between candidates. -/
def State.memberTabs (s : State) : List SliceTab :=
  let g : Graph := s.candidates.map fun t => (t.node, t.neigh)
  let d := g.levels s.compo.claimNode
  s.candidates.filter fun t => (Tab.find? d t.node).isSome

/-- Member node numbers, ascending. -/
def State.members (s : State) : List Nat := s.memberTabs.foldl (fun l t => NSet.add l t.node) []

/-- The membership digest, as a number. -/
def State.memberDigest (s : State) : Nat := leNat ((sha384 (s.members.flatMap (toLE 2 ·))).take 16)

/-- The links among the members, and their levels from the lowest-numbered one (13 R431). -/
def State.bootGraph (s : State) : Graph := s.memberTabs.map fun t => (t.node, t.neigh)
def State.bootLevels (s : State) : Tab Nat := s.bootGraph.levels (s.members.headD 0)

/-- Parent of a member: its lowest-numbered neighbour one level nearer the proposer. -/
def State.parentOf (s : State) (n : Nat) : Option Nat :=
  let lv := s.bootLevels
  least ((s.bootGraph.nbrs n).filter fun m => Tab.getD 0 lv m + 1 == Tab.getD 0 lv n)

/-- Its children. -/
def State.childrenOf (s : State) (n : Nat) : List Nat := s.members.filter fun m => s.parentOf m == some n

/-- This device is the proposer: the member of lowest number. -/
def State.proposes (s : State) : Bool := !s.compo.unnumbered && s.members.head? == some s.compo.claimNode

/-- The newest epoch in force among the members. -/
def State.newestEpoch (s : State) : Nat := s.memberTabs.foldl (fun e t => if epochNewer t.epoch e then t.epoch else e) s.compo.epoch

/-- A message sent to a neighbour over the lowest-numbered link to it. -/
def State.toNeighbour (s : State) (n : Nat) (m : MMsg) : State :=
  match (List.range 40).find? fun l => (s.link l).st.trained && (s.link l).peerIdent && !(s.link l).peerUnnumbered && (s.link l).peerNode == n with
  | some l => s.mgmtOn l m
  | none => s

/-! ## The commit (R529) -/

/-- The runs cut to `n` extents. -/
def trimRuns : Nat → List (Nat × Nat) → List (Nat × Nat)
  | _, [] => []
  | n, (a, k) :: rs => if n = 0 then [] else if n ≤ k then [(a, n)] else (a, k) :: trimRuns (n - k) rs

/-- A list turned by `k` places. -/
def rotated {α : Type} (l : List α) (k : Nat) : List α := l.drop k ++ l.take k

/-- Runs of a reservation brought to `n` extents: the surplus freed, or FREE extents of the gaps added as far as there are any. -/
def State.resize (s : State) (cur : List (Nat × Nat)) (n : Nat) (gaps : List (Nat × Nat)) : List (Nat × Nat) × State :=
  if n ≤ runTotal cur then (trimRuns n cur, s)
  else
    let c := s.choose gaps.length
    ((trimRuns (n - runTotal cur) (rotated gaps c.1)).foldl (fun l r => addRun r l) cur, c.2)

/-- T2 capacity composed: the extents of the drives in composed bays (11 R346, R347). -/
def State.composedT2 (s : State) : Nat :=
  ((List.range 8).map fun d =>
    let x := s.drive d
    if s.bayComposed d && x.present then min (x.capacity / extBytes) (2 ^ 25) else 0).foldl (· + ·) 0

/-- Extents asked for that the map and the tier cache do not hold. -/
def shortfall (map cache : Nat) (m c : List (Nat × Nat)) : Nat := map - runTotal m + (cache - runTotal c)

/-- The T2 map's reservation, of `n` extents (11 R342). -/
def State.reserveMap (s : State) (n : Nat) : State :=
  let (m, s) := s.resize s.t1Map n (s.t1Gaps none)
  { s with t1Map := m }

/-- The tier cache's reservation, of `n` extents of the fabric dies' stacks (11 R342, R369). -/
def State.reserveCache (s : State) (n : Nat) : State :=
  let (c, s) := s.resize s.t1Cache n ((List.range 8).flatMap fun i => s.t1Gaps (some (16 + i)))
  { s with t1Cache := c }.trimFrames

/-- The reservations of the T2 map and the tier cache under the new composition (11 R342, R369). -/
def State.reserve (s : State) : State :=
  let s := s.adopt kTierCache
  let t2 := s.composedT2
  let cache := if t2 = 0 then 0 else s.kv kTierCache
  let s := ({ s with compo := { s.compo with t2Extents := t2 } }.reserveMap (ceilDiv t2 262144)).reserveCache cache
  s.setCtr kReserveShort (shortfall (ceilDiv t2 262144) cache s.t1Map s.t1Cache)

/-- Rows of MD1 reserved for the route table; host tables that overlap them, or whose job is gone, are destroyed (15 R469). -/
def State.reserveRows (s : State) (members : Nat) : State :=
  let rows := ceilDiv members 1024 * 1024
  let s := { s with tum := { s.tum with routeRows := rows } }
  (List.range 16).foldl (fun s k =>
    let x := s.table k
    let width := x.depth * x.width * (if x.shadow then 2 else 1)
    if x.active && ((x.die == 1 && 131072 - rows < x.first + width) || (x.job != 0 && !s.jobHere x.job)) then s.loseTable k 1 else s) s

/-- Bays newly composed are powered (17 R550). -/
def State.powerBays (s : State) : State :=
  (List.range 8).foldl (fun s d =>
    let x := s.drive d
    if s.bayComposed d && x.present && !x.training && x.st == .absent then s.powerBay d else s) s

/-- The ports under the new map: UP toward members, UNMAPPED toward others; twin ports without a twin DISABLED (13 R416). OUT and
DRAINING ports stay out of routing (log entry 35). -/
def State.mapPorts (s : State) : State :=
  (List.range 40).foldl (fun s l =>
    let x := s.link l
    if 36 ≤ l ∧ !s.twinValid then (if x.st = .disabled then s else (s.portTo l .disabled).clearPort l)
    else if x.st = .unmapped ∧ s.peerMapped l then s.portTo l .up
    else if x.st = .training ∧ x.backTo = .unmapped ∧ s.peerMapped l then s.setLink l { x with backTo := .up }
    else s) s

/-- FABRIC_BOOTED and the completion of FABRIC_BOOT. -/
def State.booted (s : State) (status members : Nat) : State :=
  let c := s.compo
  let s := s.postEvent 0x0F10 0 (pack [(16, status), (16, c.epoch), (14, c.node), (1, b2n c.unnumbered)]) members
  s.finishAll (· == .fabricBoot)
    (if status = sOK then { r0 := pack [(16, c.epoch), (14, c.node), (1, b2n c.unnumbered)] } else refuse status)

/-- COMMIT at a member. -/
def State.commitMap (s : State) (epoch : Nat) : State :=
  let tabs := s.memberTabs
  let lv := s.bootLevels
  let me := s.compo.claimNode
  let count := s.members.length
  let now := s.now
  let changed : Bool := (s.compo.inForce.map (·.digest)) != (s.compo.bootMf.map (·.digest))
  let role := s.bootDev 79 78
  let c := s.compo
  let s := { s with compo := { c with inForce := c.bootMf, staged := none, bootMf := none, phase := .idle, epoch, node := me, mapped := true,
                                      role, roleKnown := true, uncommitted := false, unnumbered := false, tables := tabs, booting := [] } }
  let nodes := tabs.foldl (fun (t : Tab Node) (x : SliceTab) =>
    Tab.put {} t x.node { live := if x.node = me then .unmapped else .alive, role := x.role, uid := x.uid, beat := now, level := Tab.getD 0 lv x.node }) []
  let s := { s with fab := { s.fab with nodes } }
  let s := if changed then
      { s with idn := { s.idn with meas := s.idn.meas.take 5 ++ [match s.compo.inForce with | some m => m.digest | none => []] } }
    else s
  let s := { s with idn := { s.idn with mDoe := none, mMctp := none } }
  let s := s.reserve.powerBays
  let s := s.reserveRows count
  let s := s.mapPorts.buildRoutes
  let s := s.roleMode
  let s := (s.capChanged s.views).bump kFabricBoots
  s.booted sOK count

/-- The boot ends at a device that is no member: its ports stay UNMAPPED (R526). -/
def State.commitOutside (s : State) (epoch members : Nat) : State :=
  let s := { s with compo := { s.compo with phase := .idle, epoch, node := s.compo.claimNode, unnumbered := true, bootMf := none, booting := [] } }
  s.booted sOK members

/-- The fabric boot fails: no map is held (R527). -/
def State.failBoot (s : State) : State :=
  let s := { s with compo := { s.compo with phase := .idle, bootMf := none, booting := [], waiting := false } }
  s.booted sTimeout 0

/-! ## Proposal and acknowledgement -/

/-- The proposer sends COMMIT and commits. -/
def State.sendCommit (s : State) : State :=
  let e := s.compo.propEpoch
  let d := s.memberDigest
  ((s.see 7 0 e).flood none (.commit e d)).commitMap e

/-- Acknowledgement once the own digest matches and every child has acknowledged; the proposer commits on the full count. -/
def State.tryAck (s : State) : State :=
  let me := s.compo.claimNode
  let kids := s.childrenOf me
  if s.compo.acked || s.compo.waiting || !(kids.all fun k => (Tab.find? s.compo.acks k).isSome) then s
  else
    let n := 1 + (kids.map fun k => Tab.getD 0 s.compo.acks k).foldl (· + ·) 0
    let s := { s with compo := { s.compo with acked := true } }
    if s.proposes then (if n = s.members.length then s.sendCommit else s)
    else match s.parentOf me with
      | some p => s.toNeighbour p (.ack s.compo.propEpoch n false)
      | none => s

/-- A round of proposal opens at this device. -/
def State.openRound (s : State) (epoch : Nat) : State :=
  { s with compo := { s.compo with phase := .agree, phaseAt := s.now, rounds := s.compo.rounds + 1, propEpoch := epoch, proposed := true,
                                   waiting := false, acks := [], acked := false } }

/-- The proposer proposes an epoch. -/
def State.propose (s : State) (epoch : Nat) : State :=
  let m := compManifest s.compo.tables
  let s := ((s.openRound epoch).see 5 s.idn.uid epoch).flood none (.propose epoch s.idn.uid s.members.length m.2 s.memberDigest)
  s.tryAck

/-- A device whose manifest differs is excluded (R527). -/
def State.exclude (s : State) : State :=
  if s.excluded && !s.compo.unnumbered then
    ({ s with compo := { s.compo with unnumbered := true } }).postEvent 0x0F12 0 s.bootSeq (compManifest s.compo.tables).1
  else s

/-- FLOOD has been quiet, or the proposer's wait after a failed round is over: AGREE. -/
def execFloodQuietExpiry (s : State) : Res :=
  let c := s.compo
  let due : Bool := c.phaseAt + us (s.kv kFloodQuiet) ≤ s.now
  if s.fwUp && c.phase == .flood && due then
    let s := s.exclude
    let s := { s with compo := { s.compo with phase := .agree, phaseAt := s.now } }
    .next (if s.proposes then s.propose ((s.newestEpoch + 1) % 65536) else s)
  else if s.fwUp && c.phase == .agree && c.waiting && due then
    .next (if s.proposes then s.propose ((c.propEpoch + 1) % 65536) else s)
  else .next s

/-- A proposal judged: NAK where the membership differs. -/
def State.judgeProposal (s : State) (l epoch members digest : Nat) : State :=
  let s := s.exclude.openRound epoch
  if s.compo.unnumbered then s
  else if s.memberDigest = digest ∧ s.members.length = members then s.tryAck
  else
    let s := { s with compo := { s.compo with acked := true } }
    match s.parentOf s.compo.claimNode with
    | some p => s.toNeighbour p (.ack epoch 0 true)
    | none => s.mgmtOn l (.ack epoch 0 true)

/-- PROPOSE arrives: forwarded the first time, and acknowledged or refused. -/
def execPropose (l epoch uid members mdig digest : Nat) (s : State) : Res :=
  if s.mapOn l && s.unseen 5 uid epoch then
    let s := (((s.gotMgmt l (.propose epoch uid members mdig digest)).see 5 uid epoch).flood (some l)
      (.propose epoch uid members mdig digest))
    .next (if s.fwUp && (s.compo.phase == .flood || s.compo.phase == .agree) then s.judgeProposal l epoch members digest else s)
  else .next s

/-- The proposer's round has failed: another after the quiet time, or the boot fails. -/
def State.failRound (s : State) : State :=
  if s.kv kAgreeRounds ≤ s.compo.rounds then s.failBoot else { s with compo := { s.compo with waiting := true, phaseAt := s.now } }

/-- ACK or NAK from a child. -/
def execAgreeAck (l from_ epoch count : Nat) (nak : Bool) (s : State) : Res :=
  let c := s.compo
  if s.mapOn l && s.fwUp && c.phase == .agree && c.proposed && epoch == c.propEpoch && !c.waiting then
    let s := s.gotMgmt l (.ack epoch count nak)
    if nak then
      if s.proposes then .next s.failRound
      else
        let s := { s with compo := { s.compo with acked := true } }
        match s.parentOf c.claimNode with
        | some p => .next (s.toNeighbour p (.ack epoch 0 true))
        | none => .next s
    else .next ({ s with compo := { s.compo with acks := Tab.set s.compo.acks from_ count } }).tryAck
  else .next s

/-- AGREE without a full count in time, or the whole boot past its bound. -/
def execAgreeTimeout (s : State) : Res :=
  let c := s.compo
  if s.fwUp && c.phase != .idle && c.startAt + ms (s.kv kFbTimeout) ≤ s.now then .next s.failBoot
  else if s.fwUp && c.phase == .agree && !c.waiting && c.phaseAt + ms (s.kv kAgreeTimeout) ≤ s.now then
    if s.proposes then .next s.failRound
    else if c.proposed && s.kv kAgreeRounds ≤ c.rounds then .next s.failBoot
    else .next s
  else .next s

/-- COMMIT arrives: forwarded the first time, and acted on. -/
def execMapCommit (l epoch digest : Nat) (s : State) : Res :=
  if s.mapOn l && s.unseen 7 0 epoch then
    let s := ((s.gotMgmt l (.commit epoch digest)).see 7 0 epoch).flood (some l) (.commit epoch digest)
    if !s.fwUp || s.compo.phase = .idle then .next s
    else if s.compo.unnumbered then .next (s.commitOutside epoch s.candidates.length)
    else if s.compo.phase == .agree && epoch == s.compo.propEpoch && digest == s.memberDigest then .next (s.commitMap epoch)
    else .next s
  else .next s

end Sys2Proof.Machine
end

