-- ==== Sys2Proof/Machine/Coll.lean ====
section
/-! DEFINITION. The collective engines: reduce sessions, gather and filter runs, CONFIGURE_COLLECTIVE (13 R435 to R444). -/

namespace Sys2Proof.Machine

/-! ## Sessions -/

def State.sess (s : State) (k : Nat) : Sess := Tab.getD {} s.net.sess k
def State.setSess (s : State) (k : Nat) (x : Sess) : State := { s with net := { s.net with sess := Tab.put {} s.net.sess k x } }

/-- Session state code (R436). -/
def SessSt.code : SessSt → Nat
  | .free => 0 | .open_ => 1 | .running => 2 | .error => 3

/-- The reduce session, OPEN or in ERROR, whose range holds an offset. -/
def State.sessionAt (s : State) (a : Nat) : Option Nat :=
  Tab.first? s.net.sess fun _ x => (x.st == .open_ || x.st == .error) && x.rangeOff ≤ a && a < x.rangeOff + 128 * x.rangeLines

/-- Lines staged on an engine: contributions of incomplete lines (R437); the store holds 65,536. -/
def State.stagedOn (s : State) (eng : Nat) : Nat :=
  ((s.net.sess.filter fun e => e.1 / 16 == eng).map fun e => Tab.sum e.2.lines fun l => l.got.length).foldl (· + ·) 0
abbrev stagingLines := 65536

/-! ## Elements (R438) -/

/-- Bits of an element, and an element widened exactly. -/
def collBits (elem : Nat) : Nat := if elem = 0 then 32 else if elem = 1 then 16 else 8
def collDec (elem v : Nat) : FV := decElem (if elem = 0 then 10 else if elem = 1 then 8 else elem - 2) v
/-- A result as an element: FP8 overflow saturates. -/
def collEnc (elem : Nat) (x : FV) : Nat :=
  if elem = 0 then enc32 x
  else if elem = 1 then encIeee 8 7 false x
  else match x with
    | .nan => fp8NanCode (elem - 2)
    | .inf s => b2n s * 128 + (if elem = 2 then 0x7E else 0x7C)
    | .fin s m e => encMxFloat (elem - 2) false false s m e

/-- Two contributions' elements combined. -/
def collOp (isMax : Bool) (a b : FV) : FV := if isMax then FV.max a b else rne (FV.add a b)

/-- Element `i` of the result of contributions in order. -/
def collElem (x : Sess) (ls : List Nat) (i : Nat) : Nat :=
  let b := collBits x.elem
  match ls.map fun l => collDec x.elem (fld l (b * i + b - 1) (b * i)) with
  | [] => 0
  | v :: vs => collEnc x.elem (vs.foldl (collOp x.isMax) v)

/-- Contributions in the order in which they are combined: ascending node number where the session is deterministic. -/
def collOrder (x : Sess) (got : List (Nat × Nat × Bool)) : List (Nat × Nat × Bool) :=
  if x.det then x.contrib.filterMap fun n => got.find? (·.1 == n) else got

/-- The result line of the contributions to a line, and whether one of them is poisoned. -/
def collResult (x : Sess) (got : List (Nat × Nat × Bool)) : List Byte × Bool :=
  let ls := (collOrder x got).map (·.2.1)
  let b := collBits x.elem
  (toLE 128 (pack ((List.range (1024 / b)).map fun i => (b, collElem x ls i))), got.any (·.2.2))

/-! ## Errors and forwarded writes (R440) -/

/-- Payload of a WRITE. -/
def writePay (mask : Nat) (data : List Byte) : Payload := .bytes (toLE 16 mask ++ padTo 128 data)

/-- The session enters ERROR: what it has staged is discarded, COLLECTIVE_ERROR is posted. -/
def State.sessError (s : State) (k node status : Nat) : State :=
  let x := s.sess k
  if x.st != .open_ then s
  else
    let s := s.setSess k { x with st := .error, lines := [] }
    let s := s.dropTxns fun t => match t.who with | .collFwd e n _ => e * 16 + n == k | _ => false
    s.postEvent 0x0B02 0 (pack [(2, k / 16), (6, 0), (4, k % 16), (4, 0), (12, x.job), (4, 0), (14, node)]) status

/-- What becomes of a write to a line of a reduce range. -/
inductive Contrib where
  /-- Accepted (and ACKed). -/
  | taken
  /-- Refused, with a NACK reason. -/
  | nack (reason : Nat)
  deriving DecidableEq, Repr

/-- A line write to this node of a job's data that is a contribution where a session's range holds it; `fuel` bounds a chain of sessions
that forward to one another here. A write refused by its home's grants is lost (DESIGN CHOICE, log entry 25). -/
def State.landLine : Nat → Nat → Nat → Nat → List Byte → Bool → State → Contrib × State
  | 0, _, _, _, _, _, s => (.nack nState, s)
  | fuel + 1, a, job, node, data, poison, s =>
    match s.sessionAt a with
    | none =>
      if a < hbmSize && s.hbmPermit (.job job) .wr a 128 then (.taken, s.putLine (a / 128) (2 ^ 128 - 1) data poison)
      else (.nack nNotGranted, s)
    | some k =>
      let x := s.sess k
      let i := (a - x.rangeOff) / 128
      if x.st = .error then (.nack nState, s)
      else if x.job != job || !x.contrib.contains node then (.nack nNotGranted, s)
      else
        let l : CollLine := match Tab.find? x.lines i with | some l => l | none => { due := s.now + us (s.kv kCollTimeout) }
        if l.got.any (·.1 == node) then (.taken, s.bump kCollDup)
        else
          let got := l.got ++ [(node, leNat data, poison)]
          if got.length < x.contrib.length then (.taken, s.setSess k { x with lines := Tab.set x.lines i { l with got } })
          else
            let r := collResult x got
            let s := s.setSess k { x with lines := Tab.erase x.lines i }
            if !x.fwd then (.taken, s.putLine (a / 128) (2 ^ 128 - 1) r.1 r.2)
            else
              let to_ := (x.fwdAddr + 128 * i) % 2 ^ 64
              if to_ / 2 ^ 50 = s.self then (.taken, (State.landLine fuel (to_ % 2 ^ 50) x.job s.self r.1 r.2 s).2)
              else if s.dead (to_ / 2 ^ 50) then (.taken, s.sessError k (to_ / 2 ^ 50) sStateLost)
              else (.taken, s.request (.collFwd (k / 16) (k % 16) i) (to_ / 2 ^ 50) 0x2 x.cls 0 (to_ % 2 ^ 50) x.job (writePay (2 ^ 128 - 1) r.1) r.2)

/-- A write to a line of this node: a contribution needs a full mask, else MALFORMED (R437). -/
def State.contribute (s : State) (a job node mask : Nat) (data : List Byte) (poison : Bool) : Contrib × State :=
  match s.sessionAt a with
  | some k =>
    let x := s.sess k
    if x.st != .error && x.job == job && x.contrib.contains node && mask != 2 ^ 128 - 1 then (.nack nMalformed, s)
    else State.landLine 64 a job node data poison s
  | none => State.landLine 64 a job node data poison s

/-- The result of a line that timed out: written or forwarded as a poisoned line (R439). -/
def State.lineLate (s : State) (k i : Nat) : State :=
  let x := s.sess k
  let s := (s.setSess k { x with lines := Tab.erase x.lines i }).bump kCollPoisoned
  let data := List.replicate 128 (0 : Byte)
  if !x.fwd then s.putLine (x.rangeOff / 128 + i) (2 ^ 128 - 1) data true
  else
    let to_ := (x.fwdAddr + 128 * i) % 2 ^ 64
    if to_ / 2 ^ 50 = s.self then (s.contribute (to_ % 2 ^ 50) x.job s.self (2 ^ 128 - 1) data true).2
    else if s.dead (to_ / 2 ^ 50) then s.sessError k (to_ / 2 ^ 50) sStateLost
    else s.request (.collFwd (k / 16) (k % 16) i) (to_ / 2 ^ 50) 0x2 x.cls 0 (to_ % 2 ^ 50) x.job (writePay (2 ^ 128 - 1) data) true

/-- A line of a reduce session has not become complete within its timeout. -/
def execCollLineTimeout (eng sess line : Nat) (s : State) : Res :=
  let k := eng * 16 + sess
  match Tab.find? (s.sess k).lines line with
  | some l => .next (if s.runs && sess < 16 && (s.sess k).st == .open_ && l.due ≤ s.now then s.lineLate k line else s)
  | none => .next s

/-! ## Runs (R441) -/

/-- A run ends: its session is FREE and its command completes with the lines written. -/
def State.runEnd (s : State) (k status : Nat) : State :=
  let x := s.sess k
  let s := s.setSess k {}
  let s := s.dropTxns fun t => match t.who with
    | .collRead e n _ => e * 16 + n == k
    | .collWrite e n => e * 16 + n == k
    | _ => false
  s.finishId (x.cmd - 1) { status, r0 := x.written - x.writes }

/-- Every line has arrived and every write is acknowledged. -/
def State.settleRun (s : State) (k : Nat) : State :=
  let x := s.sess k
  if x.st == .running && x.next == x.srcs.length && x.writes == 0 then s.runEnd k sOK else s

/-- Output line `i` of a run written at its destination. -/
def State.runWrite (s : State) (k i line : Nat) (poison : Bool) : State :=
  let x := s.sess k
  let a := (x.dst + 128 * i) % 2 ^ 64
  if x.st != .running then s
  else if a / 2 ^ 50 = s.self then
    match windowOf (a % 2 ^ 50) with
    | .hbm o =>
      if s.hbmPermit (.job x.job) .wr o 128 then
        (s.putLine (o / 128) (2 ^ 128 - 1) (toLE 128 line) poison).setSess k { x with written := x.written + 1 }
      else s.runEnd k sBadField
    | _ => s.runEnd k sBadField
  else if !s.mapped (a / 2 ^ 50) then s.runEnd k sBadField
  else if s.dead (a / 2 ^ 50) then s.runEnd k sStateLost
  else
    (s.setSess k { x with written := x.written + 1, writes := x.writes + 1 }).request (.collWrite (k / 16) (k % 16)) (a / 2 ^ 50) 0x2 x.cls 0
      (a % 2 ^ 50) x.job (writePay (2 ^ 128 - 1) (toLE 128 line)) poison

/-- Field of a line as a number (NaN possible): FP32, BF16, INT32, UINT32. -/
def collField (fty foff line : Nat) : FV :=
  let v := fld line (8 * foff + 31) (8 * foff)
  match fty with
  | 0 => dec32 v
  | 1 => decElem 8 (v % 65536)
  | 2 => ofInt (sext 32 v)
  | _ => ofInt (v : Int)

/-- The comparison of a PREDICATE run. -/
def collCmp (cmp : Nat) (a b : FV) : Bool :=
  match cmp with
  | 0 => FV.lt a b
  | 1 => FV.lt a b || FV.eqv a b
  | 2 => FV.eqv a b
  | 3 => FV.lt b a || FV.eqv a b
  | 4 => FV.lt b a
  | _ => !FV.eqv a b

/-- Line `a` ranks above line `b` for TOPK: NaN below every number, ties to the lower k. -/
def collAbove (a b : FV × Nat) : Bool :=
  if a.1 = .nan ∧ b.1 = .nan then a.2 < b.2
  else if b.1 = .nan then true
  else if a.1 = .nan then false
  else FV.lt b.1 a.1 || (FV.eqv a.1 b.1 && a.2 < b.2)

/-- A rank list with an entry in its place. -/
def rankIn (e : FV × Nat) : List (FV × Nat) → List (FV × Nat)
  | [] => [e]
  | f :: fs => if collAbove e f then e :: f :: fs else f :: rankIn e fs

/-- Indexes of the lines a filter run keeps. -/
def collKeep (x : Sess) : List Nat :=
  let fs := x.got.map fun g => (collField x.fty x.foff g.2.1, g.1)
  if x.topk then ((fs.foldl (fun l e => (rankIn e l).take x.k) []).map (·.2))
  else
    let c := collField x.fty 0 x.const
    (fs.filter fun f => collCmp x.cmp f.1 c).map (·.2)

/-- Line k of a run has arrived. -/
def State.runLine (s : State) (k i line : Nat) (poison : Bool) : State :=
  let x := s.sess k
  if x.st != .running then s
  else if !x.filter then ((s.setSess k { x with next := x.next + 1 }).runWrite k i line poison).settleRun k
  else
    let x := { x with next := x.next + 1, got := x.got ++ [(i, line, poison)] }
    let s := s.setSess k x
    if x.next < x.srcs.length then s
    else
      let keep := collKeep x
      let out := (x.got.filter fun g => keep.contains g.1).zipIdx
      -- lines arrive in order of k from this node; those a drive delays are put in their place
      let out := ((List.range x.srcs.length).filterMap fun n => (out.find? fun o => o.1.1 == n).map (·.1)).zipIdx
      (out.foldl (fun s (g, j) => s.runWrite k j g.2.1 g.2.2) s).settleRun k

/-- Line k of a run read at its source. -/
def State.runRead (s : State) (k i a : Nat) : State :=
  let x := s.sess k
  if x.st != .running then s
  else if a / 2 ^ 50 = s.self then
    match windowOf (a % 2 ^ 50) with
    | .hbm o =>
      if s.hbmPermit (.job x.job) .rd o 128 then s.runLine k i (leNat (s.hbmRead o 128)) (s.poisonAt (o / 128)) else s.runEnd k sBadField
    | .tier o =>
      if s.tierPermit (.job x.job) .rd o then
        match s.readSector o with
        | (.hit, s) => s.runLine k i (leNat (Mem.readN s.t2 o 128)) false
        | (.wait op, s) => s.setSess k { x with waits := x.waits ++ [(op, i)] }
        | (.fail, s) => (s.bump kTierPoison).runLine k i 0 true
      else s.runEnd k sBadField
    | .none => s.runEnd k sBadField
  else if !s.mapped (a / 2 ^ 50) || windowOf (a % 2 ^ 50) == .none then s.runEnd k sBadField
  else if s.dead (a / 2 ^ 50) then s.runEnd k sStateLost
  else s.request (.collRead (k / 16) (k % 16) i) (a / 2 ^ 50) 0x1 x.cls 0 (a % 2 ^ 50) x.job (.bytes [])

/-- A drive operation has ended: the lines of runs that waited for it go on. -/
def State.runTier (s : State) (op : Nat) (ok : Bool) : State :=
  (Tab.keysOf s.net.sess fun _ x => x.waits.any (·.1 == op)).foldl (fun s k =>
    let x := s.sess k
    let s := s.setSess k { x with waits := x.waits.filter (·.1 != op) }
    (x.waits.filter (·.1 == op)).foldl (fun s w =>
      let o := x.srcs.getD w.2 0 % 2 ^ 50 - tierBase
      if ok then s.runLine k w.2 (leNat (Mem.readN s.t2 o 128)) false else (s.bump kTierPoison).runLine k w.2 0 true) s) s

/-! ## CONFIGURE_COLLECTIVE (R442, R443) -/

/-- Session key of a command. -/
def collKey (p : Pkt) : Nat := p.f 3 2 * 16 + p.f 11 8

/-- Every extent of a range is GRANTED to a job. -/
def State.inJobExts (s : State) (j off len : Nat) : Bool :=
  s.rangeExts off len fun x => x.st == .granted && (match x.who with | .job _ k => k == j | _ => false)

/-- Contributor entry `i`. -/
def contribAt (p : Pkt) (i : Nat) : Nat := p.xf (576 + 16 * i + 15) (576 + 16 * i)
def contribs (p : Pkt) : List Nat := (List.range (p.xf 118 112)).map (contribAt p)

/-- Strictly ascending. -/
def ascending : List Nat → Bool
  | a :: b :: l => a < b && ascending (b :: l)
  | _ => true

abbrev collResv : List (Nat × Nat) := [(7, 4), (15, 12), (383, 28)]

/-- Fields of the extended block that every action reserves (R442; step 4 of R62). -/
def collExt (x : List Byte) : Bool :=
  let f := bfld x
  f 95 84 == 0 && f 103 101 == 0 && f 111 106 == 0 && f 127 119 == 0 && f 383 341 == 0 && f 519 518 == 0 && f 527 527 == 0 && f 543 541 == 0 &&
    f 2047 1600 == 0 && (List.range 64).all fun i => f (576 + 16 * i + 15) (576 + 16 * i + 14) == 0

/-- A field that OPEN_REDUCE, or its `fwd_v` or `contrib_count`, reserves is not zero (R442, R583). -/
def openReserved (p : Pkt) : Bool :=
  (p.xf 100 100 == 0 && p.xf 191 128 != 0) || p.xf 575 192 != 0 || (List.range 64).any fun i => p.xf 118 112 ≤ i && contribAt p i != 0

/-- A field that a run, or its `indexed` or `kind`, reserves is not zero (R442, R583). -/
def runReserved (filter : Bool) (p : Pkt) : Bool :=
  p.xf 103 0 != 0 || p.xf 191 106 != 0 || (if p.xf 340 340 = 1 then p.xf 319 256 != 0 else p.xf 447 384 != 0) || p.xf 1599 576 != 0 ||
    (if filter then (if p.xf 512 512 = 1 then p.xf 517 515 != 0 || p.xf 575 544 != 0 else p.xf 540 528 != 0) else p.xf 575 512 != 0)

/-- The session's state does not allow the action; the code. -/
def State.sessBusy (s : State) (k : Nat) : Bool × Ans := conflict ((s.sess k).st != .free) (s.sess k).st.code

def checkOpenReduce (p : Pkt) (s : State) : Option Ans :=
  let j := p.f 27 16
  let off := p.xf 63 0
  let n := p.xf 83 64
  let c := p.xf 118 112
  let meets (x : Sess) : Bool := x.st == .open_ && off < x.rangeOff + 128 * x.rangeLines && x.rangeOff < off + 128 * n
  firstFail
    [badLen (n == 0 || outside c 2 64 || hbmSize < off + 128 * n), badHandle p,
     badFld (p.f 1 0 != 0 || openReserved p || !s.jobHere j || misaligned off 128 || (p.xf 100 100 == 1 && (misaligned (p.xf 191 128) 128 || !s.mapped (p.xf 191 178))) ||
       !(contribs p).all s.mapped || !ascending (contribs p) || !s.inJobExts j off (128 * n)),
     s.sessBusy (collKey p), conflict (s.net.sess.any fun e => meets e.2) 1, lowPowerBar s 2]

def rowOpenReduce : CmdRow :=
  { opcode := 0x0B03, resv := collResv, ext := fun _ => 256, extOk := fun _ x => collExt x,
    check := checkOpenReduce,
    act := fun p _ s =>
      .done {} (s.setSess (collKey p)
        { st := .open_, job := p.f 27 16, rangeOff := p.xf 63 0, rangeLines := p.xf 83 64, elem := p.xf 97 96, isMax := p.xf 98 98 == 1,
          det := p.xf 99 99 == 1, fwd := p.xf 100 100 == 1, fwdAddr := p.xf 191 128, cls := p.xf 105 104, contrib := contribs p }) }

def execOpenReduce (p : Pkt) (s : State) : Res := .next (hostCommand rowOpenReduce p s)

def rowCollectiveClose : CmdRow :=
  { opcode := 0x0B03, resv := collResv,
    check := fun p s =>
      firstFail [badHandle p, badFld (p.f 1 0 != 1 || !s.jobHere (p.f 27 16)), conflict ((s.sess (collKey p)).st == .running) 2],
    act := fun p _ s =>
      if (s.sess (collKey p)).st = .free then .done { status := sOkAlready } s
      else
        let k := collKey p
        let s := s.dropTxns fun t => match t.who with | .collFwd e n _ => e * 16 + n == k | _ => false
        .done {} (s.setSess k {}) }

def execCollectiveClose (p : Pkt) (s : State) : Res := .next (hostCommand rowCollectiveClose p s)

/-- Source addresses of a run, in order of k. -/
def State.runSrcs (s : State) (p : Pkt) : List Nat :=
  let base := p.xf 255 192
  (List.range (p.xf 339 320)).map fun (i : Nat) =>
    if p.xf 340 340 == 1 then (base + 128 * leNat (s.hbmRead (p.xf 447 384 + 4 * i) 4)) % 2 ^ 64
    else wrapInt 64 (base + i * sext 64 (p.xf 319 256))

/-- Checks common to the two runs; the last field says which sources are wrong. -/
def checkRun (filter : Bool) (p : Pkt) (s : State) : Option Ans :=
  let j := p.f 27 16
  let n := p.xf 339 320
  let ix := p.xf 340 340 == 1
  let topk := p.xf 512 512 == 1
  let size := if p.xf 514 513 = 1 then 2 else 4
  firstFail
    [badLen (n == 0 || (ix && hbmSize < p.xf 447 384 + 4 * n) || (filter && topk && (outside (p.xf 540 528) 1 4096 || n < p.xf 540 528))),
     badHandle p,
     badFld (p.f 1 0 != (if filter then 3 else 2) || runReserved filter p || !s.jobHere j || misaligned (p.xf 255 192) 128 || misaligned (p.xf 319 256) 128 || misaligned (p.xf 511 448) 128 ||
       (ix && misaligned (p.xf 447 384) 4) || !s.mapped (p.xf 255 242) || !s.mapped (p.xf 511 498) ||
       (ix && !s.inJobExts j (p.xf 447 384) (4 * n)) ||
       (filter && (outside (p.xf 526 520) 0 124 || misaligned (p.xf 526 520) size || (!topk && 5 < p.xf 517 515) ||
          (s.runSrcs p).any fun a => a / 2 ^ 50 != s.self))),
     s.sessBusy (collKey p), lowPowerBar s 2]

/-- A run starts: every line is read. -/
def actRun (filter : Bool) (p : Pkt) (id : Nat) (s : State) : Done :=
  let k := collKey p
  let x : Sess := { st := .running, job := p.f 27 16, cls := p.xf 105 104, filter, srcs := s.runSrcs p, dst := p.xf 511 448,
                    topk := p.xf 512 512 == 1, fty := p.xf 514 513, cmp := p.xf 517 515, foff := p.xf 526 520, k := p.xf 540 528,
                    const := p.xf 575 544, cmd := id + 1 }
  .wait (.collRun (k / 16) (k % 16)) true (some (ms 250 + us x.srcs.length))
    (x.srcs.zipIdx.foldl (fun s (a, i) => s.runRead k i a) (s.setSess k x))

def rowRunGather : CmdRow :=
  { opcode := 0x0B03, resv := collResv, ext := fun _ => 256, extOk := fun _ x => collExt x, check := checkRun false, act := actRun false }

def execRunGather (p : Pkt) (s : State) : Res := .next (hostCommand rowRunGather p s)

def rowRunFilter : CmdRow :=
  { opcode := 0x0B03, resv := collResv, ext := fun _ => 256, extOk := fun _ x => collExt x, check := checkRun true, act := actRun true }

def execRunFilter (p : Pkt) (s : State) : Res := .next (hostCommand rowRunFilter p s)

end Sys2Proof.Machine
end

