-- ==== Sys2Proof/Machine/Engine.lean ====
section
/-! DEFINITION. How an engine starts and completes descriptors: start conditions, tokens, counters, loops, the scratchpad and its poison,
unordered accesses, faults; and the control descriptors (05 R178 to R185, 06 R206, R211 to R216, R227 to R232). -/

namespace Sys2Proof.Machine

/-! ## Where a descriptor row acts -/

/-- The engine a descriptor row names, with its context, and the descriptor. -/
structure At where
  id : Nat
  rank : Nat
  eng : Nat
  core : Nat
  d : Nat
  deriving DecidableEq, Repr

def State.coreOf (s : State) (a : At) : CoreCtx := (s.pc a.id).core.getD a.rank {}
def State.engOf (s : State) (a : At) : Engine := (s.coreOf a).engines.getD a.eng {}

/-- `f` applied to the core, and to the engine. -/
def State.modCore (s : State) (a : At) (f : CoreCtx → CoreCtx) : State :=
  s.modPc a.id fun x => { x with core := x.core.set a.rank (f (x.core.getD a.rank {})) }
def State.modEng (s : State) (a : At) (f : Engine → Engine) : State :=
  s.modCore a fun c => { c with engines := c.engines.set a.eng (f (c.engines.getD a.eng {})) }

/-- Kind of core, and its index among 96. -/
def State.isDecode (s : State) (a : At) : Bool := (s.pc a.id).decode
def State.coreNo (s : State) (a : At) : Nat := coreIx (s.isDecode a) a.core

/-! ## Start conditions (06 R211, R212, R232, 10 R333) -/

/-- No switch keeps the engine from starting the descriptor: none stands at a stop, and a yield request lets it run on to the point before
the yield point that makes `yseq` the target. -/
def State.mayRun (s : State) (a : At) : Bool :=
  match (s.rot (a.id / 8) (s.isDecode a)).sw with
  | none => true
  | some w =>
    match w.phase with
    | .asking => true
    | .yielding => !(dYield a.d && (s.engOf a).yseq + 1 == (s.coreOf a).target)
    | _ => false

/-- The counter condition holds, and every wait queue has its tokens. -/
def State.ready (s : State) (a : At) : Bool :=
  let c := s.coreOf a
  let ws := dWaits a.d
  (match dCtrWait a.d with | some (i, v) => v ≤ (s.pc a.id).ctr i | none => true) &&
    ws.all fun q => (ws.filter (· == q)).length ≤ (Tab.getD [] c.queues q).length

/-- The engine is at the descriptor of the row and may start it: the context runs, the descriptor is the next of its stream, its order
and start conditions hold. Load and store engines may have several in progress; a completed descriptor whose signal queues are full
stalls its engine. -/
def State.startAt (s : State) (e : EngAt) (d : Desc) (ok : Nat → Bool) : Option At :=
  let x := s.pc e.pc
  match x.cores.zipIdx.find? fun c => c.1 == e.core with
  | none => none
  | some (_, rank) =>
    let a : At := { id := e.pc, rank, eng := e.eng, core := e.core, d := d.toNat }
    let g := s.engOf a
    let several : Bool := (e.eng == 0 || e.eng == 1) && 7 < dOp a.d && (match g.busy with | p :: _ => !p.waits.isEmpty | [] => true)
    if s.runs && x.live && x.place == .onCores && (s.rot (e.pc / 8) x.decode).cur == e.pc % 8 + 1 && s.coreMhz (s.coreNo a) != 0 &&
        e.eng < engCount x.decode && !g.halted && g.pos < (s.stream x.image x.decode e.eng).2 &&
        a.d == s.descAt x.image x.decode e.eng g.pos && ok a.d && opOn e.eng (dOp a.d) && (g.busy.isEmpty || several) &&
        s.mayRun a && s.ready a then some a
    else none

/-! ## Completion (05 R179, 06 R211, R215) -/

/-- Queues a descriptor signals have room for its tokens. -/
def roomFor (qs : Tab (List (List Nat))) (d : Nat) : Bool :=
  let ss := dSigs d
  ss.all fun q => (Tab.getD [] qs q).length + (ss.filter (· == q)).length ≤ 64

/-- The engine has no descriptor left and none in progress: it halts. -/
def State.haltAtEnd (s : State) (a : At) : State :=
  let g := s.engOf a
  if g.busy.isEmpty && (s.stream (s.pc a.id).image (s.isDecode a) a.eng).2 ≤ g.pos then s.modEng a fun g => { g with halted := true } else s

/-- Descriptors at the head of the engine that are complete and find room signal, in stream order; `fuel` bounds their number. -/
def State.signal : Nat → At → State → State
  | 0, _, s => s
  | n + 1, a, s =>
    match (s.engOf a).busy with
    | [] => s.haltAtEnd a
    | p :: ps =>
      let c := s.coreOf a
      if p.waits.isEmpty && roomFor c.queues p.desc then
        let s := s.modCore a fun c => { c with queues := (dSigs p.desc).foldl (fun t q => Tab.modify [] t q (· ++ [p.clock])) c.queues }
        let s := match dCtrInc p.desc with | some i => s.modPc a.id fun x => x.raise i 1 | none => s
        State.signal n a (s.modEng a fun g => { g with busy := ps, progress := s.now })
      else s

/-- Touches that every engine that still runs knows to be over are dropped. -/
def CoreCtx.forget (c : CoreCtx) : CoreCtx :=
  { c with touches := c.touches.filter fun t =>
      let n := t.clock.getD t.eng 0
      c.engines.zipIdx.any fun (g, i) => if i = t.eng then g.busy.any fun p => p.clock.getD t.eng 0 ≤ n else !g.halted && g.clock.getD t.eng 0 < n }

/-- Every engine of the core signals what it can; then the context ends if every engine has halted. -/
def State.settleCore (s : State) (a : At) : State :=
  let s := (List.range (s.coreOf a).engines.length).foldl (fun s i =>
    let b := { a with eng := i }
    State.signal ((s.engOf b).busy.length + 1) b s) s
  (s.modCore a CoreCtx.forget).settleHalt a.id

/-! ## The scratchpad and the banks (05 R162, R180, R184, R185) -/

/-- Byte `x` of the core's scratchpad, and byte `x` of its banks ((me × 2 + bank) × 64 KiB + offset), as keys. -/
def State.spKey (s : State) (a : At) (x : Nat) : Nat := s.coreNo a * 2 ^ 25 + x
def State.accKey (s : State) (a : At) (x : Nat) : Nat := s.coreNo a * 2 ^ 20 + x

def State.spRead (s : State) (a : At) (x n : Nat) : List Byte := Mem.readN s.sp (s.spKey a x) n
def State.spNat (s : State) (a : At) (x n : Nat) : Nat := leNat (s.spRead a x n)
def State.accNat (s : State) (a : At) (x n : Nat) : Nat := leNat (Mem.readN s.acc (s.accKey a x) n)

/-- Some 64-bit word of a range is poisoned. -/
def poisonIn (p : NSet) (k n : Nat) : Bool := n != 0 && p.any fun w => k / 8 ≤ w && w ≤ (k + n - 1) / 8
def State.spBad (s : State) (a : At) (x n : Nat) : Bool := poisonIn s.spPoison (s.spKey a x) n
def State.accBad (s : State) (a : At) (x n : Nat) : Bool := poisonIn s.accPoison (s.accKey a x) n

/-- Poison of the words of a range after a write of it: poisoned words if the data is, else whole words written are clean (DEDUCED, log
entry 24). -/
def poisonAfter (p : NSet) (k n : Nat) (bad : Bool) : NSet :=
  if n = 0 then p
  else if bad then (List.range ((k + n - 1) / 8 + 1 - k / 8)).foldl (fun q i => NSet.add q (k / 8 + i)) p
  else p.filter fun w => w * 8 < k || k + n < w * 8 + 8

def State.spWrite (s : State) (a : At) (x : Nat) (bs : List Byte) (bad : Bool) : State :=
  let k := s.spKey a x
  { s with sp := Mem.writeN s.sp k bs, spPoison := poisonAfter s.spPoison k bs.length bad }
def State.accWrite (s : State) (a : At) (x : Nat) (bs : List Byte) (bad : Bool) : State :=
  let k := s.accKey a x
  { s with acc := Mem.writeN s.acc k bs, accPoison := poisonAfter s.accPoison k bs.length bad }

/-! ## Accesses that no token orders (05 R180) -/

/-- Pieces touched, of the scratchpad or of the banks. -/
structure Acc where
  wr : Bool
  acc : Bool
  parts : List (Nat × Nat)
  deriving DecidableEq, Repr

/-- The common bytes of two lists of pieces. -/
def meet (xs ys : List (Nat × Nat)) : List (Nat × Nat) :=
  xs.flatMap fun x => ys.filterMap fun y =>
    let lo := max x.1 y.1
    let hi := min (x.1 + x.2) (y.1 + y.2)
    if lo < hi then some (lo, hi - lo) else none

/-- Touch `t` is known to be over to a descriptor with clock `c`. -/
def Touch.before (t : Touch) (c : List Nat) : Bool := t.clock.getD t.eng 0 ≤ c.getD t.eng 0

/-- Bytes given free values. -/
def State.scramble (s : State) (a : At) (acc : Bool) (ps : List (Nat × Nat)) : State :=
  ps.foldl (fun s p =>
    let v := s.freeVals p.2
    let bs := v.1.map (BitVec.ofNat 8)
    if acc then { v.2 with acc := Mem.writeN v.2.acc (v.2.accKey a p.1) bs } else { v.2 with sp := Mem.writeN v.2.sp (v.2.spKey a p.1) bs }) s

/-- Bytes of an access by a descriptor with clock `c` that overlap an access of another engine, one of the two a write, and that no token
orders, get free values. What the earlier access read or computed is not changed (log entry 26). -/
def State.race (s : State) (a : At) (c : List Nat) (x : Acc) : State :=
  let me := c.getD a.eng 0
  let hit := (s.coreOf a).touches.filter fun t =>
    t.eng != a.eng && t.acc == x.acc && (t.wr || x.wr) && !t.before c && !(me ≤ t.clock.getD a.eng 0)
  hit.foldl (fun s t => s.scramble a x.acc (meet x.parts t.parts)) s

/-! ## Running a descriptor -/

/-- The next position: past the descriptor, back to the start of a body with iterations left, or out of a finished body. -/
def loopBack : Nat → Nat → List LoopFrame → Nat × List LoopFrame
  | 0, p, fs => (p, fs)
  | n + 1, p, fs =>
    match fs with
    | [] => (p, [])
    | f :: rest =>
      if p = f.stop then (if 0 < f.left then (f.start, { f with left := f.left - 1 } :: rest) else loopBack n p rest) else (p, fs)

/-- The engine leaves the descriptor it starts: LOOP (with its count) enters or skips its body, HALT goes to the end of the stream. -/
def Engine.advance (g : Engine) (d count total : Nat) : Engine :=
  if dOp d = opHalt then { g with pos := total, loops := [] }
  else
    let body := fld d 183 160
    let r :=
      if dOp d = opLoop then
        if count = 0 then loopBack (g.loops.length + 1) (g.pos + 1 + body) g.loops
        else (g.pos + 1, { start := g.pos + 1, stop := g.pos + 1 + body, left := count - 1 } :: g.loops)
      else loopBack (g.loops.length + 1) (g.pos + 1) g.loops
    { g with pos := r.1, loops := r.2 }

/-- Pointwise maximum of two clocks. -/
def clockMax (a b : List Nat) : List Nat := (List.range (max a.length b.length)).map fun i => max (a.getD i 0) (b.getD i 0)

/-- Tokens taken, the clock advanced, a yield point counted: the clock of the descriptor, and the state. -/
def State.begin_ (s : State) (a : At) : List Nat × State :=
  let c := s.coreOf a
  let r := (dWaits a.d).foldl (fun (r : List Nat × Tab (List (List Nat))) q =>
    match Tab.getD [] r.2 q with
    | t :: ts => (clockMax r.1 t, Tab.put [] r.2 q ts)
    | [] => r) ((s.engOf a).clock, c.queues)
  let clock := r.1.set a.eng (r.1.getD a.eng 0 + 1)
  let s := s.modCore a fun c => { c with queues := r.2 }
  (clock, s.modEng a fun g => { g with clock, progress := s.now, yseq := if dYield a.d then g.yseq + 1 else g.yseq })

/-- The descriptor enters the engine's list with the answers it waits for, the engine goes on to its next, and what is complete signals. -/
def State.launch (s : State) (a : At) (clock : List Nat) (waits : List LineWait) (loopCount : Nat := 0) : State :=
  let total := (s.stream (s.pc a.id).image (s.isDecode a) a.eng).2
  let s := s.modEng a fun g => { g.advance a.d loopCount total with busy := g.busy ++ [{ index := g.pos, desc := a.d, waits, clock }] }
  s.settleCore a

/-- The descriptor faults: the context is reset (06 R227). -/
def State.faultDesc (s : State) (a : At) (code ea : Nat) : State := s.resetProg a.id a.rank a.eng code (s.engOf a).pos ea

/-- Touches of a descriptor recorded. -/
def State.touch (s : State) (a : At) (clock : List Nat) (xs : List Acc) : State :=
  s.modCore a fun c => { c with touches := c.touches ++ xs.map fun x => { eng := a.eng, clock, wr := x.wr, acc := x.acc, parts := x.parts } }

/-- A descriptor that is done at one moment: its accesses checked, what no token orders made free, its effect, its completion. -/
def State.runDesc (s : State) (a : At) (fault : Option (Nat × Nat)) (xs : List Acc) (effect : State → State) : State :=
  match fault with
  | some (code, ea) => (s.begin_ a).2.faultDesc a code ea
  | none =>
    let (clock, s) := s.begin_ a
    let s := (xs.filter (!·.wr)).foldl (fun s x => s.race a clock x) s
    let s := effect s
    let s := (xs.filter (·.wr)).foldl (fun s x => s.race a clock x) s
    (s.touch a clock xs).launch a clock []

/-- The first scratchpad piece, of `n` bytes at an address, that runs past the core's scratchpad: SP_RANGE with the address of its first
byte there. -/
def spFault (size : Nat) (ps : List (Nat × Nat)) : Option (Nat × Nat) :=
  (ps.find? fun p => size < p.1 + p.2).map fun p => (0x01, max p.1 size)

/-- The first of several checks that finds a fault. -/
def firstFault : List (Option (Nat × Nat)) → Option (Nat × Nat)
  | [] => none
  | some f :: _ => some f
  | none :: fs => firstFault fs

/-- A row whose engine is at its descriptor. -/
def onEngine (e : EngAt) (d : Desc) (ok : Nat → Bool) (f : At → State → State) (s : State) : Res :=
  match s.startAt e d ok with
  | some a => .next (f a s)
  | none => .next s

/-! ## Control descriptors (06 R215, R216) -/

/-- A control descriptor that writes a register with a value of the registers. -/
def State.setReg (s : State) (a : At) (v : List Nat → Nat) : State :=
  let (clock, s) := s.begin_ a
  (s.modEng a fun g => { g with regs := g.regs.set (fld a.d 131 128) (v g.regs % 2 ^ 64) }).launch a clock []

def rsOf (d : Nat) (r : List Nat) : Nat := r.getD (fld d 135 132) 0
def rtOf (d dflt : Nat) (r : List Nat) : Nat := if bitAt d 140 then r.getD (fld d 139 136) 0 else dflt
def immOf (d : Nat) : Nat := fld d 255 192
def isOp (n : Nat) (d : Nat) : Bool := dOp d == n

/-- NOP: waits, signals and counters. -/
def execDescNop (e : EngAt) (d : Desc) (s : State) : Res :=
  onEngine e d (isOp opNop) (fun a s => let (clock, s) := s.begin_ a; s.launch a clock []) s

/-- SET. -/
def execSet (e : EngAt) (d : Desc) (s : State) : Res := onEngine e d (isOp opSet) (fun a s => s.setReg a fun _ => immOf a.d) s

/-- ADD. -/
def execAdd (e : EngAt) (d : Desc) (s : State) : Res :=
  onEngine e d (isOp opAdd) (fun a s => s.setReg a fun r => rsOf a.d r + rtOf a.d 0 r + immOf a.d) s

/-- MUL. -/
def execMul (e : EngAt) (d : Desc) (s : State) : Res :=
  onEngine e d (isOp opMul) (fun a s => s.setReg a fun r => rsOf a.d r * rtOf a.d (immOf a.d) r) s

/-- LDREG: a misaligned address, a byte past the scratchpad or a poisoned word faults. -/
def execLdreg (e : EngAt) (d : Desc) (s : State) : Res :=
  onEngine e d (isOp opLdreg) (fun a s =>
    let x := (rsOf a.d (s.engOf a).regs + immOf a.d) % 2 ^ 64
    let xs : List Acc := [⟨false, false, [(x, 8)]⟩]
    match firstFault [if x % 8 = 0 then none else some (0x05, x), spFault (spBytes (s.isDecode a)) [(x, 8)]] with
    | some (code, ea) => (s.begin_ a).2.faultDesc a code ea
    | none =>
      let (clock, s) := s.begin_ a
      let s := s.race a clock ⟨false, false, [(x, 8)]⟩
      if s.spBad a x 8 then s.faultDesc a 0x08 x
      else
        let s := s.modEng a fun g => { g with regs := g.regs.set (fld a.d 131 128) (s.spNat a x 8) }
        (s.touch a clock xs).launch a clock []) s

/-- LOOP. -/
def execLoop (e : EngAt) (d : Desc) (s : State) : Res :=
  onEngine e d (isOp opLoop) (fun a s => let (clock, s) := s.begin_ a; s.launch a clock [] (rsOf a.d (s.engOf a).regs)) s

/-- HALT. -/
def execHalt (e : EngAt) (d : Desc) (s : State) : Res :=
  onEngine e d (isOp opHalt) (fun a s => let (clock, s) := s.begin_ a; s.launch a clock []) s

end Sys2Proof.Machine
end

