-- ==== Sys2Proof/Machine/Rlc.lean ====
section
/-! DEFINITION. The remote-line cache (12 R387 to R393). A line is keyed by its fabric address / 128. -/

namespace Sys2Proof.Machine

/-- Slice of a line, X[8:7] XOR X[51:50] of its address, and its set of 16 within it (R389). -/
def rlcSlice (line : Nat) : Nat := Nat.xor (fld (line * 128) 8 7) (fld (line * 128) 51 50)
def rlcPlace (line : Nat) : Nat × Nat := (rlcSlice line, Config.rlcSet line % 32768)

/-- A node's lines may be cached: it lies outside the coherence domain, the device and its twin (R387). -/
def State.rlcNode (s : State) (node : Nat) : Bool := node != s.self && !(s.twinValid && node == s.twinNode)

/-- A READ for a job served by the cache: the line, or none for a miss (R391). -/
def State.rlcRead (s : State) (line job : Nat) : Option Nat × State :=
  match Tab.find? s.fab.rlc line with
  | some x =>
    if x.job = job then
      let u := s.fab.rlcUse + 1
      (some x.data, { s with fab := { s.fab with rlc := Tab.set s.fab.rlc line { x with used := u }, rlcUse := u } }.bump kRlcHits)
    else (none, s.bump kRlcMisses)
  | none => (none, s.bump kRlcMisses)

/-- A line placed in the cache, in the place of the least recently used of a full set. -/
def State.rlcFill (s : State) (line job data : Nat) : State :=
  let u := s.fab.rlcUse + 1
  let same := s.fab.rlc.filter fun e => e.1 != line && rlcPlace e.1 == rlcPlace line
  let rlc :=
    if same.length < 16 then s.fab.rlc
    else match same.foldl (fun (b : Option (Nat × RlcLine)) e => match b with | none => some e | some f => if e.2.used < f.2.used then some e else b) none with
      | some e => Tab.erase s.fab.rlc e.1
      | none => s.fab.rlc
  let un := match Tab.find? rlc line with | some x => x.unacked | none => 0
  { s with fab := { s.fab with rlc := Tab.set rlc line { job, data, unacked := un, used := u }, rlcUse := u } }

/-- Bytes of a line number replaced under a mask. -/
def maskInto (old mask new : Nat) : Nat :=
  pack ((List.range 128).map fun i => (8, if bitAt mask i then fld new (8 * i + 7) (8 * i) else fld old (8 * i + 7) (8 * i)))

/-- A WRITE issued: a copy held is updated, and holds an unacknowledged write (R392). -/
def State.rlcWrite (s : State) (line mask data : Nat) : State :=
  match Tab.find? s.fab.rlc line with
  | some x => { s with fab := { s.fab with rlc := Tab.set s.fab.rlc line { x with data := maskInto x.data mask data, unacked := x.unacked + 1 } } }
  | none => s

/-- An ACK of a WRITE to a line held. -/
def State.rlcAck (s : State) (line : Nat) : State :=
  match Tab.find? s.fab.rlc line with
  | some x => { s with fab := { s.fab with rlc := Tab.set s.fab.rlc line { x with unacked := x.unacked - 1 } } }
  | none => s

/-- Lines invalidated. -/
def State.rlcDrop (s : State) (p : Nat → Bool) : State :=
  { s with fab := { s.fab with rlc := s.fab.rlc.filter fun e => !(p e.1) } }

/-- A READ_DATA arriving for a job is placed in the cache where R390 says so. -/
def State.rlcTake (s : State) (node line job data : Nat) (sld poison : Bool) : State :=
  if s.rlcNode node && !s.isFenced (8 + rlcSlice line) && !poison && (sld || s.kv kRlcMutable job == 1) then s.rlcFill line job data else s

end Sys2Proof.Machine
end

