-- ==== Sys2Proof/Machine/Load.lean ====
section
/-! DEFINITION. The load and store engines: LOAD, GATHER, STORE, SCATTER, ATOMIC, and the answers they wait for (05 R175 to R177, 06 R213,
R214, R217 to R219, R227 to R230, 12 R375 to R378, R384, R385, R405). -/

namespace Sys2Proof.Machine

/-! ## Pieces of lines -/

/-- Bytes from `a` on, cut at line boundaries: (address, scratchpad byte, length); `fuel` bounds their number. -/
def cutLines : Nat → Nat → Nat → Nat → List (Nat × Nat × Nat)
  | 0, _, _, _ => []
  | k + 1, a, x, n =>
    if n = 0 then []
    else
      let m := min n (128 - a % 128)
      (a, x, m) :: cutLines k (a + m) (x + m) (n - m)

/-- The contiguous runs of a LOAD or STORE in order: address of the memory operand, of the scratchpad operand (06 R217). -/
def blockRuns (d : Nat) (regs : List Nat) (load : Bool) : List (Nat × Nat) :=
  let src := (addrOp d 128).ea regs
  let dst := (addrOp d 192).ea regs
  let at_ (base s1 s2 i j : Nat) : Nat := wrapInt 64 (base + i * sext 40 s1 + j * sext 40 s2)
  (List.range (fld d 319 304)).flatMap fun j => (List.range (fld d 303 288)).map fun i =>
    let a := at_ src (fld d 359 320) (fld d 399 360) i j
    let b := at_ dst (fld d 439 400) (fld d 479 440) i j
    if load then (a, b) else (b, a)

/-- The pieces of a block, in order. -/
def blockPieces (d : Nat) (regs : List Nat) (load : Bool) : List (Nat × Nat × Nat) :=
  let n := fld d 276 256
  (blockRuns d regs load).flatMap fun (a, x) => cutLines (n / 128 + 2) a x n

/-- The lines of a GATHER or SCATTER, in order: memory address, scratchpad byte, 128 (06 R218). -/
def State.listPieces (s : State) (a : At) (regs : List Nat) (gather : Bool) : List (Nat × Nat × Nat) :=
  let mem := (addrOp a.d (if gather then 128 else 192)).ea regs
  let sp := (addrOp a.d (if gather then 192 else 128)).ea regs
  let ix := (addrOp a.d 256).ea regs
  (List.range (fld a.d 336 320)).map fun k => ((mem + 128 * s.spNat a (ix + 4 * k) 4) % 2 ^ 64, sp + 128 * k, 128)

/-- Alignment and range checks of a GATHER or SCATTER. -/
def listFault (decode : Bool) (d : Nat) (regs : List Nat) (gather : Bool) : Option (Nat × Nat) :=
  let mem := (addrOp d (if gather then 128 else 192)).ea regs
  let ix := (addrOp d 256).ea regs
  let n := fld d 336 320
  firstFault
    [if mem % 128 = 0 then none else some (0x05, mem), if ix % 4 = 0 then none else some (0x05, ix),
     spFault (spBytes decode) [(ix, 4 * n)]]

/-! ## Where an address leads -/

/-- Where a memory operand's address leads. -/
inductive Dest where
  | hbm (a : Nat) | tier (off : Nat)
  /-- Another node, mapped, and the offset there. -/
  | remote (node off : Nat)
  /-- A fault code of R228. -/
  | bad (code : Nat)
  deriving DecidableEq, Repr

def State.resolve (s : State) (space a : Nat) : Dest :=
  let here (off : Nat) : Dest := match windowOf off with | .hbm o => .hbm o | .tier o => .tier o | .none => .bad 0x02
  if space = 1 then (if a < 2 ^ 50 then here a else .bad 0x02)
  else
    let n := a / 2 ^ 50
    if n = s.self then here (a % 2 ^ 50)
    else if !s.mapped n then .bad 0x04
    else if windowOf (a % 2 ^ 50) = .none then .bad 0x02
    else .remote n (a % 2 ^ 50)

/-- What a descriptor of the load or store engine has come to, piece by piece. -/
structure Flow where
  s : State
  waits : List LineWait := []
  fault : Option (Nat × Nat) := none
  /-- First line that gave poison, and whether any piece got poison. -/
  bad : Option Nat := none
  poisoned : Bool := false
  /-- First dead target met: its node. -/
  dead : Option Nat := none
  /-- Sectors whose failure has been reported. -/
  sectors : List Nat := []

/-- Class of the context's raw accesses (14 R447, R448). -/
def State.rawClass (s : State) (a : At) : Nat := s.kv kRawClass (a.id / 8 * 2 + b2n (s.isDecode a))

/-- A request packet of a descriptor's line, and the answer awaited. -/
def Flow.ask (f : Flow) (a : At) (node ptype code off : Nat) (pay : Payload) (poison : Bool) (parts : List (Nat × Nat × Nat)) : Flow :=
  let key := f.s.fab.lineNext
  let s := { f.s with fab := { f.s.fab with lineNext := key + 1 } }
  let s := s.request (.engine a.id a.rank a.eng key) node ptype (s.rawClass a) code off (s.part (a.id / 8)).job pay poison
  { f with s, waits := f.waits ++ [{ key, parts }] }

/-- Words written with poison. -/
def Flow.spoil (f : Flow) (a : At) (x n : Nat) : Flow :=
  { f with s := (f.s.spWrite a x (List.replicate n 0) true).bumpStat (f.s.coreNo a) stLeBytes n, poisoned := true }

/-- Bytes written to scratchpad by the load engine. -/
def Flow.fill (f : Flow) (a : At) (x : Nat) (bs : List Byte) (bad : Bool) : Flow :=
  { f with s := (f.s.spWrite a x bs bad).bumpStat (f.s.coreNo a) stLeBytes bs.length, poisoned := f.poisoned || bad }

/-! ## Loads -/

/-- One piece of a load. -/
def Flow.load (a : At) (space : Nat) (f : Flow) (p : Nat × Nat × Nat) : Flow :=
  let (m, x, n) := p
  let who := Who.prog a.id
  if f.fault.isSome then f
  else match spFault (spBytes (f.s.isDecode a)) [(x, n)] with
  | some e => { f with fault := some e }
  | none =>
    match f.s.resolve space m with
    | .bad c => { f with fault := some (c, m) }
    | .hbm o =>
      if !f.s.hbmPermit who .rd o n then { f with fault := some (0x03, m) }
      else
        let bad := f.s.poisonAt (o / 128)
        let f := f.fill a x (f.s.hbmRead o n) bad
        if bad then { f with bad := some (f.bad.getD (m / 128 * 128)) } else f
    | .tier o =>
      if !f.s.tierPermit who .rd o then { f with fault := some (0x03, m) }
      else match f.s.readSector o with
        | (.hit, s) => { f with s }.fill a x (Mem.readN s.t2 o n) false
        | (.wait op, s) => { f with s, waits := f.waits ++ [{ tier := true, key := op, parts := [(o, x, n)] }] }
        | (.fail, s) =>
          let sec := o / sectorBytes * sectorBytes
          let s := if f.sectors.contains sec then s else s.tierFault (s.pc a.id).image (t2Bay (o / extBytes)) sTierFault sec
          { f with s := s.bump kTierPoison, sectors := sec :: f.sectors }.spoil a x n
    | .remote node o =>
      let line := m / 128
      if f.s.dead node then { f.spoil a x n with bad := some (f.bad.getD (line * 128)), dead := some (f.dead.getD node) }
      else
        let r := if f.s.rlcNode node then f.s.rlcRead line (f.s.part (a.id / 8)).job else (none, f.s)
        match r.1 with
        | some data => { f with s := r.2 }.fill a x ((toLE 128 data).drop (m % 128) |>.take n) false
        | none => { f with s := r.2 }.ask a node 0x1 0 (o / 128 * 128) (.bytes []) false [(m % 128, x, n)]

/-- A load descriptor that received poison is counted; on the context's first from the sources of R229, PROGRAM_POISON is posted. -/
def State.notePoison (s : State) (a : At) (line : Option Nat) (first : Bool) : State :=
  let s := if first then s.bumpStat (s.coreNo a) stPoisonedLoads 1 else s
  match line with
  | some l =>
    if (s.pc a.id).poisonSeen then s
    else
      let s := s.modPc a.id fun x => { x with poisonSeen := true }
      if s.kv kPoisonEvent = 1 then
        s.postEvent 0x0404 (s.pc a.id).image (pack [(7, a.id), (6, a.core), (1, b2n (s.isDecode a)), (4, a.eng)]) l
      else s
  | none => s

/-- The end of a load or store descriptor's start: its fault, or its entry among those in progress; then what a dead target entails. -/
def Flow.close (f : Flow) (a : At) (clock : List Nat) (xs : List Acc) : State :=
  match f.fault with
  | some (code, ea) => f.s.faultDesc a code ea
  | none =>
    let s := if f.poisoned && a.eng == 0 then f.s.notePoison a f.bad true else f.s
    let s := (xs.filter (·.wr)).foldl (fun s x => s.race a clock x) s
    let s := (s.touch a clock xs).launch a clock f.waits
    let s := if f.poisoned then s.modEng a fun g =>
        { g with busy := g.busy.map fun p => if p.clock == clock then { p with poisoned := true } else p } else s
    match f.dead with
    | some node => s.rawFault (f.s.part (a.id / 8)).job 0 node
    | none => s

/-- LOAD and GATHER: their start. -/
def State.startLoad (s : State) (a : At) (gather : Bool) : State :=
  let s := s.adopt kRawClass (a.id / 8 * 2 + b2n (s.isDecode a))
  let s := s.adopt kPoisonEvent
  let regs := (s.engOf a).regs
  let (clock, s) := s.begin_ a
  match if gather then listFault (s.isDecode a) a.d regs true else none with
  | some (code, ea) => s.faultDesc a code ea
  | none =>
    let ix : List Acc := if gather then [⟨false, false, [((addrOp a.d 256).ea regs, 4 * fld a.d 336 320)]⟩] else []
    let s := ix.foldl (fun s x => s.race a clock x) s
    let ps := if gather then s.listPieces a regs true else blockPieces a.d regs true
    let f := ps.foldl (Flow.load a (addrOp a.d 128).space) { s }
    f.close a clock (ix ++ [⟨true, false, ps.map fun p => (p.2.1, p.2.2)⟩])

/-- LOAD: a block of up to three dimensions copied to scratchpad. -/
def execLoad (e : EngAt) (d : Desc) (s : State) : Res := onEngine e d (isOp opLoad) (fun a s => s.startLoad a false) s

/-- GATHER: lines named by an index array copied to scratchpad. -/
def execGather (e : EngAt) (d : Desc) (s : State) : Res := onEngine e d (isOp opGather) (fun a s => s.startLoad a true) s

/-! ## Stores -/

/-- One piece of a store: bytes of a line written at their home. -/
def Flow.store (a : At) (space : Nat) (f : Flow) (p : Nat × Nat × Nat) : Flow :=
  let (m, x, n) := p
  if f.fault.isSome then f
  else match spFault (spBytes (f.s.isDecode a)) [(x, n)] with
  | some e => { f with fault := some e }
  | none =>
    let bad := f.s.spBad a x n
    let mask := lineMask (m % 128) n
    let data := padTo 128 (List.replicate (m % 128) 0 ++ f.s.spRead a x n)
    let job := (f.s.part (a.id / 8)).job
    let f := { f with s := f.s.bumpStat (f.s.coreNo a) stSeBytes n }
    match f.s.resolve space m with
    | .bad c => { f with fault := some (c, m) }
    | .tier _ => { f with fault := some (0x03, m) }
    | .hbm o =>
      if (f.s.sessionAt o).isSome then
        match f.s.contribute (o / 128 * 128) job f.s.self mask data bad with
        | (.taken, s) => { f with s }
        | (.nack _, _) => { f with fault := some (0x03, m) }
      else if !f.s.hbmPermit (.prog a.id) .wr o n then { f with fault := some (0x03, m) }
      else { f with s := (f.s.putLine (o / 128) mask data bad).mirrorLine (o / 128) mask data bad }
    | .remote node o =>
      if f.s.dead node then { f with dead := some (f.dead.getD node) }
      else { f with s := f.s.rlcWrite (m / 128) mask (leNat data) }.ask a node 0x2 0 (o / 128 * 128) (writePay mask data) bad []

/-- STORE and SCATTER: their start. -/
def State.startStore (s : State) (a : At) (scatter : Bool) : State :=
  let s := s.adopt kRawClass (a.id / 8 * 2 + b2n (s.isDecode a))
  let regs := (s.engOf a).regs
  let (clock, s) := s.begin_ a
  match if scatter then listFault (s.isDecode a) a.d regs false else none with
  | some (code, ea) => s.faultDesc a code ea
  | none =>
    let ix : List Acc := if scatter then [⟨false, false, [((addrOp a.d 256).ea regs, 4 * fld a.d 336 320)]⟩] else []
    let s := ix.foldl (fun s x => s.race a clock x) s
    let ps := if scatter then s.listPieces a regs false else blockPieces a.d regs false
    let rd : Acc := ⟨false, false, ps.map fun p => (p.2.1, p.2.2)⟩
    let f := ps.foldl (Flow.store a (addrOp a.d 192).space) { s := s.race a clock rd }
    f.close a clock (ix ++ [rd])

/-- STORE: a block of scratchpad copied to memory. -/
def execStore (e : EngAt) (d : Desc) (s : State) : Res := onEngine e d (isOp opStore) (fun a s => s.startStore a false) s

/-- SCATTER: contiguous scratchpad lines copied to indexed lines. -/
def execScatter (e : EngAt) (d : Desc) (s : State) : Res := onEngine e d (isOp opScatter) (fun a s => s.startStore a true) s

/-! ## Atomics -/

/-- The old value written to `result`, or poison. -/
def State.atomResult (s : State) (a : At) (x : Nat) (old : Option Nat) : State :=
  match old with
  | some v => s.spWrite a x (toLE 8 v) false
  | none => s.spWrite a x (List.replicate 8 0) true

/-- ATOMIC: an atomic on a word at its home. -/
def State.startAtomic (s : State) (a : At) : State :=
  let s := s.adopt kRawClass (a.id / 8 * 2 + b2n (s.isDecode a))
  let regs := (s.engOf a).regs
  let t := (addrOp a.d 128).ea regs
  let o := (addrOp a.d 192).ea regs
  let r := (addrOp a.d 256).ea regs
  let code := fld a.d 323 320
  let n := if code = 2 then 16 else 8
  let size := spBytes (s.isDecode a)
  let un (v : Nat) : Option (Nat × Nat) := if v % 8 = 0 then none else some (0x05, v)
  let (clock, s) := s.begin_ a
  match firstFault [un t, un o, un r, spFault size [(o, n)], spFault size [(r, 8)]] with
  | some (c, ea) => s.faultDesc a c ea
  | none =>
    let xs : List Acc := [⟨false, false, [(o, n)]⟩, ⟨true, false, [(r, 8)]⟩]
    let s := s.race a clock ⟨false, false, [(o, n)]⟩
    let x := s.spNat a o 8
    let y := if code = 2 then s.spNat a (o + 8) 8 else 0
    match s.resolve (addrOp a.d 128).space t with
    | .bad c => s.faultDesc a c t
    | .tier _ => s.faultDesc a 0x03 t
    | .hbm h =>
      if !s.hbmPermit (.prog a.id) (.atom code) h 8 then s.faultDesc a 0x03 t
      else
        let q := s.doAtomic h code x y
        let word := List.replicate (h % 128) 0 ++ q.2.hbmRead h 8
        let s := if q.1.isSome then q.2.mirrorLine (h / 128) (lineMask (h % 128) 8) word false else q.2
        Flow.close { s := s.atomResult a r q.1 } a clock xs
    | .remote node off =>
      if s.dead node then Flow.close { s := s.atomResult a r none, dead := some node } a clock xs
      else
        let s := s.rlcDrop (· == t / 128)
        let f := Flow.ask { s } a node 0x3 code off (.bytes (toLE 8 x ++ toLE 8 y)) false [(0, r, 8)]
        f.close a clock xs

def execDescAtomic (e : EngAt) (d : Desc) (s : State) : Res := onEngine e d (isOp opAtomic) (fun a s => s.startAtomic a) s

/-! ## Answers (06 R212, R229, 12 R384) -/

/-- What is left of a piece (answer byte, scratchpad byte, length) outside a hole (first byte, bytes). -/
def cutHole (h : Nat × Nat) (p : Nat × Nat × Nat) : List (Nat × Nat × Nat) :=
  let (b, x, n) := p
  let lo := max x h.1
  let hi := min (x + n) (h.1 + h.2)
  if hi ≤ lo then [p]
  else (if x < lo then [(b, x, lo - x)] else []) ++ (if hi < x + n then [(b + (hi - x), hi, x + n - hi)] else [])

/-- Pieces of a line that later descriptors of the engine have not written. -/
def State.unwritten (s : State) (a : At) (clock : List Nat) (ps : List (Nat × Nat × Nat)) : List (Nat × Nat × Nat) :=
  let me := clock.getD a.eng 0
  let later := (s.coreOf a).touches.filter fun t => t.eng == a.eng && t.wr && !t.acc && me < t.clock.getD a.eng 0
  (later.flatMap (·.parts)).foldl (fun ps h => ps.flatMap (cutHole h)) ps

/-- Where an engine of a context stands among rows. -/
def State.atOf (s : State) (id rank eng : Nat) : At := { id, rank, eng, core := (s.pc id).cores.getD rank 0, d := 0 }

/-- An awaited answer has come to an engine: its pieces are written (`none`: poison), the descriptor may be complete. `data` is the byte
at a place of the answer; `line` is the poisoned line's address where R229 counts it. -/
def State.lineIn (s : State) (id rank eng : Nat) (tier : Bool) (key : Nat) (data : Option (Nat → Nat → List Byte)) (line : Option Nat) : State :=
  let a := s.atOf id rank eng
  let mine (w : LineWait) : Bool := w.tier == tier && w.key == key
  match (s.engOf a).busy.find? fun p => p.waits.any mine with
  | none => s
  | some p =>
    let a := { a with d := p.desc }
    let ps := s.unwritten a p.clock ((p.waits.filter mine).flatMap (·.parts))
    let s := ps.foldl (fun s (b, x, n) =>
      let s := if eng = 0 then s.bumpStat (s.coreNo a) stLeBytes n else s
      match data with
      | some f => s.spWrite a x (f b n) false
      | none => s.spWrite a x (List.replicate n 0) true) s
    let s := s.race a p.clock ⟨true, false, ps.map fun q => (q.2.1, q.2.2)⟩
    let s := if data.isNone && eng == 0 then s.notePoison a line (!p.poisoned) else s
    let s := s.modEng a fun g =>
      { g with progress := s.now, busy := g.busy.map fun q =>
          if q.clock == p.clock then { q with waits := q.waits.filter fun w => !(mine w), poisoned := q.poisoned || data.isNone } else q }
    s.settleCore a

/-- Engines that wait for a drive operation. -/
def State.tierWaiters (s : State) (op : Nat) : List (Nat × Nat × Nat) :=
  s.pcs.flatMap fun (id, x) => x.core.zipIdx.flatMap fun (c, rank) => c.engines.zipIdx.filterMap fun (g, eng) =>
    if g.busy.any fun p => p.waits.any fun w => w.tier && w.key == op then some (id, rank, eng) else none

/-- Descriptors of one engine that wait for a drive operation, at most. -/
def State.tierCount (s : State) (w : Nat × Nat × Nat) : Nat := (s.engOf (s.atOf w.1 w.2.1 w.2.2)).busy.length

/-- A sector has arrived, or its read has failed: engines and runs that waited for it go on (11 R352). -/
def State.sectorOut (s : State) (op : Nat) (ok : Bool) : State :=
  let s := (s.tierWaiters op).foldl (fun s w =>
    (List.range (s.tierCount w)).foldl (fun s _ =>
      let p := (s.engOf (s.atOf w.1 w.2.1 w.2.2)).busy.find? fun p => p.waits.any fun v => v.tier && v.key == op
      let n := match p with | some p => (p.waits.filter fun v => v.tier && v.key == op).length | none => 0
      let s := if ok then s else s.bump kTierPoison n
      s.lineIn w.1 w.2.1 w.2.2 true op (if ok then some fun b n => Mem.readN s.t2 b n else none) none) s) s
  s.runTier op ok

end Sys2Proof.Machine
end

