-- ==== Sys2Proof/Machine/HostIf.lean ====
section
/-! DEFINITION. The host attachment: BAR0, BAR2 and BAR4 accesses, doorbells, enabling, interrupts, NOP and the ring commands (02 R40 to
R54, R70 to R74). -/

namespace Sys2Proof.Machine

/-! ## Doorbells (R49, R50) -/

/-- State, log2 of the entries of a ring by type (0 submission, 1 completion, 2 output) and number. -/
def State.ringSt (s : State) (ty n : Nat) : RingSt := if ty = 0 then (s.sqr n).st else if ty = 1 then (s.cqr n).st else (s.oqr n).st
def State.ringLog (s : State) (ty n : Nat) : Nat := if ty = 0 then (s.sqr n).log2 else if ty = 1 then (s.cqr n).log2 else (s.oqr n).log2
def State.setRingSt (s : State) (ty n : Nat) (st : RingSt) : State :=
  if ty = 0 then s.setSq n { s.sqr n with st } else if ty = 1 then s.setCq n { s.cqr n with st } else s.setOq n { s.oqr n with st }

/-- Ring state codes (R70). -/
def RingSt.code : RingSt → Nat
  | .absent => 0 | .active => 1 | .error => 2 | .deleting => 3

/-- A discarded doorbell write: an ACTIVE ring enters ERROR and is counted; RING_ERROR is posted. -/
def State.badDoorbell (s : State) (ty n v : Nat) : State :=
  let s := if s.ringSt ty n = .active then
      let s := (s.setRingSt ty n .error).bump kRingErrors
      if ty = 2 then s.discardHeld n else s
    else s
  s.postEvent 0x0002 0 (pack [(2, ty), (6, 0), (8, n), (32, v)]) 0

/-- A new index given by a doorbell; a completion doorbell may return room to events (R52). -/
def State.goodDoorbell (s : State) (ty n v : Nat) : State :=
  if ty = 0 then s.setSq n { s.sqr n with tail := v }
  else if ty = 1 then (s.setCq n { s.cqr n with head := v }).flushLost
  else s.setOq n { s.oqr n with head := v }

/-- A doorbell write acted on. -/
def State.ringDoorbell (s : State) (ty n v : Nat) (wellFormed : Bool) : State :=
  if wellFormed && fld v 31 20 == 0 && s.ringSt ty n != .absent && fld v 19 0 < 2 ^ s.ringLog ty n && s.ringSt ty n == .active then
    s.goodDoorbell ty n (fld v 19 0)
  else if wellFormed && fld v 31 20 == 0 && s.ringSt ty n != .absent && fld v 19 0 < 2 ^ s.ringLog ty n then s
  else s.badDoorbell ty n v

/-- A doorbell write: latched in hardware during a control-core restart, else acted on. -/
def State.doorbell (s : State) (ty n width : Nat) (value : W64) : State :=
  let v := value.toNat % 2 ^ 32
  if !s.runs then s
  else if s.rcv.ctlRestart then { s with host := { s.host with latched := s.host.latched ++ [(ty, n, v, width == 4)] } }
  else s.ringDoorbell ty n v (width == 4)

def execSubmissionDoorbell (ring width : Nat) (value : W64) (s : State) : Res := .next (s.doorbell 0 ring width value)
def execCompletionDoorbell (ring width : Nat) (value : W64) (s : State) : Res := .next (s.doorbell 1 ring width value)
def execOutputDoorbell (ring width : Nat) (value : W64) (s : State) : Res := .next (s.doorbell 2 ring width value)

/-! ## Enabling (R41 to R43) -/

/-- The admin ring set-up words are in range with no reserved bit set. -/
def HostIf.setupOk (h : HostIf) : Bool :=
  let c := h.admRingCfg
  h.admSqBase % 4096 == 0 && h.admCqBase % 4096 == 0 && !outside (fld c 4 0) 6 16 && !outside (fld c 12 8) 6 16 &&
    rangesZero c [(7, 5), (15, 13), (63, 27)]

/-- 1 written to `enable`. -/
def State.writeEnable (s : State) : State :=
  let h := s.host
  if !h.avail || h.enable then s
  else { s with host := { h with enable := true, cfgError := !h.setupOk } }

/-- Submission ring 0 and completion ring 0 created from the set-up words; the completion ring signals at each post. -/
def State.adminRings (s : State) : State :=
  let h := s.host
  let s := s.setSq 0 { st := .active, base := h.admSqBase, log2 := fld h.admRingCfg 4 0, cq := 0 }
  s.setCq 0 { st := .active, base := h.admCqBase, log2 := fld h.admRingCfg 12 8, vector := fld h.admRingCfg 26 16, thr := 1, delay := 0 }

/-- The enable accepted comes to its end: the admin rings exist and `ready` is set; the event sequence counts from 0 (R43, R58). -/
def execHostIfReady (s : State) : Res :=
  if s.runs && s.host.enable && !s.host.cfgError && !s.host.ready && !s.host.tearing then
    let s := s.adminRings
    .next { s with host := { s.host with ready := true, evSeq := 0 } }
  else .next s

/-! ## BAR4: the MSI-X table (R40) -/

/-- The 16 bytes of table entry `v`. -/
def HostIf.msixEntry (h : HostIf) (v : Nat) : List Byte :=
  toLE 8 (Tab.getD 0 h.msixAddr v) ++ toLE 4 (Tab.getD 0 h.msixData v) ++ toLE 4 (b2n (!h.msixOpen.contains v))

/-- Bytes written into a table entry; unmasking a vector whose pending bit is set sends its message. -/
def State.msixWrite (s : State) (v o : Nat) (bs : List Byte) : State :=
  let old := s.host.msixEntry v
  let e := old.take o ++ bs ++ old.drop (o + bs.length)
  let opened := !bitAt (bytesAt e 12 4) 0
  let h := { s.host with msixAddr := Tab.put 0 s.host.msixAddr v (bytesAt e 0 8), msixData := Tab.put 0 s.host.msixData v (bytesAt e 8 4),
                         msixOpen := if opened then NSet.add s.host.msixOpen v else NSet.del s.host.msixOpen v }
  if opened && h.msixPba.contains v then { s with host := { h with msixPba := NSet.del h.msixPba v }, msix := s.msix ++ [v] }
  else { s with host := h }

/-! ## BAR0 and BAR4 writes (R41) -/

/-- A BAR0 set-up word written while `ready` is 0. -/
def State.setupWrite (s : State) (off v : Nat) : State :=
  if s.host.ready then s
  else if off = 0x20 then { s with host := { s.host with admSqBase := v } }
  else if off = 0x28 then { s with host := { s.host with admCqBase := v } }
  else { s with host := { s.host with admRingCfg := v } }

/-- Ring type and number of a doorbell offset. -/
def doorbellAt (off : Nat) : Option (Nat × Nat) :=
  if off % 8 ≠ 0 then none
  else if 0x1000 ≤ off ∧ off < 0x1200 then some (0, (off - 0x1000) / 8)
  else if 0x2000 ≤ off ∧ off < 0x2200 then some (1, (off - 0x2000) / 8)
  else if 0x3000 ≤ off ∧ off < 0x3800 then some (2, (off - 0x3000) / 8)
  else none

/-! ## BAR2 (R45) -/

/-- The access is permitted. -/
def State.bar2Ok (s : State) (a : Nat) : Bool :=
  let x := s.ext 1 (a / extBytes)
  s.pow.level < 2 && ((x.st == .granted && x.who == .host) || s.dev 84 84 == 1)

/-- Lines written as a whole hold no poison any more (log entry 24). -/
def State.cleanLines (s : State) (a len : Nat) : State :=
  let first := ceilDiv a 128
  { s with fab := { s.fab with hbmPoison := NSet.delRange s.fab.hbmPoison first ((a + len) / 128 - first) } }

/-- A host access through BAR2: performed as a whole, or denied and counted. -/
def execBar2Access (write : Bool) (offset len : Nat) (data : List Byte) (s : State) : Res :=
  let a := s.kv kBar2Window * 2 ^ 36 + offset
  if !s.runs then .next s
  else if s.bar2Ok a && a + len ≤ hbmSize then
    if write then .next ((s.hbmWrite a (data.take len)).cleanLines a len) else .next { s with host := { s.host with bar2Data := s.hbmRead a len } }
  else
    let s := s.bump kBar2Denied
    if write then .next s else .next { s with host := { s.host with bar2Data := List.replicate len 0 } }

/-! ## Interrupt delay and held tokens (R53, R54) -/

/-- The delay since the first entry posted after the last signal has passed: the ring's vector is signalled. -/
def execIrqDelayExpiry (out : Bool) (ring : Nat) (s : State) : Res :=
  let r := if out then s.oqr ring else s.cqr ring
  match r.firstAt with
  | some t =>
    if s.runs && r.st == .active && t + us r.delay ≤ s.now then
      .next ((if out then s.setOq ring r.signalled else s.setCq ring r.signalled).signalVector r.vector)
    else .next s
  | none => .next s

/-- A held token is written once its ring has room. -/
def execHeldTokenWrite (ctx : Nat) (s : State) : Res := if s.runs then .next (s.writeHeld ctx) else .next s

/-! ## NOP and the ring commands (R71 to R74) -/

def rowNop : CmdRow := { opcode := 0x0001, resv := [(383, 0)], act := fun _ _ s => .done {} s }

def execNop (p : Pkt) (s : State) : Res := .next (hostCommand rowNop p s)

/-- Fields reserved for the ring type are zero (R583). -/
def ringTypeOk (p : Pkt) : Bool :=
  if p.f 1 0 = 0 then rangesZero p.v [(58, 48), (148, 128), (175, 160)] else rangesZero p.v [(37, 32), (43, 40)]

/-- The checks of R73. -/
def checkCreateRing (p : Pkt) (s : State) : Option Ans :=
  let ty := p.f 1 0
  let id := p.f 15 8
  let lg := p.f 20 16
  firstFail
    [badLen (ty < 2 && outside lg 6 16), badLen (ty == 2 && outside lg 8 20),
     badLen ((ty == 1 || ty == 2) && outside (p.f 148 128) 1 (2 ^ lg)),
     badFld (ty == 3 || (ty < 2 && outside id 1 63) || (ty == 0 && p.f 43 40 == 0) || misaligned (p.f 127 64) 4096 ||
       (ty != 0 && p.f 175 160 > 1000) || !ringTypeOk p || (ty == 0 && (s.cqr (p.f 37 32)).st != .active)),
     conflict (s.ringSt ty id != .absent) (s.ringSt ty id).code]

/-- A ring created ACTIVE, its indexes 0 and its first pass at phase 1. -/
def State.createRing (s : State) (p : Pkt) : State :=
  let id := p.f 15 8
  let dev : DevRing := { st := .active, base := p.f 127 64, log2 := p.f 20 16, vector := p.f 58 48, thr := p.f 148 128, delay := p.f 175 160 }
  if p.f 1 0 = 0 then s.setSq id { st := .active, base := p.f 127 64, log2 := p.f 20 16, cq := p.f 37 32, weight := p.f 43 40 }
  else if p.f 1 0 = 1 then s.setCq id dev
  else s.setOq id dev

def rowCreateRing : CmdRow :=
  { opcode := 0x0002, ring0 := true, resv := [(7, 2), (31, 21), (39, 38), (47, 44), (63, 59), (159, 149), (383, 176)],
    check := checkCreateRing,
    act := fun p _ s => .done { r0 := 0x1000 * (p.f 1 0 + 1) + 8 * p.f 15 8 } (s.createRing p) }

def execCreateRing (p : Pkt) (s : State) : Res := .next (hostCommand rowCreateRing p s)

/-- A request is bound to an output ring, or an entry waits for it. -/
def State.outRingBound (s : State) (n : Nat) : Bool :=
  s.ctxs.any (fun c => !c.2.st.over && c.2.bound && c.2.outRing == n) || s.outHeld.any (·.ring == n)

/-- Something still needs the ring (R74). -/
def State.ringNeeded (s : State) (ty n : Nat) : Bool :=
  (ty == 1 && (s.host.sq.any (fun q => q.2.st != .absent && q.2.cq == n) || s.kset kEventCq == n)) || (ty == 2 && s.outRingBound n)

def rowDeleteRing : CmdRow :=
  { opcode := 0x0003, ring0 := true, resv := [(7, 2), (383, 16)],
    check := fun p s =>
      let ty := p.f 1 0
      let id := p.f 15 8
      firstFail [badFld (ty == 3 || (ty < 2 && outside id 1 63)), conflict (s.ringNeeded ty id) (s.ringSt ty id).code],
    act := fun p _ s =>
      let ty := p.f 1 0
      let id := p.f 15 8
      if s.ringSt ty id = .absent then .done { status := sOkAlready } s
      else if ty = 0 then .wait (.deleteRing 0 id) true none (s.setRingSt 0 id .deleting)
      else .done {} (s.dropRing ty id) }

def execDeleteRing (p : Pkt) (s : State) : Res := .next (hostCommand rowDeleteRing p s)

end Sys2Proof.Machine
end

