-- ==== Sys2Proof/Machine/Ops.lean ====
section
/-! DEFINITION. Operations over the whole device that several commands share: the teardown of the host interface, the loss of power (02 R44,
18 R566, R567). -/

namespace Sys2Proof.Machine

/-! ## Teardown of the host interface (02 R44) -/

/-- Every ring is deleted; output entries that waited for one are discarded. -/
def State.deleteRings (s : State) : State :=
  let rings := (s.outHeld.map (·.ring)).eraseDups
  let s := { s with host := { s.host with sq := [], cq := [], oq := [] } }
  rings.foldl State.discardHeld s

/-- A teardown begins: no command is taken, commands not committed are given up, requests bound to an output ring end with CANCELLED, and
every ring is deleted. Committed commands finish without posting; `ready` falls with the last of them (log entry 56). -/
def State.teardown (s : State) : State :=
  if s.host.tearing || !(s.host.enable || s.host.ready) then { s with host := { s.host with enable := false } }
  else
    let s := { s with host := { s.host with enable := false, tearing := true } }
    let s := s.abandonAll s.uncommittedCmds sCancelled false
    let s := s.endReqs (fun _ c => c.bound) sCancelled
    s.deleteRings

/-- A write of `host_if_ctrl`. -/
def State.hostIfCtrl (s : State) (v : Nat) : State := if !s.runs then s else if bitAt v 0 then s.writeEnable else s.teardown

/-! ## Loss of power (18 R567) -/

/-- What outlasts the loss of every state of the dies and of HBM: fuses, the boot flash, the drives in the bays, inputs of the board, what
has left the device, and what is the model's own. -/
def State.powerOff (s : State) : State :=
  let i := s.idn
  { State.reset with
    pending := s.pending, free := s.free, hostWr := s.hostWr, msix := s.msix,
    drives := Tab.update {} s.drives fun _ d => { present := d.present, capacity := d.capacity },
    board := { pwrok := false, flashReq := s.board.flashReq },
    pow := { prochot := s.pow.prochot },
    idn := { uid := i.uid, keyRevoked := i.keyRevoked, svnFused := i.svnFused, thermo := i.thermo, ownerSlots := i.ownerSlots,
             ownerRevoked := i.ownerRevoked, flash := i.flash } }

end Sys2Proof.Machine
end

