-- ==== Sys2Proof/Machine/Ends.lean ====
section
/-! DEFINITION. Enabling and tearing down the host interface, register writes, power, and the ends of drive operations (02 R41 to R44,
11 R348, R349, R352, 16 R504, 18 R566, R567). -/

namespace Sys2Proof.Machine

/-! ## host_if_ctrl and the teardown (02 R43, R44) -/

/-- A 64-bit register word must be written whole (02 R41). -/
def regWrite (width : Nat) (s : State) : Res := if width = 8 then .next s else .fault .registerWidth

def execHostIfEnable (width : Nat) (value : W64) (s : State) : Res := regWrite width (s.hostIfCtrl value.toNat)
def execHostIfDisable (width : Nat) (value : W64) (s : State) : Res := regWrite width (s.hostIfCtrl value.toNat)

/-- Every committed command has finished: `ready` is cleared. -/
def execTeardownComplete (s : State) : Res :=
  if s.runs && s.host.tearing && s.inflight.isEmpty then .next { s with host := { s.host with ready := false, tearing := false } } else .next s

def execHostLinkDown (s : State) : Res := if s.runs then .next s.teardown else .next s
def execHotReset (s : State) : Res := if s.runs then .next s.teardown else .next s
def execD3hotEntry (s : State) : Res := if s.runs then .next s.teardown else .next s

/-! ## Register writes (02 R40, R41) -/

/-- A write to BAR0: set-up words, `host_if_ctrl` and doorbells act; read-only and reserved words discard it. -/
def State.bar0Write (s : State) (off width : Nat) (value : W64) : Res :=
  if !s.runs then .next s
  else match doorbellAt off with
    | some (ty, n) => .next (s.doorbell ty n width value)
    | none =>
      if off / 8 * 8 = 0x20 ∨ off / 8 * 8 = 0x28 ∨ off / 8 * 8 = 0x30 then
        if off % 8 = 0 then regWrite width (s.setupWrite off value.toNat) else .fault .registerWidth
      else if off / 8 * 8 = 0x38 then
        if off % 8 = 0 then regWrite width (s.hostIfCtrl value.toNat) else .fault .registerWidth
      else .next s

/-- A write to BAR4: the MSI-X table takes it; the pending bits and the rest discard it. -/
def State.bar4Write (s : State) (off width : Nat) (value : W64) : State :=
  if s.board.pwrok && off < 0x8000 then s.msixWrite (off / 16) (off % 16) (toLE (min width (16 - off % 16)) value.toNat) else s

def execRegisterWrite (bar : Bar) (offset width : Nat) (value : W64) (s : State) : Res :=
  match bar with
  | .bar0 => s.bar0Write offset width value
  | .bar4 => .next (s.bar4Write offset width value)

/-! ## Power (16 R504, 18 R566, R567) -/

/-- Reset release: the cold boot starts in the mask ROM. -/
def execSysPwrokRise (s : State) : Res :=
  if s.board.pwrok then .next s else .next { s with board := { s.board with pwrok := true } }

def execSysPwrokFall (s : State) : Res := if s.board.pwrok then .next s.powerOff else .next s

/-! ## Drive operations (11 R348, R349, R352) -/

/-- An operation has failed for good; what read its sector gets poison. -/
def State.ioLost (s : State) (o : TierOp) (status : Nat) : State :=
  let s := s.tierLost o status
  if o.why = .sector then (s.bump kTierPoison o.wants.length).sectorOut o.id false else s

/-- A drive operation completes: with its effect, or with an error that takes one of 1 + `tier_retries` attempts. -/
def execDriveIoComplete (op : Nat) (ok : Bool) (data : List Byte) (s : State) : Res :=
  match s.tierOps.find? (·.id == op) with
  | none => .next s
  | some o =>
    if !s.runs then .next s
    else if ok then
      let s := s.tierDone o data
      .next (if o.why = .sector then s.sectorOut o.id true else s)
    else if o.left = 0 then .next (s.ioLost o sTierFault)
    else .next (s.retryTier o)

/-- `tier_timeout_ms` passes: a read fails; a write or Flush has lost an attempt. -/
def execTierTimeout (op : Nat) (s : State) : Res :=
  match s.tierOps.find? (·.id == op) with
  | none => .next s
  | some o =>
    if !(s.runs && o.due ≤ s.now) then .next s
    else if o.why.isRead || o.left == 0 then .next (s.ioLost o sTimeout)
    else .next (s.retryTier o)

end Sys2Proof.Machine
end

