-- ==== Sys2Proof/Machine/Serve.lean ====
section
/-! DEFINITION. Work items of serving contexts, prefill layers, decode steps and the step scheduler (03 R79, R80, R93 to R104, 06 R208, 07
R250 to R252, 09 R298, R310, R311). -/

namespace Sys2Proof.Machine

/-! ## Sequence entries and sampling blocks (07 R252, 09 R298) -/

/-- LOCAL address of the delta version a request is bound to; 0 with none. -/
def State.deltaBase (s : State) (c : Ctx) : Nat :=
  match (Tab.find? s.deltas c.delta).bind fun d => d.vers.find? (·.ver == c.deltaVer) with
  | some v => v.first * extBytes
  | none => 0

/-- LOCAL address of the model of a request. -/
def State.modelBase (s : State) (c : Ctx) : Nat := match Tab.find? s.models c.model with | some m => m.first * extBytes | none => 0

/-- Input tokens of a sequence in an item. -/
def Ctx.itemTokens (c : Ctx) (decode : Bool) : List Nat :=
  if decode then [c.tokens.getD (c.position - 1) 0] else (c.tokens.drop c.prefixReused).take c.toCompute

/-- The 128 bytes of a sequence entry; `toks` is the place of its token array. -/
def State.seqEntry (s : State) (part i : Nat) (decode : Bool) (toks : Nat) : List Byte :=
  let c := s.ctx i
  let region := match s.regionOf i with | some r => r.first * extBytes | none => 0
  toLE 128 (pack
    [(32, s.handleFor i), (21, if decode then c.position - 1 else c.prefixReused), (11, 0), (21, (c.itemTokens decode).length), (11, 0),
     (21, c.maxLen), (11, 0), (64, if decode then s.self * 2 ^ 50 + region else 0), (64, s.fwAddr toks), (64, s.modelBase c),
     (64, s.deltaBase c), (64, if decode then s.fwAddr (sampPlace i) else 0), (64, s.fwAddr (attnPlace part)),
     (64, if decode then 0 else c.wsFirst * extBytes), (21, if decode then 0 else c.promptLen - 1)])

/-- The sampling block of a request before its step. -/
def State.sampBlock (s : State) (i : Nat) : List Byte :=
  let c := s.ctx i
  let g := match Tab.find? s.grammars c.grammar with | some g => g.first * extBytes | none => 0
  toLE 64 (pack
    [(32, c.samp.temperature.toNat), (32, c.samp.topP.toNat), (32, c.samp.minP.toNat), (11, c.samp.topK), (21, 0), (64, c.samp.seed.toNat),
     (21, c.position), (11, 0), (19, s.vocabOf c.model), (13, 0), (64, g), (20, if g = 0 then 0 else c.grammarState)])

/-- Bytes that an item's entries and token arrays take. -/
def State.itemBytes (s : State) (seqs : List Nat) (decode : Bool) : Nat :=
  (seqs.map fun i => 128 + 4 * ((s.ctx i).itemTokens decode).length).foldl (· + ·) 0

/-- Lowest place in the arena for `n` bytes beside the data of outstanding items. -/
def arenaFit (items : List WorkItem) (n : Nat) : Option Nat :=
  (0 :: items.map fun w => w.place + w.bytes).foldl (fun b p =>
    if p + n ≤ arenaBytes && !items.any fun w => p < w.place + w.bytes && w.place < p + n then
      (match b with | none => some p | some q => some (min p q))
    else b) none

/-- Entries and token arrays written at a place of the partition's arena: the entries first, then the arrays. -/
def State.writeSeqs (s : State) (part place : Nat) (seqs : List Nat) (decode : Bool) : State :=
  let base := arenaPlace part + place
  let r := seqs.foldl (fun (r : State × Nat × Nat) i =>
    let toks := (r.1.ctx i).itemTokens decode
    let t := r.1.fwWrite r.2.1 (r.1.seqEntry part i decode r.2.2)
    let t := t.fwWrite r.2.2 (toks.flatMap (toLE 4 ·))
    let t := if decode then t.fwWrite (sampPlace i) (r.1.sampBlock i) else t
    (t, r.2.1 + 128, r.2.2 + 4 * toks.length)) (s, base, base + 128 * seqs.length)
  r.1

/-! ## WORK_ITEM_WRITE (06 R208, 07 R250) -/

/-- The item that has become the oldest incomplete one is being computed: requests it is the first to name enter PREFILL (03 R93). -/
def State.beginHead (s : State) (id : Nat) : State :=
  match (s.pc id).items.head? with
  | some w =>
    if w.kind = 1 then
      w.seqs.foldl (fun s i =>
        if (s.ctx i).st = .admitted then (s.modCtx i fun c => { c with prefillBegun := true }).enter i .prefill else s) s
    else s
  | none => s

/-- Some outstanding item of a context names the request. -/
def ProgCtx.names (x : ProgCtx) (i : Nat) : Bool := x.items.any fun w => w.seqs.contains i

/-- A request may be named by a PREFILL item of layers [first, first + count). -/
def State.mayPrefill (s : State) (id i first count : Nat) : Bool :=
  let c := s.ctx i
  (c.st == .admitted || c.st == .prefill) && c.placed && c.partition == id / 8 && c.prefixSt == .inPlace && !c.cancelAsked &&
    0 < c.toCompute && first == c.layersDone && 0 < count && first + count ≤ s.layersOf c.model && !(s.pc id).names i

/-- Requests that a decode step of a partition takes in: those in DECODE there with no entry held (02 R53). -/
def State.stepSeqs (s : State) (part : Nat) : List Nat :=
  s.ctxsThat fun c => c.st == .decode && c.placed && c.partition == part

/-- The extents of the row a step writes, in every layer, backed as far as the tenant's quota allows; whether it allows all. -/
def State.backRow (s : State) (i : Nat) : Bool × State :=
  let c := s.ctx i
  match s.regionOf i with
  | none => (true, s)
  | some r =>
    (List.range (s.layersOf c.model)).foldl (fun b l =>
      let lo := s.regionRow c l (c.position - 1)
      let hi := lo + s.rowBytesOf c.model - 1
      (List.range (hi / extBytes + 1 - lo / extBytes)).foldl (fun b j =>
        if b.1 then b.2.backExt i (r.first + lo / extBytes + j) else b) b) (true, s)

/-- An item posted: its data written, the item, counter 31, and the context possibly made ready by it. -/
def State.postItem (s : State) (id kind : Nat) (seqs : List Nat) (first count place : Nat) : State :=
  let k := id / 8
  let s := s.writeSeqs k place seqs (kind == 2)
  let s := s.pushItem id { kind, seqs, firstLayer := first, layerCount := count, place, bytes := s.itemBytes seqs (kind == 2) }
    (s.fwAddr (arenaPlace k + place))
  (s.beginHead id).choosePc k (s.pc id).decode

/-- Requests whose row cannot be backed end and leave the item. -/
def State.backRows (s : State) (seqs : List Nat) : List Nat × State :=
  seqs.foldl (fun r i =>
    match r.2.backRow i with
    | (true, t) => (r.1 ++ [i], t)
    | (false, t) => (r.1, t.endReq i sQuota)) ([], s)

/-! ## The step scheduler (03 R100) -/

/-- `guard`, `hyst` and t_step hold against the least slack of the LC requests in DECODE: (some slack, compared × the count of steps). -/
def State.slacks (s : State) (part : Nat) : List Int :=
  let p := s.part part
  let n : Nat := max 1 p.steps.length
  let sum : Nat := p.steps.foldl (· + ·) 0
  (s.stepSeqs part).filterMap fun i =>
    let c := s.ctx i
    if c.be then none else some ((n : Int) * ((c.deadline.2 : Int) - (s.ctxAge i : Int)) - (sum : Int))

/-- A BE request paused by the scheduler. -/
def State.schedPause (s : State) (part i : Nat) : State :=
  let s := s.modCtx i fun c => { c with pauseSched := true, schedPauses := c.schedPauses + 1, pauseSeq := (s.part part).boundary }
  (s.enter i .paused).bump kSchedPauses

/-- Requests the scheduler may resume, in the order in which they were paused. -/
def State.resumable (s : State) (part : Nat) : List Nat :=
  let is := s.ctxsThat fun c =>
    c.st == .paused && c.be && c.placed && c.partition == part && c.pauseSched && !c.pauseHost && !c.pauseParked
  is.mergeSort fun a b => decide ((s.ctx a).pauseSeq ≤ (s.ctx b).pauseSeq)

/-- The procedure of a step boundary. -/
def State.scheduler (s : State) (part : Nat) : State :=
  let s := ((s.adopt kSlackGuard part).adopt kSlackHyst part).adopt kBeResume part
  let n : Int := (max 1 (s.part part).steps.length : Nat)
  let guard : Int := s.kv kSlackGuard part
  let hyst : Int := s.kv kSlackHyst part
  let xs := s.slacks part
  if xs.any fun x => x < n * guard then
    ((s.stepSeqs part).filter fun i => (s.ctx i).be).foldl (fun s i => s.schedPause part i) s
  else if xs.all fun x => n * (guard + hyst) ≤ x then
    ((s.resumable part).take (s.kv kBeResume part)).foldl (fun s i =>
      (s.modCtx i fun c => { c with pauseSched := false }).tryDecode i) s
  else s

/-- Mirrored homes of a test handed to their twins by a module drain (17 R554). -/
def State.handTwins (s : State) (p : Nat → Bool) : State :=
  (Tab.keysOf s.latches fun _ x => x.mirrored && x.primary && x.mirrorActive && x.twinHandle != 0).foldl (fun s k =>
    let i := fld (s.latch k).handle 12 0
    if s.handleFor i == (s.latch k).handle && !(s.ctx i).st.over && p i then s.handTwin k i else s) s

/-- A step boundary: a module drain hands the mirrored homes that took part to their twins (17 R554), PAUSE commands take effect (03 R114),
then the scheduler runs. -/
def State.boundary (s : State) (part : Nat) : State :=
  let was := (s.part part).batch
  let s := s.modPart part fun p => { p with boundary := p.boundary + 1, stepAt := none, batch := [] }
  let s := if s.rcv.modSt = .draining then s.handTwins was.contains else s
  (s.applyPauses part).scheduler part

/-- The firmware writes an item. PREFILL: `layerCount` layers of the requests from their first uncounted one on. DECODE_STEP: every request
that takes part in steps; with none, the boundary of an idle partition. STOP is posted by the partition commands. -/
def execWorkItemWrite (pc kind : Nat) (seqs : List Nat) (firstLayer layerCount : Nat) (s : State) : Res :=
  let x := s.pc pc
  let k := pc / 8
  if !s.fwUp || !x.live || !x.serving || x.endWith != 0 || 4096 ≤ x.items.length || 8192 < seqs.length || !seqs.Nodup then .next s
  else if kind = 1 then
    if x.decode || seqs.isEmpty || !seqs.all fun i => s.mayPrefill pc i firstLayer layerCount then .next s
    else match arenaFit x.items (s.itemBytes seqs false) with
      | some place => .next (s.postItem pc 1 seqs firstLayer layerCount place)
      | none => .next s
  else if kind = 2 then
    let able := (s.stepSeqs k).filter fun i => !s.stalled i
    if !x.decode || (s.part k).stepAt.isSome || !able.all seqs.contains || !seqs.all able.contains then .next s
    else if seqs.isEmpty then .next (s.boundary k)
    else
      let (is, s) := s.backRows seqs
      if is.isEmpty then .next s
      else match arenaFit (s.pc pc).items (s.itemBytes is true) with
        | some place =>
          let s := is.foldl (fun s i => s.modCtx i fun c => { c with mirrorSent := false }) s
          let s := s.modPart k fun p => { p with stepAt := some s.now, batch := is }
          .next (s.postItem pc 2 is 0 0 place)
        | none => .next s
  else .next s

/-! ## PREFILL_LAYER_DONE (06 R208, 03 R112) -/

/-- One layer of a request's rows is complete; a CANCEL that waited for it ends the request. -/
def State.layerDone (s : State) (i : Nat) : State :=
  if (s.ctx i).st = .prefill then
    let s := s.modCtx i fun c => { c with layersDone := c.layersDone + 1 }
    if (s.ctx i).cancelAsked then s.endReq i sCancelled else s
  else s

/-- The firmware sees the next unit of a PREFILL item counted. -/
def execPrefillLayerDone (pc : Nat) (s : State) : Res :=
  let x := s.pc pc
  match x.items with
  | w :: ws =>
    if s.fwUp && x.live && w.kind == 1 && w.base < x.ctr 30 then
      let rest := if w.layerCount ≤ 1 then ws
        else { w with firstLayer := w.firstLayer + 1, layerCount := w.layerCount - 1, base := w.base + 1 } :: ws
      let s := s.modPc pc fun x => { x with items := rest }
      .next ((w.seqs.foldl State.layerDone s).beginHead pc)
    else .next s
  | [] => .next s

/-! ## STEP_COMMIT (09 R310, 03 R97, R103, 04 R150, R153) -/

/-- What the sampling block and the sequence entry of a request say at the commit: entry `j` of item `w`. -/
structure Drawn where
  /-- `result_valid`. -/
  valid : Bool
  /-- `ward_status`. -/
  status : Nat
  /-- `token_valid` and `token_out`. -/
  tokenValid : Bool
  token : Nat
  /-- `next_state` and `next_final`. -/
  next : Nat
  final : Bool
  deriving DecidableEq, Repr

def State.drawn (s : State) (part i j : Nat) (w : WorkItem) : Drawn :=
  let b := leNat (Mem.readN s.fw (sampPlace i) 64)
  let e := leNat (Mem.readN s.fw (arenaPlace part + w.place + 128 * j + 76) 4)
  { valid := bitAt b 373, status := fld b 399 384, tokenValid := bitAt e 18, token := fld e 17 0, next := fld b 371 352, final := bitAt b 372 }

/-- A token is appended. -/
def State.appended (s : State) (i : Nat) (d : Drawn) : Ctx :=
  let c := s.ctx i
  let age := s.ctxAge i
  { c with tokens := c.tokens.take c.position ++ [d.token], position := c.position + 1,
           grammarState := if c.grammar = 0 then c.grammarState else d.next,
           firstDone := true, tFirstUs := if c.firstDone then c.tFirstUs else age, tLastUs := age }

/-- The token is the request's last one (03 R97). -/
def Ctx.lastToken (c : Ctx) (d : Drawn) : Bool :=
  (c.samp.stopTokens.take c.samp.stopCount).contains d.token || c.position + 1 == c.maxLen || d.final

/-- The commit of one sequence. -/
def State.commitSeq (s : State) (i : Nat) (d : Drawn) : State :=
  if (s.ctx i).st != .decode || !d.valid then s
  else if d.status = sMaskEmpty ∨ d.status = sCoreFault then s.endReq i d.status
  else if !d.tokenValid then s
  else
    let s := s.writeMisses i
    let pos := (s.ctx i).position
    let last := (s.ctx i).lastToken d
    let s := s.setCtx i { s.appended i d with mirrorSent := false }
    let s := match s.latchOf (s.handleFor i) with
      | some k => s.modLatch k fun x => { x with stamp := x.stamp + 1 }
      | none => s
    let s := s.pushOut i { kind := 1, token := d.token, position := pos }
    if last then
      let s := s.enter i .draining
      (s.pushOut i { kind := 2, position := pos + 1, status := sOK }).settleDrain i
    else s

/-- The members of a step whose commit the twin must hold first: mirrored, active primaries. -/
def State.mirrorOf (s : State) (i : Nat) : Option Nat :=
  match s.latchOf (s.handleFor i) with
  | some k => let x := s.latch k; if x.mirrored && x.primary && x.mirrorActive then some k else none
  | none => none

/-- The record after the commit sent to the twin. -/
def State.sendStep (s : State) (i k : Nat) (d : Drawn) : State :=
  let m := (s.setCtx i (s.appended i d)).moving i
  (s.mirrorRecord k i m ((s.latch k).stamp + 1)).modCtx i fun c => { c with mirrorSent := true }

/-- A decode step commits: once counter 30 shows its item complete and every twin holds it, each included sequence's token is appended and
queued, and the step boundary is passed. -/
def execStepCommit (part : Nat) (s : State) : Res :=
  match s.servingOf part true with
  | none => .next s
  | some id =>
    let x := s.pc id
    match x.items, (s.part part).stepAt with
    | w :: ws, some t0 =>
      if !s.fwUp || w.kind != 2 || x.ctr 30 ≤ w.base then .next s
      else
        let seqs := w.seqs.zipIdx.filter fun e => (s.part part).batch.contains e.1
        let toSend := seqs.filter fun (i, j) =>
          let d := s.drawn part i j w
          (s.mirrorOf i).isSome && !(s.ctx i).mirrorSent && (s.ctx i).st == .decode && d.valid && d.tokenValid && d.status == sOK
        if !toSend.isEmpty then
          .next (toSend.foldl (fun s (i, j) => match s.mirrorOf i with | some k => s.sendStep i k (s.drawn part i j w) | none => s) s)
        else if seqs.any fun (i, _) => (s.mirrorOf i).isSome && s.mirrorBusy i then .next s
        else
          let held := ((s.stepSeqs part).filter s.stalled).length
          let t := seqs.foldl (fun t (i, j) => t.commitSeq i (s.drawn part i j w)) s
          let t := t.bump kOutputStall held
          let t := t.modPc id fun x => { x with items := ws }
          let t := t.modPart part fun p => { p with steps := ((s.now - t0) / 1600 :: p.steps).take 16 }
          .next (t.boundary part)
    | _, _ => .next s

end Sys2Proof.Machine
end

