-- ==== Sys2Proof/Machine/Fabric.lean ====
section
/-! DEFINITION. The fabric as memory: what this node does as the home of requests, as the source of answers, and the commands of the
chapter (12 R376 to R412). The hinge's messages arrive here as well (04 R127). -/

namespace Sys2Proof

/-! ## Packets (12 R380) -/

/-- Payload bytes of a type, as the table states them; `none` for hinge and MGMT messages, which are typed. -/
def payLen (ptype : Nat) : Option Nat :=
  match ptype with
  | 1 => some 0 | 2 => some 144 | 3 => some 16 | 4 => some 128 | 5 => some 0 | 6 => some 0 | 7 => some 16 | 8 => some 16 | 9 => some 16
  | 10 => some 32 | 11 => some 0 | 12 => some 16 | _ => none

/-- The packet is as its type fixes it. -/
def FPkt.sound (p : FPkt) : Bool :=
  !p.rsv && (p.ptype != 3 || p.code ≤ 2) &&
    (match p.pay with
     | .bytes b => payLen p.ptype == some b.length
     | .hinge _ _ => p.ptype == 13
     | .mgmt _ => p.ptype == 14)

/-- Payload bytes. -/
def FPkt.data (p : FPkt) : List Byte := match p.pay with | .bytes b => b | _ => []

end Sys2Proof

namespace Sys2Proof.Machine

/-- A NACK. -/
def State.nack (s : State) (p : FPkt) (reason : Nat) : State := s.respond p 6 reason []

/-- The register window (R373). -/
def regWindow (off : Nat) : Bool := decide (281474976710656 ≤ off ∧ off < 281479271677952)

/-! ## The home (R377, R378, R384, 11 R351) -/

/-- A READ of the hinge for MOVE_STATE: the region of a PAUSED request of the packet's job, PUSH class (04 R146). -/
def State.moveRead (s : State) (p : FPkt) (who : Grantee) : Option Nat :=
  match who with
  | .region i => if p.cls = 1 ∧ (s.ctx i).st = .paused ∧ (s.ctx i).job = p.job ∧ !(s.ctx i).isDest then some i else none
  | _ => none

/-- PENDING: the bound of this node's own keys in µs. -/
def State.pendingAns (s : State) (p : FPkt) : State :=
  s.respond p 8 0 (toLE 16 (s.kv kTierTimeout * 1000 * (1 + s.kv kTierRetries) % 2 ^ 32))

/-- A READ waits for a drive operation. -/
def State.wantTier (s : State) (op : Nat) (p : FPkt) : State :=
  ({ s with tierOps := s.tierOps.map fun (o : TierOp) => if o.id == op then { o with wants := o.wants ++ [p] } else o }).pendingAns p

/-- A READ at its home. -/
def State.homeRead (s : State) (p : FPkt) : State :=
  if p.offset % 128 ≠ 0 then s.nack p nMisaligned
  else match windowOf p.offset with
    | .hbm o =>
      if s.hbmPermit (.job p.job) .rd o 128 || (s.moveRead p (s.ext 1 (o / extBytes)).who).isSome then
        s.respond p 4 0 (s.hbmRead o 128) (s.poisonAt (o / 128)) ((s.ext 1 (o / extBytes)).st == .object)
      else s.nack p nNotGranted
    | .tier o =>
      match s.moveRead p (s.ext 2 (o / extBytes)).who with
      | some i =>
        let at_ := o / sectorBytes * sectorBytes
        (match s.tierOps.find? fun t => t.why == .move i && t.offset == at_ with
         | some t => s.wantTier t.id p
         | none => (s.issueTier (t2Bay (o / extBytes)) at_ sectorBytes (.move i) [p]).pendingAns p)
      | none =>
        if !s.tierPermit (.job p.job) .rd o then s.nack p nNotGranted
        else match s.readSector o with
          | (.hit, s) => s.respond p 4 0 (Mem.readN s.t2 o 128) false true
          | (.wait op, s) => s.wantTier op p
          | (.fail, s) => (s.bump kTierPoison).respond p 4 0 (List.replicate 128 0) true true
    | .none =>
      if regWindow p.offset && p.cls == 3 then s.nextFree.respond p 4 0 (toLE 128 s.freeVal) else s.nack p nAddrRange

/-- The context whose region a line write of the hinge goes to: of a push into a region that is being filled, or of the primary of a mirrored
request whose copy this is; and whether it is the latter. -/
def State.hingeWrite (s : State) (p : FPkt) (who : Grantee) : Option (Nat × Bool) :=
  match who with
  | .region i =>
    match s.latchOf (s.handleFor i) with
    | some k =>
      let x := s.latch k
      if (s.ctx i).job != p.job || !(s.ctx i).isDest then none
      else if x.mirrored then (if p.cls = 0 ∧ !x.primary ∧ x.twinNode = p.src then some (i, true) else none)
      else if p.cls = 1 ∧ x.st = .pending ∧ x.peer = p.src then some (i, false) else none
    | none => none
  | _ => none

/-- A twin's copy that cannot be kept: it is released, and the primary told (04 R149). -/
def State.failCopy (s : State) (i status : Nat) : State :=
  match s.latchOf (s.handleFor i) with
  | some k =>
    let x := s.latch k
    let s := if s.dead x.peer then s else s.oneWay x.peer 0 { region := x.region, handle := x.peerHandle, attempt := x.attempt } (.refuse status)
    s.dropCopy k i
  | none => s

/-- A WRITE at its home; none while the collective engine's staging store has no room for it (13 R437). -/
def State.homeWrite (s : State) (p : FPkt) : Option State :=
  let mask := leNat (p.data.take 16)
  let data := p.data.drop 16
  if p.offset % 128 ≠ 0 then some (s.nack p nMisaligned)
  else match windowOf p.offset with
    | .hbm o =>
      match s.sessionAt o with
      | some k =>
        if (s.sess k).st == .open_ && stagingLines ≤ s.stagedOn (k / 16) then none
        else (match s.contribute o p.job p.src mask data p.poison with
          | (.taken, s) => some (s.respond p 5 0 [])
          | (.nack r, s) => some (s.nack p r))
      | none =>
        match s.hingeWrite p (s.ext 1 (o / extBytes)).who with
        | some (i, twin) =>
          (match s.backExt i (o / extBytes) with
           | (true, s) => some ((s.putLine (o / 128) mask data p.poison).respond p 5 0 [])
           | (false, s) => some (if twin then s.failCopy i sQuota else s.failDest i sQuota true))
        | none =>
          if s.hbmPermit (.job p.job) .wr o 128 then some ((s.putLine (o / 128) mask data p.poison).respond p 5 0 [])
          else some (s.nack p nNotGranted)
    | .tier _ => some (s.nack p nNotGranted)
    | .none => some (if regWindow p.offset && p.cls == 3 then s.respond p 5 0 [] else s.nack p nAddrRange)

/-- An ATOMIC at its home. -/
def State.homeAtomic (s : State) (p : FPkt) : State :=
  if p.offset % 8 ≠ 0 then s.nack p nMisaligned
  else match windowOf p.offset with
    | .hbm o =>
      if s.hbmPermit (.job p.job) (.atom p.code) o 8 then
        match s.doAtomic o p.code (bytesAt p.data 0 8) (bytesAt p.data 8 8) with
        | (some v, s) => s.respond p 7 0 (toLE 16 v)
        | (none, s) => s.respond p 7 0 (toLE 16 0) true
      else s.nack p nNotGranted
    | .tier _ => s.nack p nNotGranted
    | .none =>
      if regWindow p.offset && p.cls == 3 then s.nextFree.respond p 7 0 (toLE 16 (s.freeVal % 2 ^ 64)) else s.nack p nAddrRange

/-! ## Versions (R396 to R399) -/

def State.version (s : State) (e : Nat) : Nat := Tab.getD 0 s.fab.versions e

/-- An extent is granted to a job, to its tenant, or (as host) to HOST. -/
def State.ofJob (s : State) (x : Ext) (job : Nat) (asHost : Bool) : Bool :=
  match x.who with
  | .job _ j => !asHost && s.jobHere job && j == job
  | .tenant t => !asHost && s.jobHere job && t == s.jobTenant job
  | .host => asHost
  | _ => false

/-- The answer of a PUBLISH: status, extent index, version (the state code where an extent is not GRANTED); and the versions after it. -/
def State.publish (s : State) (off count base job : Nat) (asHost : Bool) : Nat × Nat × Nat × State :=
  let e := off / extBytes
  let bad := (List.range count).find? fun i => (s.ext 1 (e + i)).st != .granted || !s.ofJob (s.ext 1 (e + i)) job asHost
  match bad with
  | some i =>
    let x := s.ext 1 (e + i)
    if x.st != .granted then (sConflict, i, x.st.code, s) else (sBadField, i, 0, s)
  | none =>
    match (List.range count).find? fun i => s.version (e + i) != base with
    | some i => (sVersionConflict, i, s.version (e + i), s.bump kPubConflicts)
    | none =>
      (sOK, 0, base + 1,
       { s with fab := { s.fab with versions := (List.range count).foldl (fun t i => Tab.put 0 t (e + i) (base + 1)) s.fab.versions } })

/-- A PUBLISH packet at its home. -/
def State.homePublish (s : State) (p : FPkt) : State :=
  let count := bytesAt p.data 0 2
  if p.offset % extBytes ≠ 0 then s.nack p nMisaligned
  else if hbmSize < p.offset + count * extBytes then s.nack p nAddrRange
  else
    let (st, i, v, s) := s.publish p.offset count (bytesAt p.data 8 8) p.job false
    s.respond p 10 0 (toLE 32 (pack [(16, st), (16, i), (32, 0), (64, v)]))

/-- What a version read finds: the version, or a NACK reason. -/
def State.readVersion (s : State) (off job : Nat) : Sum Nat Nat :=
  match windowOf off with
  | .hbm o =>
    let x := s.ext 1 (o / extBytes)
    if x.st != .granted then .inr nState else if s.ofJob x job false then .inl (s.version (o / extBytes)) else .inr nNotGranted
  | _ => .inr nAddrRange

/-- A VERSION_READ packet at its home. -/
def State.homeVersion (s : State) (p : FPkt) : State :=
  match s.readVersion p.offset p.job with
  | .inl v => s.respond p 12 0 (toLE 16 v)
  | .inr r => s.nack p r

/-! ## Hinge messages (04 R127) -/

/-- A hinge message performed; `twin` is what a comparison of copies reads. -/
def State.onHinge (s : State) (h : HHdr) (m : HMsg) (twin : List TwinCopy) : State :=
  match m with
  | .opening f model delta grammar age srcHandle move src rows mirror =>
    s.onOpening h { src := h.src, srcHandle, attempt := h.attempt, f, model, delta, grammar, age, mirror } move src rows
  | .accepted handle region base rows => s.onOpeningResponse { h with region } true 0 handle base rows
  | .refuse st => s.onRefuse h st
  | .prepare m age stamp moves => s.onPrepare h m age stamp moves
  | .ready d => s.onReady h d
  | .commit age => s.onCommit h age
  | .commitAck => s.onCommitAck h
  | .abandon st => s.onAbandon h st
  | .abandonAck => s.onAbandonAck h
  | .withdraw => s.onWithdraw h
  | .redirect n d => s.onRedirect h n d
  | .query => s.onQuery h twin

/-! ## Arrival: epochs, order, performance (R380 to R383, R401, R402) -/

/-- A request packet performed in its turn; none where it must wait. While the stacks are in self-refresh the HBM and tier windows are not
granted (18 R569). -/
def State.perform (s : State) (p : FPkt) (twin : List TwinCopy) : Option State :=
  if !p.sound then some (s.nack p nMalformed)
  else if 2 ≤ s.pow.level && p.ptype != 13 && windowOf p.offset != .none then some (s.nack p nNotGranted)
  else match p.ptype with
    | 1 => some (s.homeRead p)
    | 2 => s.homeWrite p
    | 3 => some (s.homeAtomic p)
    | 9 => some (s.homePublish p)
    | 11 => some (s.homeVersion p)
    | _ => match p.pay with
      | .hinge h m => some (s.onHinge h m twin)
      | _ => some (s.nack p nUnsupported)

/-- Early packets of a source performed while the next number is held. -/
def State.runEarly (src : Nat) : Nat → State → State
  | 0, s => s
  | fuel + 1, s =>
    let want := Tab.getD 0 s.fab.seqRx src
    match s.fab.early.find? fun e => e.2.src == src && e.2.seq == want with
    | none => s
    | some e =>
      match State.perform { s with fab := { s.fab with early := s.fab.early.erase e,
                                                       seqRx := Tab.put 0 s.fab.seqRx src ((want + 1) % 2 ^ 32) } } e.2 [] with
      | some s => State.runEarly src fuel s
      | none => s

/-- This node takes part in traffic of the map in force. -/
def State.inMap (s : State) : Bool := s.runs && s.compo.mapped && !s.rcv.isolated

/-- A request packet arrives. -/
def State.requestIn (s : State) (l : Nat) (p : FPkt) (twin : List TwinCopy := []) : State :=
  if !s.inMap || p.dst != s.self then s
  else
    let t := (s.takeRx l (· == p)).heardFrom p.src
    if epochNewer p.epoch s.compo.epoch then t
    else if p.epoch ≠ s.compo.epoch then (t.bump kStaleMap).nack p nStaleMap
    else
      let want := Tab.getD 0 s.fab.seqRx p.src
      let ahead := (p.seq + 2 ^ 32 - want) % 2 ^ 32
      if ahead = 0 then
        let t := { t with fab := { t.fab with seqRx := Tab.put 0 t.fab.seqRx p.src ((want + 1) % 2 ^ 32),
                                              early := t.fab.early.filter fun e => !(e.2.src == p.src && e.2.seq == p.seq) } }
        match t.perform p twin with
        | some t => State.runEarly p.src (t.fab.early.length + 1) t
        | none => s
      else if ahead < 2 ^ 31 && !s.fab.early.any fun e => e.2.src == p.src && e.2.seq == p.seq then
        { t with fab := { t.fab with early := t.fab.early ++ [(l, p)] } }
      else t

/-- A hinge message arrives, on whichever link. -/
def State.hingeIn (s : State) (h : HHdr) (m : HMsg) (twin : List TwinCopy := []) : State :=
  let mine (p : FPkt) : Bool := p.ptype == 13 && p.pay == .hinge h m
  let l := ((List.range 40).find? fun l => (s.link l).rx.any mine).getD 0
  let p := ((s.link l).rx.find? mine).getD { ptype := 13, dst := s.self, src := h.src, epoch := h.epoch, seq := h.seq, pay := .hinge h m }
  s.requestIn l p twin

/-! ## Liveness of a target (17 R536) -/

/-- A MGMT message routed to a node over one link. -/
def State.mgmtVia (s : State) (l dst : Nat) (m : MMsg) : State :=
  s.enqueue l { ptype := 0xE, cls := 3, dst, src := s.self, epoch := s.compo.epoch, pay := .mgmt m }

/-- A PROBE sent on up to four first links: those of the route set, then those of the backup set. -/
def State.probe (s : State) (n : Nat) : State :=
  let x := s.node n
  let no := (x.probeNo + 1) % 2 ^ 32
  let ls := ((x.route ++ x.backup).filter fun l => (s.link l).st == .up).take 4
  let s := s.setNode n { x with probeNo := no, probedAt := s.now }
  ls.foldl (fun s l => s.mgmtVia l n (.probe s.idn.uid s.self n no)) s

/-- An ALIVE node becomes SUSPECT, and is probed. -/
def State.suspect (s : State) (n : Nat) : State :=
  if (s.node n).live = .alive ∧ n ≠ s.self then
    let s := s.adopt kMissLimit
    (s.modNode n fun x => { x with live := .suspect, missed := 0, missLimit := s.kv kMissLimit }).probe n
  else s

/-! ## Commands that wait for writes (R394, R397) -/

/-- Some request packet of a list of tags is not answered. -/
def State.outTags (s : State) (tags : List Nat) : Bool := s.fab.txns.any fun t => tags.contains t.tag

/-- Tags of this device's outstanding writes and atomics to a range. -/
def State.writesTo (s : State) (node off len : Nat) : List Nat :=
  (s.fab.txns.filter fun t =>
    (t.pkt.ptype == 2 || t.pkt.ptype == 3) && t.pkt.dst == node && t.pkt.offset < off + len && off < t.pkt.offset + 128).map (·.tag)

/-- What a PUBLISH command completes with. -/
def publishAns (st i v : Nat) : Ans :=
  if st = sOK then { r0 := v }
  else if st = sVersionConflict then { status := st, r0 := v, r1 := i }
  else if st = sConflict then { status := st, sc := v, r1 := i }
  else refuse sBadField

/-- The fence is passed: the PUBLISH is decided here, or its packet sent. -/
def State.sendPublish (s : State) (f : Inflight) (node off count base job : Nat) (asHost : Bool) : State :=
  if node = s.self then
    let (st, i, v, s) := s.publish off count base job asHost
    s.finish f (publishAns st i v)
  else if s.dead node then s.finish f (refuse sBadField)
  else
    (s.setWait f.id (.publish [] node off count base job asHost true)).request (.command f.id) node 9 3 0 off job
      (.bytes (toLE 16 (pack [(16, count), (48, 0), (64, base)])))

/-- Commands whose writes are all complete go on. -/
def State.settleFences (s : State) : State :=
  s.inflight.foldl (fun s f =>
    match f.wait with
    | .flush tags => if s.outTags tags then s else s.finish f {}
    | .publish tags node off count base job asHost false =>
      if s.outTags tags then s else s.sendPublish f node off count base job asHost
    | _ => s) s

/-- A write that a fence waits for is refused with STALE_MAP (R403). -/
def State.staleFences (s : State) (tag : Nat) : State :=
  s.finishAll (fun w => match w with
    | .flush tags => tags.contains tag
    | .publish tags _ _ _ _ _ _ false => tags.contains tag
    | _ => false) (refuse sStaleMap)

/-! ## Answers (R384, R390, R403, R405) -/

/-- Fabric address of the line or word of a request. -/
def Txn.addr (t : Txn) : Nat := t.pkt.dst * 2 ^ 50 + t.pkt.offset

/-- A raw access meets a dead target: its engine goes on with poison, or as if acknowledged; the job's fault is reported (R405). -/
def State.deadRaw (s : State) (t : Txn) (cause : Nat) : State :=
  match t.who with
  | .engine pc rank eng key =>
    let s :=
      if t.pkt.ptype = 2 then (s.rlcAck (t.addr / 128)).lineIn pc rank eng false key (some fun _ _ => []) none
      else if t.pkt.ptype = 1 then s.lineIn pc rank eng false key none (some t.addr)
      else s.lineIn pc rank eng false key none none
    s.rawFault t.pkt.job cause t.pkt.dst
  | _ => s

/-- A raw access is refused by its home: the context faults (06 R227, R228). -/
def State.refusedRaw (s : State) (pc rank eng key reason ea : Nat) : State :=
  let code := if reason = nAddrRange then 0x02 else if reason = nMisaligned then 0x05 else 0x03
  match (s.engOf (s.atOf pc rank eng)).busy.find? fun p => p.waits.any fun w => !w.tier && w.key == key with
  | some p => s.resetProg pc rank eng code p.index ea
  | none => s

/-- A command is refused by the home (R395, R399). A NACK carries no state code: it is left open (log entry 27). -/
def State.refusedCmd (s : State) (c reason : Nat) : State :=
  match s.waitOf c with
  | some (.moveAsk _ _ _) => if reason = nStaleMap then s.finishId c (refuse sStaleMap) else s
  | some _ =>
    if reason = nStaleMap then s.finishId c (refuse sStaleMap)
    else if reason = nState then s.nextFree.finishId c (refuse sConflict (s.freeVal % 256))
    else s.finishId c (refuse sBadField)
  | none => s

/-- A request packet is refused. -/
def State.nackIn (s : State) (t : Txn) (reason : Nat) : State :=
  let stale : Bool := reason == nStaleMap
  match t.who with
  | .engine pc rank eng key => if stale then s.deadRaw t 2 else s.refusedRaw pc rank eng key reason t.addr
  | .command c => s.refusedCmd c reason
  | .collFwd e k _ => if stale then s.sessError (e * 16 + k) t.pkt.dst sStaleMap else s
  | .collRead e k _ => s.runEnd (e * 16 + k) (if stale then sStaleMap else sBadField)
  | .collWrite e k => s.runEnd (e * 16 + k) (if stale then sStaleMap else sBadField)
  | .nobody => s
  | _ => match s.txnCtx t.who with
    | some i => if stale then s.endReq i sStaleMap else s
    | none => s

/-- The line of a READ has come. -/
def State.dataIn (s : State) (t : Txn) (p : FPkt) : State :=
  match t.who with
  | .engine pc rank eng key =>
    let s := s.rlcTake t.pkt.dst (t.addr / 128) t.pkt.job (leNat p.data) p.sld p.poison
    if p.poison then s.lineIn pc rank eng false key none (if tierBase ≤ t.pkt.offset then none else some t.addr)
    else s.lineIn pc rank eng false key (some fun b n => (p.data.drop b).take n) none
  | .pull i off => s.pullIn i off p.data p.poison
  | .collRead e k i => s.runLine (e * 16 + k) i (leNat p.data) p.poison
  | _ => s

/-- A WRITE is acknowledged. -/
def State.ackIn (s : State) (t : Txn) : State :=
  match t.who with
  | .engine pc rank eng key => (s.rlcAck (t.addr / 128)).lineIn pc rank eng false key (some fun _ _ => []) none
  | .nobody => s.rlcAck (t.addr / 128)
  | .push i => s.pushAck i
  | .collWrite e k =>
    let k := e * 16 + k
    let x := s.sess k
    (s.setSess k { x with writes := x.writes - 1 }).settleRun k
  | _ => s

/-- The old value of an ATOMIC has come. -/
def State.atomIn (s : State) (t : Txn) (p : FPkt) : State :=
  match t.who with
  | .engine pc rank eng key =>
    s.lineIn pc rank eng false key (if p.poison then none else some fun b n => (p.data.drop b).take n) none
  | _ => s

/-- PUBLISH_RESP and VERSION_DATA. -/
def State.publishIn (s : State) (t : Txn) (p : FPkt) : State :=
  match t.who with
  | .command c => s.finishId c (publishAns (bytesAt p.data 0 2) (bytesAt p.data 2 2) (bytesAt p.data 8 8))
  | _ => s

/-- Lines of a range leave the cache, for every job; ACQUIRE_RANGE completes (R395). -/
def State.acquired (s : State) (c node off len ver : Nat) : State :=
  (s.rlcDrop fun line => line * 128 / 2 ^ 50 == node && off ≤ line * 128 % 2 ^ 50 && line * 128 % 2 ^ 50 < off + len).finishId c { r0 := ver }

def State.versionIn (s : State) (t : Txn) (p : FPkt) : State :=
  match t.who with
  | .command c => match s.waitOf c with
    | some (.acquire node off len) => s.acquired c node off len (bytesAt p.data 0 8)
    | _ => s
  | _ => s

/-- A response arrives: one of another epoch, malformed, or to no request outstanding, is discarded. -/
def State.responseIn (s : State) (l : Nat) (p : FPkt) (f : State → Txn → State) : State :=
  if !s.inMap || p.dst != s.self then s
  else
    let s := (s.takeRx l (· == p)).heardFrom p.src
    if p.epoch ≠ s.compo.epoch || !p.sound then s
    else match s.txnOf p.tag p.src with
      | some t => if t.pkt.seq = p.seq then (f s t).settleFences else s
      | none => s

/-- A response that ends its request, if the request is of the type it answers. -/
def State.answerIn (s : State) (l : Nat) (p : FPkt) (reqs : List Nat) (f : State → Txn → State) : State :=
  s.responseIn l p fun s t => if reqs.contains t.pkt.ptype then f (s.dropTxn t) t else s

/-! ## The rows -/

/-- A row acts on packets of its own type. -/
def onType (ptype : Nat) (p : FPkt) (s t : State) : Res := if p.ptype = ptype then .next t else .next s

def execRead (l : Nat) (p : FPkt) (s : State) : Res := onType 1 p s (s.requestIn l p)
def execWrite (l : Nat) (p : FPkt) (s : State) : Res := onType 2 p s (s.requestIn l p)
def execAtomic (l : Nat) (p : FPkt) (s : State) : Res := onType 3 p s (s.requestIn l p)
def execPublishPacket (l : Nat) (p : FPkt) (s : State) : Res := onType 9 p s (s.requestIn l p)
def execVersionRead (l : Nat) (p : FPkt) (s : State) : Res := onType 11 p s (s.requestIn l p)
def execReadData (l : Nat) (p : FPkt) (s : State) : Res := onType 4 p s (s.answerIn l p [1] fun s t => s.dataIn t p)
def execAck (l : Nat) (p : FPkt) (s : State) : Res := onType 5 p s (s.answerIn l p [2] fun s t => s.ackIn t)
def execAtomicData (l : Nat) (p : FPkt) (s : State) : Res := onType 7 p s (s.answerIn l p [3] fun s t => s.atomIn t p)
def execPublishResp (l : Nat) (p : FPkt) (s : State) : Res := onType 10 p s (s.answerIn l p [9] fun s t => s.publishIn t p)
def execVersionData (l : Nat) (p : FPkt) (s : State) : Res := onType 12 p s (s.answerIn l p [11] fun s t => s.versionIn t p)

/-- A NACK ends the request it answers, with its reason. -/
def execNack (l : Nat) (p : FPkt) (s : State) : Res :=
  onType 6 p s (s.answerIn l p [1, 2, 3, 9, 11, 13] fun s t => (if p.code = nStaleMap then s.staleFences t.tag else s).nackIn t p.code)

/-- PENDING: the read's timer runs anew with the home's bound (R378). -/
def execPendingRsp (l : Nat) (p : FPkt) (s : State) : Res :=
  onType 8 p s (s.responseIn l p fun s t =>
    if t.pkt.ptype = 1 then
      { s with fab := { s.fab with txns := s.fab.txns.map fun u => if u == t then { u with due := s.now + us (bytesAt p.data 0 4) } else u } }
    else s)

/-- A request packet has gone unanswered for its timeout: a raw access meets a dead target; hinge and command-level accesses are sent again,
under a new number; the node becomes SUSPECT (04 R131, 17 R533). -/
def execFabricTxnTimeout (txn : Nat) (s : State) : Res :=
  match s.fab.txns.find? fun t => t.tag == txn with
  | none => .next s
  | some t =>
    if !s.inMap || s.now < t.due then .next s
    else
      let n := t.pkt.dst
      let s := (s.suspect n).dropTxn t
      let s := match t.who with
        | .engine _ _ _ _ => s.deadRaw t 1
        | .collFwd e k _ => s.sessError (e * 16 + k) n sStateLost
        | .nobody => s.rlcAck (t.addr / 128)
        | _ => if s.dead n then s else s.issue t
      .next s.settleFences

/-- The twin has issued a WRITE or an ATOMIC to a line: this device's copy of it is invalidated (R388). -/
def execTwinInvalidate (addr : Nat) (s : State) : Res :=
  if s.runs && s.twinValid then .next (s.rlcDrop (· == addr / 128)) else .next s

/-! ## Hinge rows (04 R127, R146, R147) -/

def execRegionOpening (h : HHdr) (f : ReqFixed) (model delta grammar : List Byte) (age srcHandle : Nat) (move : Bool)
    (src : List (Nat × Nat)) (rows : Nat) (mirror : Option (Nat × Nat)) (s : State) : Res :=
  .next (s.hingeIn h (.opening f model delta grammar age srcHandle move src rows mirror))

/-- The answer to an opening: acceptance, or a refusal that names no region. -/
def execOpeningResponse (h : HHdr) (ok : Bool) (status handle base rows : Nat) (s : State) : Res :=
  if ok then .next (s.hingeIn h (.accepted handle h.region base rows)) else .next (s.hingeIn h (.refuse status))

def execPrepare (h : HHdr) (m : ReqMoving) (age stamp moves : Nat) (s : State) : Res := .next (s.hingeIn h (.prepare m age stamp moves))
def execReady (h : HHdr) (destHandle : Nat) (s : State) : Res := .next (s.hingeIn h (.ready destHandle))
def execCommit (h : HHdr) (age : Nat) (s : State) : Res := .next (s.hingeIn h (.commit age))
def execCommitAck (h : HHdr) (s : State) : Res := .next (s.hingeIn h .commitAck)
def execRefuse (h : HHdr) (status : Nat) (s : State) : Res := .next (s.hingeIn h (.refuse status))
def execAbandon (h : HHdr) (status : Nat) (s : State) : Res := .next (s.hingeIn h (.abandon status))
def execAbandonAck (h : HHdr) (s : State) : Res := .next (s.hingeIn h .abandonAck)
def execWithdraw (h : HHdr) (s : State) : Res := .next (s.hingeIn h .withdraw)
def execRedirect (h : HHdr) (node handle : Nat) (s : State) : Res := .next (s.hingeIn h (.redirect node handle))
def execSourceQuery (h : HHdr) (twin : List TwinCopy) (s : State) : Res := .next (s.hingeIn h .query twin)

/-! ## FLUSH_RANGE, ACQUIRE_RANGE, PUBLISH, QUERY_NODE (R394, R395, R397, R412) -/

/-- Size and end of the window an offset lies in, if it lies in one. -/
def windowEnd (off : Nat) : Option Nat :=
  match windowOf off with | .hbm _ => some hbmSize | .tier _ => some (tierBase + tierSize) | .none => none

/-- The checks of a range. -/
def badRange (p : Pkt) (s : State) : List (Bool × Ans) :=
  let off := p.f 127 64
  let len := p.f 191 128
  [badLen (outside len 128 562949953421312 || misaligned len 128 || (match windowEnd off with | some e => e < off + len | none => false)),
   badHandle p, badFld (!s.mapped (p.f 13 0) || misaligned off 128 || (windowEnd off).isNone)]

def rowFlushRange : CmdRow :=
  { opcode := 0x0A01, resv := [(63, 14), (383, 192)], check := fun p s => firstFail (badRange p s),
    act := fun p _ s =>
      let tags := s.writesTo (p.f 13 0) (p.f 127 64) (p.f 191 128)
      if tags.isEmpty then .done {} s else .wait (.flush tags) true none s }

def execFlushRange (p : Pkt) (s : State) : Res := .next (hostCommand rowFlushRange p s)

def rowAcquireRange : CmdRow :=
  { opcode := 0x0A02, resv := [(15, 14), (63, 29), (383, 192)],
    check := fun p s =>
      let v := p.b 28
      firstFail ([badFld (!v && p.f 27 16 != 0)] ++ badRange p s ++
        [badFld (v && tierBase ≤ p.f 127 64),
         (if v && p.f 13 0 == s.self then
            match s.readVersion (p.f 127 64) (p.f 27 16) with
            | .inl _ => (false, {})
            | .inr r => if r = nState then conflict true (s.ext 1 (p.f 127 64 / extBytes)).st.code else badFld true
          else (false, {}))]),
    act := fun p id s =>
      let n := p.f 13 0
      let off := p.f 127 64
      let len := p.f 191 128
      if p.b 28 && n != s.self then
        .wait (.acquire n off len) false none
          (if s.dead n then s else s.request (.command id) n 11 3 0 (off / extBytes * extBytes) (p.f 27 16) (.bytes []))
      else
        let v := if p.b 28 then s.version (off / extBytes) else 0
        .done { r0 := v } (s.rlcDrop fun line =>
          line * 128 / 2 ^ 50 == n && off ≤ line * 128 % 2 ^ 50 && line * 128 % 2 ^ 50 < off + len) }

def execAcquireRange (p : Pkt) (s : State) : Res := .next (hostCommand rowAcquireRange p s)

def rowPublish : CmdRow :=
  { opcode := 0x0A03, resv := [(15, 14), (47, 29), (383, 192)],
    check := fun p s =>
      let off := p.f 127 64
      let n := p.f 63 48
      firstFail
        [badFld (p.b 28 && p.f 27 16 != 0), badLen (outside n 1 32768 || (off < hbmSize && hbmSize < off + n * extBytes)), badHandle p,
         badFld (!s.mapped (p.f 13 0) || misaligned off extBytes || hbmSize ≤ off || (p.b 28 && p.f 13 0 != s.self) ||
           p.f 191 128 == 2 ^ 64 - 1)],
    act := fun p id s =>
      let n := p.f 13 0
      let off := p.f 127 64
      let count := p.f 63 48
      let base := p.f 191 128
      let job := p.f 27 16
      let tags := s.writesTo n off (count * extBytes)
      if tags.isEmpty && n == s.self then
        let (st, i, v, s) := s.publish off count base job (p.b 28)
        .done (publishAns st i v) s
      else if tags.isEmpty && s.dead n then .done (refuse sBadField) s
      else if tags.isEmpty then
        .wait (.publish [] n off count base job (p.b 28) true) false none
          (s.request (.command id) n 9 3 0 off job (.bytes (toLE 16 (pack [(16, count), (48, 0), (64, base)]))))
      else .wait (.publish tags n off count base job (p.b 28) false) false none s }

def execPublish (p : Pkt) (s : State) : Res := .next (hostCommand rowPublish p s)

/-- Liveness code (R404). -/
def Live.code : Live → Nat
  | .unmapped => 0 | .alive => 1 | .suspect => 2 | .dead => 3

/-- Hops of the shortest legal route over links UP at the moment: those of the route set, else one more over the backup set. -/
def State.hopsNow (s : State) (n : Nat) : Nat :=
  if (s.node n).route.any fun l => (s.link l).st == .up then (s.node n).hops
  else if (s.node n).backup.any fun l => (s.link l).st == .up then (s.node n).hops + 1
  else 0

/-- The result words of QUERY_NODE. -/
def State.nodeWords (s : State) (n : Nat) : Nat × Nat :=
  let x := s.node n
  let mapped := s.mapped n
  let me : Bool := n == s.self && mapped
  let live := if me then 1 else x.live.code
  let role := if !mapped then 0 else if me then s.compo.role else x.role
  let since := if me then 0 else if !mapped then 2 ^ 32 - 1 else match x.heard with
    | some t => min ((s.now - t) / 1600) (2 ^ 32 - 1)
    | none => 2 ^ 32 - 1
  (pack [(2, live), (2, role), (1, b2n (s.twinValid && n == s.twinNode)), (3, 0), (5, if me || !mapped then 0 else s.hopsNow n), (3, 0),
     (16, s.compo.epoch)], since)

def rowQueryNode : CmdRow :=
  { opcode := 0x0A04, resv := [(383, 14)], check := fun p _ => firstFail [badHandle p],
    act := fun p _ s => let w := s.nodeWords (p.f 13 0); .done { r0 := w.1, r1 := w.2 } s }

def execQueryNode (p : Pkt) (s : State) : Res := .next (hostCommand rowQueryNode p s)

end Sys2Proof.Machine
end

