-- ==== Sys2Proof/Machine/Fence.lean ====
section
/-! DEFINITION. Fencing a die: what leaves the device with it (01 R10, R20, 04 R125, 15 R470, 17 R544). -/

namespace Sys2Proof.Machine

/-- Stacks a die owns (01 R11). -/
def dieStacks (d : Nat) : List Nat :=
  if d < 8 then [2 * d, 2 * d + 1] else if d < 12 then [16 + 2 * (d - 8), 17 + 2 * (d - 8)] else []

/-- Slices that leave with a die (01 R18, R20). -/
def dieSlices (d : Nat) : List Nat :=
  if d < 8 then [2 * d, 2 * d + 1] else if d < 12 then (List.range 4).map (4 * (d - 8) + ·) else []

/-- An extent of a run lies on one of the stacks. -/
def runOn (hs : List Nat) (first n : Nat) : Bool :=
  hs.any fun h => 0 < n && first < (h + 1) * stackExts && h * stackExts < first + n

/-- The parts of runs that lie on none of the stacks, cut at stack boundaries. -/
def cutRuns (hs : List Nat) (rs : List (Nat × Nat)) : List (Nat × Nat) :=
  rs.flatMap fun (a, n) => (List.range 24).filterMap fun h =>
    let lo := max a (h * stackExts)
    let hi := min (a + n) ((h + 1) * stackExts)
    if hs.contains h || hi ≤ lo then none else some (lo, hi - lo)

/-! ## Objects on lost stacks -/

def Img.on (m : Img) (st : List Nat) : Bool := runOn st m.first (extsOf m.size)
def Model.on (m : Model) (st : List Nat) : Bool := runOn st m.first (extsOf m.size)
def Grammar.on (g : Grammar) (st : List Nat) : Bool := runOn st g.first (extsOf g.size)
def DeltaVer.on (v : DeltaVer) (st : List Nat) : Bool := runOn st v.first (extsOf v.size)
def Delta.on (d : Delta) (st : List Nat) : Bool := d.vers.any fun v => v.on st
def PrefixObj.on (o : PrefixObj) (st : List Nat) : Bool := runOn st o.first o.count

/-- A request refers to an object on the stacks, or has its region or working set there. -/
def State.reqOn (s : State) (st : List Nat) (c : Ctx) : Bool :=
  (match Tab.find? s.models c.model with | some m => m.on st | none => false) ||
    (c.delta != 0 && match Tab.find? s.deltas c.delta with | some d => d.on st | none => false) ||
    (c.grammar != 0 && match Tab.find? s.grammars c.grammar with | some g => g.on st | none => false) ||
    (c.prefixSt == .fetching && match Tab.find? s.prefixes c.prefixObj with | some o => o.on st | none => false) ||
    (match Tab.find? s.regions c.region with | some r => r.hasRun && runOn st r.first r.count | none => false) ||
    runOn st c.wsFirst c.wsCount

/-- A request lost: the twin's copy of a mirrored request is given back and its primary told; any other ends with STATE_LOST. -/
def State.loseReq (s : State) (i : Nat) : State :=
  match s.latchOf (s.handleFor i) with
  | some k => if (s.latch k).mirrored && !(s.latch k).primary then s.failCopy i sStateLost else s.endReq i sStateLost
  | none => s.endReq i sStateLost

/-- Requests in progress. -/
def State.liveReqs (s : State) : List Nat := s.ctxsThat fun c => !c.st.over

/-- Every request of a test lost. -/
def State.loseReqs (s : State) (p : Nat → Ctx → Bool) : State :=
  (Tab.keysOf s.ctxs fun i c => !c.st.over && p i c).foldl State.loseReq s

/-- Images with an extent on the stacks removed, from the bindings too; a program context that runs one ends (DEDUCED, log entry 50). -/
def State.dropImages (s : State) (st : List Nat) : State :=
  let ids := Tab.keysOf s.images fun _ m => m.on st
  let s := (Tab.keysOf s.pcs fun _ x => x.live && ids.contains x.image).foldl (fun s id => s.endProg id sCoreFault) s
  let s := ids.foldl (fun s id =>
    match Tab.find? s.images id with
    | some m => ({ s with images := Tab.erase s.images id }).releaseObject m.tenant m.first (extsOf m.size)
    | none => s) s
  (Tab.keysOf s.parts fun _ x => x.images.any ids.contains).foldl (fun s k =>
    (s.modPart k fun x => { x with images := x.images.filter fun id => !ids.contains id }).recompute k) s

/-- The other objects with an extent on the stacks removed. -/
def State.dropObjects (s : State) (st : List Nat) : State :=
  let s := s.dropImages st
  let s := (Tab.keysOf s.models fun _ m => m.on st).foldl (fun s id =>
    match Tab.find? s.models id with
    | some m => ({ s with models := Tab.erase s.models id }).releaseObject m.tenant m.first (extsOf m.size)
    | none => s) s
  let s := (Tab.keysOf s.deltas fun _ d => d.on st).foldl (fun s id =>
    match Tab.find? s.deltas id with
    | some d => d.vers.foldl (fun s v => s.releaseObject d.tenant v.first (extsOf v.size)) { s with deltas := Tab.erase s.deltas id }
    | none => s) s
  let s := (Tab.keysOf s.grammars fun _ g => g.on st).foldl (fun s id =>
    match Tab.find? s.grammars id with
    | some g => ({ s with grammars := Tab.erase s.grammars id }).releaseObject g.tenant g.first (extsOf g.size)
    | none => s) s
  (Tab.keysOf s.prefixes fun _ o => o.on st).foldl (fun s id =>
    match Tab.find? s.prefixes id with
    | some o => ((({ s with prefixes := Tab.erase s.prefixes id }).dropIndex o)).releaseObject o.tenant o.first o.count
    | none => s) s

/-- Extents, reservations and bytes of lost stacks. -/
def State.loseStacks (s : State) (st : List Nat) : State :=
  let es := Tab.keysOf s.t1x fun e _ => st.contains (extStack e)
  let s := es.foldl (fun s e => (s.stopRing 1 e).releaseExt 1 e) s
  let s := { s with t1x := s.t1x.filter fun x => !st.contains (extStack x.1), t1Map := cutRuns st s.t1Map,
                    t1Cache := cutRuns st s.t1Cache }.trimFrames
  (st.foldl (fun (s : State) h =>
    { s with hbm := Mem.zero s.hbm (h * stackExts * extBytes) (stackExts * extBytes),
             fab := { s.fab with hbmPoison := NSet.delRange s.fab.hbmPoison (h * stackExts * 16384) (stackExts * 16384) } }) s).settleRevokes

/-! ## What leaves with a fabric die -/

/-- Ports, cache slice, collective and hinge engines of FD `m`. -/
def State.loseFabricDie (s : State) (m : Nat) : State :=
  let ports := (List.range 9).map (9 * m + ·) ++ [36 + m]
  let s := ports.foldl (fun s l => (s.portTo l .down).clearPort l) s
  let s := { s with fab := { s.fab with rlc := s.fab.rlc.filter fun x => rlcSlice x.1 != m } }
  let s := s.closeSessions (fun k _ => k / 16 == m) sStateLost
  { s with withheld := NSet.add s.withheld m }

/-- Partitions with a core in a removed slice are destroyed (01 R20). -/
def State.losePartitions (s : State) (sl : List Nat) : State :=
  let hit (x : Part) : Bool := (coresOf x.pMask ++ coresOf x.dMask).any fun i => sl.contains (coreSlice i)
  let ks := Tab.keysOf s.parts fun _ x => x.st != .absent && hit x
  let s := (Tab.keysOf s.pcs fun id x => x.live && ks.contains (id / 8)).foldl (fun s id => s.endProg id sTornDown) s
  ks.foldl (fun s k => (s.modPart k fun x => { x with st := .destroying }).finishPart k) s

/-- A compute or fabric die is fenced. -/
def State.loseSlices (s : State) (d : Nat) (js : List Nat) : State :=
  let st := dieStacks d
  let s := s.loseReqs fun i c => js.contains c.job || (8 ≤ d && i / 2048 == d - 8) || s.reqOn st c
  let s := js.foldl (fun s j => s.detectFault j 3 s.self) s
  let s := (s.dropObjects st).loseStacks st
  let s := if 8 ≤ d then s.loseFabricDie (d - 8) else s
  s.losePartitions (dieSlices d)

/-- A die is fenced; cause 0 heartbeat, 1 HBM training. -/
def State.fenceDie (s : State) (d cause : Nat) : State :=
  if s.isFenced d || 16 ≤ d then s
  else
    let js := (((dieSlices d).filter fun k => !s.sliceLost k).map s.sliceJob).eraseDups.filter (· != 0)
    let live := s.liveReqs
    let s := { s with rcv := { s.rcv with fenced := NSet.add s.rcv.fenced d } }
    let s := if d < 12 then s.loseSlices d js
      else if d < 14 then s
      else (List.range 16).foldl (fun s k => if (s.table k).die = d - 14 then s.loseTable k 0 else s) s
    let s := if d = 12 ∨ d = 13 then s else s.capChanged s.views
    let ended := (live.filter fun i => (s.ctx i).st.over).length
    let s := s.postEvent 0x0F02 0 (pack [(4, d), (4, 0), (2, cause)]) ended
    if d = 12 ∨ d = 13 then s.fatalStop sTimeout else s

/-- A die has missed its heartbeat (17 R544). -/
def execDieHeartbeatTimeout (die : Nat) (s : State) : Res :=
  if s.runs then .next ((s.adopt kDieHeartbeat).fenceDie die 0) else .next s

end Sys2Proof.Machine
end

