-- ==== Sys2Proof/Machine/Identity.lean ====
section
/-! DEFINITION. Cold boot, measurements, the attestation key, evidence, SPDM and the management bus (16 R497 to R515). -/

namespace Sys2Proof.Machine

/-! ## Bundles (R501, R502) -/

/-- Offset of a slot: A, B. -/
def slotAt (b : Bool) : Nat := if b then 0x2000000 else 0

/-- The 4 KiB bundle header of a slot. -/
def State.bundle (s : State) (b : Bool) : List Byte := Mem.readN s.idn.flash (slotAt b) 4096

/-- Place of image entry `i` in a header, in bits. -/
abbrev imgBit (i : Nat) : Nat := 512 + 512 * i

/-- The image of an entry matches its digest. -/
def State.imageOk (s : State) (b : Bool) (h : List Byte) (i : Nat) : Bool :=
  let at_ := imgBit i
  sha384 (Mem.readN s.idn.flash (slotAt b + bfld h (at_ + 63) (at_ + 32)) (bfld h (at_ + 95) (at_ + 64))) ==
    (h.drop (at_ / 8 + 16)).take 48

/-- Entries in use. -/
def bundleEntries (h : List Byte) : List Nat := List.range (min 8 (bfld h 63 48))

/-- The entry of a kind. -/
def imageOf (h : List Byte) (kind : Nat) : Option Nat := (bundleEntries h).find? fun i => bfld h (imgBit i + 7) (imgBit i) == kind

/-- The stored digest of a kind. -/
def imageDigest (h : List Byte) (kind : Nat) : List Byte :=
  match imageOf h kind with | some i => (h.drop (imgBit i / 8 + 16)).take 48 | none => []

/-- The image of a kind is there and matches. -/
def State.kindOk (s : State) (b : Bool) (h : List Byte) (kind : Nat) : Bool :=
  match imageOf h kind with | some i => s.imageOk b h i | none => false

/-- The keys carried hash to the fused digests, the index is not revoked, and both signatures verify. -/
def State.bundleSigned (s : State) (h : List Byte) : Bool :=
  let k := bfld h 161 160
  let ec := (h.drop 1024).take 97
  let lms := (h.drop 1121).take 56
  let msg := h.take 1024
  sha384 ec == Config.fwP384Digest k && sha384 lms == Config.fwLmsDigest k && !bitAt s.idn.keyRevoked k &&
    ecdsaVerify ec msg ((h.drop 1184).take 96) && lmsVerify (fun t o => t == 8 && o == 4) lms msg ((h.drop 1280).take 1772)

/-- The mask ROM accepts the slot. -/
def State.slotOk (s : State) (b : Bool) : Bool :=
  let h := s.bundle b
  s.bundleSigned h && s.idn.svnFused ≤ bfld h 159 128 && s.kindOk b h 1

/-- The slots in the order the ROM tries them, those abandoned left out. -/
def State.slotOrder (s : State) : List Bool :=
  let bFirst : Bool := bfld (s.bundle false) 127 96 < bfld (s.bundle true) 127 96
  (if bFirst then [true, false] else [false, true]).filter fun b => !(if b then s.idn.badB else s.idn.badA)

/-! ## The subtree fuses (R507, R508) -/

/-- The next fuse of the subtree thermometer burnt and read back; with none left, the key is exhausted. -/
def State.burnSubtree (s : State) : State :=
  let i := s.idn
  if 4096 ≤ i.thermo then { s with idn := { i with exhausted := true, signing := false } }
  else
    let s := { s with idn := { i with subtree := i.thermo, thermo := i.thermo + 1, leaf := 0, signing := false } }
    if i.thermo + 1 = 4032 then s.postEvent 0x0E01 0 64 0 else s

/-! ## Measurements (R505) -/

/-- A measurement recorded, 1 to 6. -/
def State.setMeas (s : State) (i : Nat) (d : List Byte) : State :=
  { s with idn := { s.idn with meas := (List.range 6).map fun k => if k + 1 = i then d else s.idn.meas.getD k [] } }

/-- The six measurements; one not yet recorded is 48 zero bytes. -/
def State.measurements (s : State) : List (List Byte) := (List.range 6).map fun k => padTo 48 (s.idn.meas.getD k [])

/-- Measurement 5: the fuse groups but the device secret. -/
def State.fuseMeas (s : State) : List Byte :=
  let i := s.idn
  sha384 (toLE 8 i.uid ++ ((List.range 4).flatMap fun k => Config.fwP384Digest k ++ Config.fwLmsDigest k) ++
    Config.fuseImage i.keyRevoked i.svnFused i.thermo i.ownerSlots i.ownerRevoked)

/-- It is recorded once in a cold boot. -/
def State.recordFuses (s : State) : State := if (s.idn.meas.getD 4 []).isEmpty then s.setMeas 5 s.fuseMeas else s

/-! ## The cold boot (R502, R504, 18 R566, R567) -/

/-- Both slots have failed: boot stops in the mask ROM with AUTH_FAILED. -/
def State.bootStops (s : State) : State := ({ s with idn := { s.idn with boot := .stopped } }).fatalStop sAuthFailed

/-- A slot is accepted and its stage 1 starts; the subtree fuse is burnt once in a cold boot. The flash must not be granted (18 R574). -/
def execStage1Start (s : State) : Res :=
  if s.runs && s.idn.boot == .rom && !s.board.flashGnt then
    match s.slotOrder.find? s.slotOk with
    | none => .next s.bootStops
    | some b =>
      let first : Bool := !s.idn.badA && !s.idn.badB
      let s := { s with idn := { s.idn with boot := .stage1, slotB := b } }
      let s := s.setMeas 1 (imageDigest (s.bundle b) 1)
      .next (if first then s.burnSubtree else s)
  else .next s

/-- T1 extents of the save areas and the firmware reserve (10 R337, 11 R342, R587). -/
def State.reserveCold (s : State) : State :=
  let s := { s with idn := { s.idn with fwAt := Config.fwBase }, t1Res := addRun (Config.fwBase / extBytes, 64) s.t1Res }
  ((List.range 16).filter fun h => !s.isFenced (stackDie h)).foldl (fun s h =>
    match s.findRun 402 (some h) with
    | (some e, s) => { s with t1Res := addRun (e, 402) s.t1Res }
    | (none, s) => s) s

/-- Once the stacks are trained and the control firmware runs, the reservations are made and the host interface may be enabled; a fabric
boot starts if a manifest was found. -/
def State.coldReady (s : State) : State :=
  if s.idn.hbmUp && s.idn.boot == .running && !s.host.avail then
    let s := s.reserveCold
    let s := { s with host := { s.host with avail := true } }
    if s.compo.staged.isSome then s.initiate else s
  else s

/-- The identity record's keys equal the derived keys (R509). -/
def identityMatches : Bool :=
  padTo 97 Config.recP384Pub == Config.devP384Pub && padTo 60 Config.recHssPub == Config.devHssPub

/-- Every other image of the bundle matches: the control firmware runs, having read the persisted manifest (log entry 55). A slot that
fails is abandoned whole and the ROM tries the other. -/
def execFirmwareImagesChecked (s : State) : Res :=
  if s.runs && s.idn.boot == .stage1 && !s.board.flashGnt then
    let b := s.idn.slotB
    let h := s.bundle b
    if [2, 3, 4].all (s.kindOk b h) && (bundleEntries h).all (s.imageOk b h) then
      let s := ((s.setMeas 2 (imageDigest h 2)).setMeas 3 (imageDigest h 3)).setMeas 4 (imageDigest h 4)
      let s := if s.idn.exhausted then s.recordFuses else s
      let s := { s with idn := { s.idn with boot := .running, identityOk := identityMatches }, compo := { s.compo with staged := s.flashStored } }
      .next s.coldReady
    else
      let i := s.idn
      let s := { s with idn := { i with boot := .rom, badA := i.badA || !b, badB := i.badB || b } }
      .next (if s.idn.badA && s.idn.badB then s.bootStops else s)
  else .next s

/-- HBM training ends; a stack that fails fences the die that owns it. -/
def execHbmTrainingComplete (failed : List Nat) (s : State) : Res :=
  if s.runs && (s.idn.boot == .stage1 || s.idn.boot == .running) && !s.idn.hbmUp then
    let s := { s with idn := { s.idn with hbmUp := true } }
    let s := failed.foldl (fun s h => s.fenceDie (stackDie h) 1) s
    .next s.coldReady
  else .next s

/-! ## Evidence (R510, R511) -/

/-- DMTF value type of a measurement. -/
def measType (i : Nat) : Nat := if i = 5 then 2 else if i = 6 then 3 else 1

/-- The body of an evidence record. -/
def State.evidenceBody (s : State) (nonce : Nat) : List Byte :=
  let c := s.compo
  let header := pack [(32, 0x44564556), (16, 1), (16, 512), (64, s.idn.uid), (256, nonce), (14, if c.roleKnown then c.node else 0), (2, 0),
    (16, c.epoch), (2, c.role), (1, b2n c.roleKnown), (1, b2n c.unnumbered), (4, 0), (8, 6), (16, 0), (32, s.idn.svnFused),
    (12, s.idn.subtree), (4, 0), (15, s.idn.leaf), (1, 0), (64, s.now), (64, s.bundleFld 255 192)]
  let digest := match c.inForce with | some m => m.digest | none => []
  toLE 80 header ++ padTo 48 digest ++
    s.measurements.zipIdx.flatMap fun (d, i) => toLE 8 (pack [(8, i + 1), (8, measType (i + 1))]) ++ d ++ List.replicate 8 0

/-- The whole record: body and signature section. -/
def State.evidence (s : State) (nonce : Nat) : List Byte :=
  let body := s.evidenceBody nonce
  body ++ toLE 2 96 ++ toLE 2 3188 ++ List.replicate 4 0 ++ padTo 96 (Config.ecdsaSign body) ++
    padTo 3188 (Config.hssSign s.idn.subtree s.idn.leaf body)

/-- A leaf is used: the index is advanced before the signature is released (R507). -/
def State.useLeaf (s : State) : State := ({ s with idn := { s.idn with leaf := s.idn.leaf + 1 } }).bump kEvidence

/-- What a signing request meets. -/
inductive SignWay where
  /-- It cannot be signed, with this status. -/
  | never (status : Nat)
  /-- It waits. -/
  | later
  /-- The leaf can be used. -/
  | now
  deriving DecidableEq, Repr

/-- The next signing request; the subtree's end rolls over to the next one (R508). -/
def State.signWay (s : State) : SignWay × State :=
  if !s.idn.identityOk then (.never sAuthFailed, s)
  else if s.idn.exhausted then (.never sAttestExhausted, s)
  else if !s.idn.signing then (.later, s)
  else if s.idn.leaf < 32768 then (.now, s)
  else let t := s.burnSubtree; (if t.idn.exhausted then .never sAttestExhausted else .later, t)

/-- The answer of a signed GET_EVIDENCE. -/
def State.evidenceAns (s : State) (nonce buf : Nat) : Ans :=
  let e := s.evidence nonce
  { r0 := e.length, r1 := s.idn.subtree + s.idn.leaf * 4096, wr := [(buf, e)] }

/-- GET_EVIDENCE commands that wait go on, oldest first. -/
def State.serveEvidence (s : State) : State :=
  s.inflight.foldl (fun s f => match f.wait with
    | .evidence nonce buf =>
      match s.signWay with
      | (.never st, s) => s.finish f (refuse st)
      | (.later, s) => s
      | (.now, s) => (s.useLeaf).finish f (s.evidenceAns nonce buf)
    | _ => s) s

def rowGetEvidence : CmdRow :=
  { opcode := 0x0E01, resv := [(383, 352)],
    check := fun p _ => firstFail [badLen (outside (p.f 351 320) 4096 8192), badHandle p, badFld (misaligned (p.f 319 256) 64)],
    act := fun p _ s =>
      match s.signWay with
      | (.never st, s) => .done (refuse st) s
      | (.later, s) => .wait (.evidence (p.f 255 0) (p.f 319 256)) false (some (ms 5000)) s
      | (.now, s) => .done (s.evidenceAns (p.f 255 0) (p.f 319 256)) s.useLeaf }

def execGetEvidence (p : Pkt) (s : State) : Res := .next (hostCommand rowGetEvidence p s)

/-- The subtree, whose fuse is burnt, is generated and certified; signing is available (R504, R507). -/
def execSubtreeGenerated (s : State) : Res :=
  let up : Bool := s.idn.boot == .stage1 || s.idn.boot == .running
  if s.runs && up && !s.idn.signing && !s.idn.exhausted && decide (s.idn.subtree < s.idn.thermo) then
    .next (({ s.recordFuses with idn := { s.recordFuses.idn with signing := true } }).serveEvidence)
  else .next s

/-! ## GET_CERTIFICATES (R512) -/

/-- The identity record, 2,044 bytes (R509). -/
def State.idRecord (s : State) : List Byte :=
  toLE 16 (pack [(32, 0x52444956), (16, 1), (16, 2044), (64, s.idn.uid)]) ++ padTo 97 Config.recP384Pub ++ padTo 60 Config.recHssPub ++
  List.replicate 3 0 ++ padTo 96 Config.recEcdsaSig ++ padTo 1772 Config.recLmsSig

/-- The object asked for. -/
def State.certObject (s : State) (which : Bool) : List Byte := if which then s.idRecord else Config.x509Chain

def rowGetCertificates : CmdRow :=
  { opcode := 0x0E02, resv := [(63, 1), (383, 160)],
    check := fun p s =>
      firstFail [badLen (outside (p.f 159 128) 1024 16384 || p.f 159 128 < (s.certObject (p.b 0)).length), badHandle p,
        badFld (misaligned (p.f 127 64) 64)],
    act := fun p _ s => .done { r0 := (s.certObject (p.b 0)).length, wr := [(p.f 127 64, s.certObject (p.b 0))] } s }

def execGetCertificates (p : Pkt) (s : State) : Res := .next (hostCommand rowGetCertificates p s)

/-! ## SPDM (R513, R514) -/

/-- A request whose response is signed. -/
def spdmSigned : SpdmReq → Bool
  | .challenge _ _ => true
  | .getMeasurements _ b _ => b
  | _ => false

/-- A request the responder supports; one certificate slot. -/
def spdmKnown : SpdmReq → Bool
  | .getCertificate k _ _ => k == 0
  | .challenge k _ => k == 0
  | .other _ => false
  | _ => true

/-- A response sent. -/
def State.spdmSend (s : State) (t : Transport) (bs : List Byte) : State := { s with idn := { s.idn with out := s.idn.out ++ [(t == .mctp, bs)] } }

/-- The message hash M of a transport, and a new one. -/
def State.spdmM (s : State) (t : Transport) : Option (List Byte) := if t = .mctp then s.idn.mMctp else s.idn.mDoe
def State.setM (s : State) (t : Transport) (m : List Byte) : State :=
  if t = .mctp then { s with idn := { s.idn with mMctp := some m } } else { s with idn := { s.idn with mDoe := some m } }

/-- The transport reaches the responder: the control firmware runs and, over MCTP, the target has its address. -/
def State.spdmUp (s : State) (t : Transport) : Bool := s.runs && s.idn.boot == .running && (t == .doe || s.idn.i3cAddr != 0)

def execSpdmRequest (t : Transport) (r : SpdmReq) (s : State) : Res :=
  if !s.spdmUp t then .next s
  else if !spdmKnown r || (spdmSigned r && !s.idn.identityOk) then .next (s.spdmSend t (Config.spdmRefused r))
  else if spdmSigned r && !s.idn.signing && !s.idn.exhausted then .next (s.spdmSend t (Config.spdmNotReady r))
  else
    let ms := s.measurements
    let u := s.spdmSend t (Config.spdmAnswer r ms s.free)
    .next ((if spdmSigned r then u.setM t (Config.spdmHash r ms s.free) else u).nextFree)

/-- The vendor request: code 1 returns the HSS signature over M. -/
def execVendorDefinedRequest (t : Transport) (code : Nat) (s : State) : Res :=
  if !s.spdmUp t then .next s
  else if code ≠ 1 then .next (s.spdmSend t (Config.spdmRefused (.other code)))
  else match s.spdmM t with
    | none => .next (s.spdmSend t [])
    | some m =>
      match s.signWay with
      | (.never st, s) => .next (s.spdmSend t (toLE 2 st))
      | (.later, s) => .next (s.spdmSend t (Config.spdmNotReady (.other code)))
      | (.now, s) => .next ((s.spdmSend t (padTo 3188 (Config.hssSign s.idn.subtree s.idn.leaf m))).useLeaf)

/-! ## The management bus (R515) -/

/-- A dynamic address is assigned to a target that has none. -/
def execEntdaa (addr : Nat) (s : State) : Res :=
  if s.board.pwrok && s.idn.i3cAddr == 0 && 8 ≤ addr && addr ≤ 0x7D then .next { s with idn := { s.idn with i3cAddr := addr } } else .next s

def execRstdaa (s : State) : Res := if s.board.pwrok then .next { s with idn := { s.idn with i3cAddr := 0 } } else .next s
def execI3cBusReset (s : State) : Res := if s.board.pwrok then .next { s with idn := { s.idn with i3cAddr := 0 } } else .next s

/-- An MCTP control message is answered by the ROM's target or the firmware's, once there is an address. -/
def execMctpControlMessage (msg : List Byte) (s : State) : Res :=
  if s.board.pwrok && s.idn.i3cAddr != 0 && (!s.rcv.fatal || s.idn.boot == .stopped) then .next (s.spdmSend .mctp (Config.mctpAnswer msg))
  else .next s

end Sys2Proof.Machine
end

