-- ==== Sys2Proof/Machine/Service.lean ====
section
/-! DEFINITION. Service: buttons, drains of drives, ports and the module, the event log (17 R545 to R556). -/

namespace Sys2Proof.Machine

/-! ## Ports (R551) -/

/-- A drain refused for want of routes: the refusal pattern for 3 s, and SERVICE_REFUSED. -/
def State.refuseDrain (s : State) (l nodes : Nat) : State :=
  let s := { s with rcv := { s.rcv with refusedPat := Tab.set s.rcv.refusedPat l (s.now + ms 3000) } }
  s.postEvent 0x0F06 0 (pack [(2, 0), (6, 0), (6, l), (2, 0), (8, PortSt.up.code)]) nodes

/-- The service button of a port. A module that is SAFE holds its state (DEDUCED, log entry 52). -/
def State.portButton (s : State) (l : Nat) : State :=
  if 36 ≤ l ∨ !s.linkLive l ∨ s.rcv.modSt = .safe then s
  else match (s.link l).st with
    | .up => let n := s.strandedBy l; if n = 0 then s.drainPort l .out else s.refuseDrain l n
    | .out => s.restorePort l
    | .disabled => s.trainFrom l
    | .failed => s.trainFrom l
    | _ => s

/-- The refusal pattern has been shown for 3 s. -/
def execDrainRefusedPatternEnd (p : Nat) (s : State) : Res :=
  match Tab.find? s.rcv.refusedPat p with
  | some t => if s.runs && t ≤ s.now then .next { s with rcv := { s.rcv with refusedPat := Tab.erase s.rcv.refusedPat p } } else .next s
  | none => .next s

/-! ## Drives (R550) -/

/-- The attention button of a bay. -/
def State.driveButton (s : State) (d : Nat) : State :=
  let x := s.drive d
  if 8 ≤ d then s
  else match x.st with
    | .active =>
      if x.windowEnd.isSome then s.setDrive d { x with windowEnd := none }
      else
        let s := s.adopt kButtonAbort
        s.setDrive d { x with windowEnd := some (s.now + ms (s.kv kButtonAbort)) }
    | .safe => if x.present && !x.training then s.powerBay d else s
    | _ => s

/-! ## The module (R552 to R554) -/

/-- Mirrored requests as a module drain finds them: homes are handed to the twin, those in a step once it commits; copies kept for the twin's
requests are given back. -/
def State.drainMirrors (s : State) : State :=
  let s := (Tab.keysOf s.latches fun _ x => x.mirrored && !x.primary).foldl (fun s k => s.failCopy (fld (s.latch k).handle 12 0) sOK) s
  s.handTwins fun i => !s.parts.any fun x => x.2.stepAt.isSome && x.2.batch.contains i

/-- Entry to DRAINING. -/
def State.drainModule (s : State) : State :=
  let s := { s with rcv := { s.rcv with modSt := .draining, modAt := s.now + ms (s.kv kModuleDrain), modEnded := 0, modClosing := false } }
  s.drainMirrors

/-- The module's button. -/
def State.moduleButton (s : State) : State :=
  match s.rcv.modSt with
  | .inService =>
    let s := s.adopt kButtonAbort
    { s with rcv := { s.rcv with modSt := .abortWindow, modAt := s.now + ms (s.kv kButtonAbort) } }
  | .abortWindow => { s with rcv := { s.rcv with modSt := .inService } }
  | .draining => s
  | .safe => s

/-- `module_drain_ms` has passed: what is left ends, other nodes are told, and every port is drained and disabled. -/
def execModuleDrainTimeout (s : State) : Res :=
  if s.fwUp && s.rcv.modSt == .draining && !s.rcv.modClosing && s.rcv.modAt ≤ s.now then
    let live := s.ctxsThat fun c => !c.st.over
    let s := s.endReqs (fun _ _ => true) sStateLost
    let n := (live.filter fun i => (s.ctx i).st.over).length
    let s := { s with rcv := { s.rcv with modEnded := n, modClosing := true } }
    let s := (Tab.keysOf s.pcs fun _ x => x.live).foldl (fun s id => s.endProg id sCancelled) s
    let s := s.flood none (.nodeDown s.self 2 s.idn.uid)
    .next (((List.range 40).foldl State.disablePort s).settleModule)
  else .next s

/-! ## Buttons (R549, 18 R573) -/

/-- The number by which a press is latched. -/
def buttonCode : Button → Nat
  | .port p => p
  | .drive d => 64 + d
  | .module => 128

/-- A press acted on. -/
def State.press (s : State) (b : Nat) : State :=
  if b < 64 then s.portButton b else if b < 128 then s.driveButton (b - 64) else s.moduleButton

/-- A press registered: latched during a control-core restart. -/
def execButtonPress (b : Button) (s : State) : Res :=
  if !s.runs then .next s
  else if s.rcv.ctlRestart then .next { s with rcv := { s.rcv with buttons := s.rcv.buttons ++ [(buttonCode b)] } }
  else .next (s.press (buttonCode b))

/-- An abort window closes: the drain begins. -/
def execAbortWindowExpiry (b : Button) (s : State) : Res :=
  match b with
  | .port _ => .next s
  | .drive d =>
    (match (s.drive d).windowEnd with
     | some t => if s.fwUp && (s.drive d).st == .active && t ≤ s.now then .next (s.drainBay d) else .next s
     | none => .next s)
  | .module => if s.fwUp && s.rcv.modSt == .abortWindow && s.rcv.modAt ≤ s.now then .next s.drainModule else .next s

/-! ## SERVICE_DRAIN (R555) -/

/-- Checks of a PORT target: those of PORT_CONTROL. -/
def portService (p : Pkt) (s : State) : List (Bool × Ans) :=
  let l := p.f 13 8
  if p.b 16 then [portConflict s l [.out]]
  else
    let n := s.strandedBy l
    [portConflict s l [.up, .out], ((s.link l).st == .up && n != 0, { status := sConflict, sc := PortSt.up.code, r0 := n })]

/-- Checks of a DRIVE and of a MODULE target. -/
def driveService (p : Pkt) (s : State) : List (Bool × Ans) :=
  let x := s.drive (p.f 13 8)
  [conflict (if p.b 16 then x.st != .safe || !x.present else x.st != .active && x.st != .safe) x.st.code]
def moduleService (s : State) : List (Bool × Ans) := [conflict (s.rcv.modSt == .draining) s.rcv.modSt.code]

def checkService (p : Pkt) (s : State) : Option Ans :=
  let t := p.f 1 0
  let i := p.f 13 8
  firstFail
    ([badHandle p, badFld (t == 3 || (t == 0 && 35 < i) || (t == 1 && 7 < i) || (t == 2 && (i != 0 || p.b 16)))] ++
      (if t = 0 then portService p s else if t = 1 then driveService p s else moduleService s))

/-- The bound in place of the command timeout. -/
def serviceBound (t : Nat) (s : State) : Nat :=
  if t = 0 then us (s.kv kPortDrain) + ms 250
  else if t = 1 then ms (s.kv kTierTimeout) * (1 + s.kv kTierRetries) + ms 250
  else ms (s.kv kModuleDrain) + ms 1000

def actService (p : Pkt) (_id : Nat) (s : State) : Done :=
  let t := p.f 1 0
  let i := p.f 13 8
  let wait (s : State) : Done := .wait (.drain t i) true (some (serviceBound t s)) s
  if t = 0 then
    if !p.b 16 && (s.link i).st == .out then .done { status := sOkAlready } s
    else
      let s := if p.b 16 then s.restorePort i else s.drainPort i .out
      if (s.link i).st = .draining then wait s else .done {} s
  else if t = 1 then
    if p.b 16 then wait (s.powerBay i)
    else if (s.drive i).st = .safe then .done { status := sOkAlready } s
    else wait (s.drainBay i)
  else if s.rcv.modSt = .safe then .done { status := sOkAlready } s
  else wait s.drainModule

def rowServiceDrain : CmdRow :=
  { opcode := 0x0F02, resv := [(7, 2), (15, 14), (383, 17)], check := checkService, act := actService }

def execServiceDrain (p : Pkt) (s : State) : Res := .next (hostCommand rowServiceDrain p s)

/-! ## READ_EVENT_LOG (R546, R547) -/

/-- The 64 bytes of an entry. -/
def LogEntry.bytes (e : LogEntry) : List Byte :=
  toLE 64 (pack [(16, e.event), (16, 0), (32, e.seq), (64, e.time), (32, e.handle), (96, 0), (64, e.r0), (64, e.r1)])

/-- Entries from a sequence number on: from the oldest one where the number is older; none where it names none. -/
def State.logFrom (s : State) (first : Nat) : List LogEntry :=
  match s.rcv.log with
  | [] => []
  | e :: _ =>
    let back := (e.seq + 2 ^ 32 - first) % 2 ^ 32
    if 1 ≤ back ∧ back < 2 ^ 31 then s.rcv.log else s.rcv.log.dropWhile fun x => x.seq != first

def rowReadEventLog : CmdRow :=
  { opcode := 0x0F01, resv := [(63, 45), (383, 160)],
    check := fun p _ =>
      let n := p.f 44 32
      firstFail [badLen (outside n 1 4096 || outside (p.f 159 128) 64 262144 || p.f 159 128 < 64 * n), badHandle p,
        badFld (misaligned (p.f 127 64) 64)],
    act := fun p _ s =>
      let es := (s.logFrom (p.f 31 0)).take (p.f 44 32)
      let a : Ans := { r0 := match es with | e :: _ => e.seq | [] => p.f 31 0, r1 := es.length }
      if es.isEmpty then .done a s else .done { a with wr := [(p.f 127 64, es.flatMap LogEntry.bytes)] } s }

def execReadEventLog (p : Pkt) (s : State) : Res := .next (hostCommand rowReadEventLog p s)

end Sys2Proof.Machine
end

