-- ==== Sys2Proof/Machine/Keyval.lean ====
section
/-! DEFINITION. CONFIG_GET and CONFIG_SET: index and value ranges, the values of the read-only keys, and the keys with a rule of their
own (02 R75 to R78, 01 R31, R33, 03 R118, 04 R157, 05 R185, R194, 06 R239, 07 R265, 08 R294, 09 R316, 10 R340, 11 R371, 12 R415, 13 R445,
14 R466, 15 R496, 16 R503, R532, 17 R557, 18 R582). -/

namespace Sys2Proof.Machine

/-- The index names an instance of the key. -/
def State.ixOk (s : State) (i : Nat) : KeyIx → Bool
  | .one => i == 0
  | .upTo n => i < n
  | .queue => i < 1280 && i % 32 ≤ 24
  | .bucket => i < 20480 && i / 16 % 32 ≤ 24
  | .delta => (Tab.find? s.deltas i).isSome

/-- Bits of the type. -/
def KeyRow.bits (r : KeyRow) : Nat := 8 * 2 ^ r.ty

/-- The value lies outside the key's range: bits [13:0] and [15] of `alt_dest`, multiples of 25 MHz of the clock floor, an ACTIVE ring
for events, and fused to running security versions included. -/
def State.badValue (s : State) (r : KeyRow) (v : Nat) : Bool :=
  if r.key = kSvnFloor then v < s.idn.svnFused || s.bundleFld 159 128 < v
  else outside v r.lo r.hi || (r.key == kAltDest && bitAt v 14) || (r.key == kClockFloor && misaligned v 25) ||
    (r.key == kEventCq && (s.cqr v).st != .active)

/-! ## Read-only values -/

/-- Highest die temperature. -/
def State.tjMax (s : State) : Nat := s.pow.dieTemp.foldl (fun m e => max m e.2) 0

/-- Sum of a core statistics field over all cores. -/
def State.statTotal (s : State) (field : Nat) : Nat := ((List.range 96).map fun c => s.stat c field).foldl (· + ·) 0

/-- Chapters 01, 02, 03, 04 and 18; the counters of time are kept in XD0 cycles. -/
def State.roA (s : State) (key ix : Nat) : Nat :=
  if key = kFwVersion then s.bundleFld 255 192
  else if key = kPowerMode then s.pow.mode
  else if key = kComputeCapped ∨ key = kHbmPaced ∨ key = kFabricPaced ∨ key = kThrottleUs ∨ key = kProchotUs then s.ctr key / 1600
  else if key = kRole then s.compo.role
  else if key = kLpLevel then s.pow.level
  else if key = kTjMax then s.tjMax
  else if key = kVddCd then s.board.vddCd
  else if key = kVddFd then s.board.vddFd
  else if key = kCtxInUse then Tab.countP s.ctxs fun c => c.st != .free
  else if key = kLatchesInUse then Tab.countP s.latches fun x => x.st != .absent
  else s.ctr key ix

/-- Chapters 05 to 10. -/
def State.roB (s : State) (key ix : Nat) : Nat :=
  if key = kDetAbi then 1
  else if key = kEccCorrected then s.statTotal stEccC
  else if key = kEccUncorrected then s.statTotal stEccU
  else if key = kImagesLoaded then s.images.length
  else if key = kProgContexts then Tab.countP s.pcs fun x => x.live
  else if key = kModelsLoaded then s.models.length
  else if key = kModelBytes then Tab.sum s.models fun x => x.size
  else if key = kRegionsOpen then s.regions.length
  else if key = kRegionExtents then Tab.sum s.regions fun x => if x.hasRun then x.count else 0
  else if key = kDeltasLoaded then s.deltas.length
  else if key = kDeltaVersions then Tab.sum s.deltas fun x => x.vers.length
  else if key = kDeltaBytes then Tab.sum s.deltas fun x => (x.vers.map (·.size)).foldl (· + ·) 0
  else if key = kDeltaCurrent then (Tab.getD {} s.deltas ix).current
  else if key = kDeltaRefs then ((Tab.getD {} s.deltas ix).vers.map fun v => s.deltaRefs ix v.ver).foldl (· + ·) 0
  else if key = kGrammarsLoaded then s.grammars.length
  else if key = kGrammarBytes then Tab.sum s.grammars fun x => x.size
  else if key = kPreemptEff then b2n (s.part ix).effYield
  else if key = kPartsActive then Tab.countP s.parts fun x => x.st != .absent
  else if key = kSaveArea then 6432 - 804 * ((List.range 8).filter s.isFenced).length
  else s.ctr key ix

/-- Chapters 11 to 17. -/
def State.roC (s : State) (key ix : Nat) : Nat :=
  if key = kT1Free then s.t1Free
  else if key = kT2Free then s.t2Free
  else if key = kDriveState then (s.drive ix).st.code
  else if key = kRlcLines then s.fab.rlc.length
  else if key = kJobGen then (Tab.getD {} s.fab.jobs ix).gen
  else if key = kPortState then (s.link ix).st.code
  else if key = kShaperTokens then ((s.link (ix / 32)).queue (ix % 32)).sh.tokens
  else if key = kCascPos then s.cascPos
  else if key = kCascSize then s.cascSize
  else if key = kTablesActive then Tab.countP s.tum.tables fun x => x.active
  else if key = kFreeRows then ((s.rowGaps ix).map (·.2)).foldl (· + ·) 0
  else if key = kRouteRows then s.tum.routeRows
  else if key = kBootSlot then b2n s.idn.slotB
  else if key = kLmsFuses then s.idn.thermo
  else if key = kLmsLeaves then (if s.idn.exhausted then 0 else 32768 - s.idn.leaf)
  else if key = kOwnerSlots then (s.idn.ownerSlots.filter fun x => !x.isEmpty).length
  else if key = kManifestSeq then s.mfld 127 96
  else if key = kManifestStaged then b2n s.compo.staged.isSome
  else if key = kI3c then s.idn.i3cAddr
  else if key = kModuleState then s.rcv.modSt.code
  else if key = kNodesDead then Tab.countP s.fab.nodes fun x => x.live == .dead
  else if key = kDiesFenced then maskOf s.rcv.fenced
  else if key = kLogSeq then s.rcv.logSeq
  else s.ctr key ix

/-- The value of a key as CONFIG_GET reports it. -/
def State.keyValue (s : State) (r : KeyRow) (ix : Nat) : Nat :=
  if r.key = kSvnFloor then s.idn.svnFused
  else if !r.ro then s.kset r.key ix
  else if r.key < 0x04000000 then s.roA r.key ix
  else if r.key < 0x09000000 then s.roB r.key ix
  else s.roC r.key ix

/-- The value has not yet taken effect. -/
def State.keyPending (s : State) (r : KeyRow) (ix : Nat) : Bool :=
  !r.ro && r.key != kSvnFloor && s.kset r.key ix != s.kv r.key ix

/-! ## CONFIG_GET (R76) -/

def rowConfigGet : CmdRow :=
  { opcode := 0x0004, resv := [(383, 64)],
    check := fun p s => match keyRow? (p.f 31 0) with
      | none => some (refuse sBadField)
      | some r => firstFail [badFld (!s.ixOk (p.f 63 32) r.ix)],
    act := fun p _ s => match keyRow? (p.f 31 0) with
      | none => .done (refuse sBadField) s
      | some r =>
        let ix := p.f 63 32
        .done { r0 := s.keyValue r ix % 2 ^ r.bits, r1 := pack [(1, b2n (s.keyPending r ix)), (1, b2n r.ro), (6, 0), (2, r.ty)] } s }

def execConfigGet (p : Pkt) (s : State) : Res := .next (hostCommand rowConfigGet p s)

/-! ## CONFIG_SET (R77) -/

/-- A key of a partition that is not ACTIVE (10 R340). -/
def State.partKeyBar (s : State) (key ix : Nat) : Bool × Ans :=
  conflict ((key == kSliceUs || key == kPreemptBound) && (s.part ix).st != .active) (s.part ix).st.code

def checkConfigSet (p : Pkt) (s : State) : Option Ans :=
  match keyRow? (p.f 31 0) with
  | none => some (refuse sBadField)
  | some r =>
    let ix := p.f 63 32
    let bad := 2 ^ r.bits ≤ p.f 127 64 || s.badValue r (p.f 127 64)
    firstFail
      [badLen (!r.ro && r.count && bad), badFld (!s.ixOk ix r.ix || r.ro || bad), s.partKeyBar r.key ix,
       conflict (r.key == kPkgLimit && s.pow.trans.isSome) 0x10]

/-- A key's new value recorded; security version fuses are burnt up to the value (16 R503), and a partition's mode follows its bound
(10 R331). -/
def State.recordKey (s : State) (r : KeyRow) (ix v : Nat) : State :=
  if r.key = kSvnFloor then { s with idn := { s.idn with svnFused := v } }
  else
    let s := s.setKey r.key ix v r.later
    if r.key = kPreemptBound then s.recompute ix else s

def rowConfigSet : CmdRow :=
  { opcode := 0x0005, resv := [(383, 128)], check := checkConfigSet,
    act := fun p _ s => match keyRow? (p.f 31 0) with
      | none => .done (refuse sBadField) s
      | some r =>
        if s.keyValue r (p.f 63 32) = p.f 127 64 then .done { status := sOkAlready } s
        else .done {} (s.recordKey r (p.f 63 32) (p.f 127 64)) }

def execConfigSet (p : Pkt) (s : State) : Res := .next (hostCommand rowConfigSet p s)

/-! ## Scratchpad and bank errors (05 R185, R193)

A bit error is an event of the silicon; the table has no row for it (log entry 54). -/

/-- A single-bit error of core `c` (0 to 95): corrected and counted. -/
def State.singleBit (s : State) (c : Nat) : State := s.bumpStat c stEccC 1

/-- A double-bit error of the 64-bit word at byte `a` of the scratchpad or the banks of core `c`: poisoned, counted and posted. -/
def State.doubleBit (s : State) (c a : Nat) (bank : Bool) : State :=
  let s := s.bumpStat c stEccU 1
  let s := if bank then { s with accPoison := NSet.add s.accPoison ((c * 2 ^ 20 + a) / 8) }
    else { s with spPoison := NSet.add s.spPoison ((c * 2 ^ 25 + a) / 8) }
  let s := s.adopt kEccEvent
  if s.kv kEccEvent = 1 then s.postEvent 0x0401 0 (pack [(6, c % 48), (1, b2n (48 ≤ c)), (1, b2n bank)]) (a / 8 * 8) else s

end Sys2Proof.Machine
end

