-- ==== Sys2Proof/Machine/Liveness.lean ====
section
/-! DEFINITION. Node liveness: heartbeats, probes, the death of a node and self-isolation; the fabric manager's messages (12 R404, R408, 17
R535 to R539). -/

namespace Sys2Proof.Machine

/-! ## A node declared dead (R537) -/

/-- The node of a unique ID. -/
def State.nodeOfUid (s : State) (uid : Nat) : Nat :=
  if uid = s.idn.uid then s.self else (Tab.first? s.fab.nodes fun _ x => x.live != .unmapped && x.uid == uid).getD 0

/-- NODE_DOWN posted: node, cause, reporting node. -/
def State.nodeEvent (s : State) (n cause reporter : Nat) : State := s.postEvent 0x0F01 0 (pack [(14, n), (2, cause), (14, reporter)]) 0

/-- A trained or training port becomes UNMAPPED at once. -/
def State.unmapPort (s : State) (l : Nat) : State :=
  let st := (s.link l).st
  if st.trained || st == .training then (s.portTo l .unmapped).reholds l else s

/-- Ports whose peer is a node. -/
def State.portsTo (s : State) (n : Nat) : List Nat :=
  (List.range 40).filter fun l => let x := s.link l; x.peerIdent && !x.peerUnnumbered && x.peerNode == n

/-- Commands and runs that wait for a dead node (12 R399, 13 R440, R443). -/
def State.failToward (s : State) (n : Nat) : State :=
  let s := s.finishAll (fun w => match w with | .publish _ m _ _ _ _ _ true => m == n | _ => false) (refuse sBadField)
  let s := s.dropTxns fun t => match t.who with | .command c => t.pkt.dst == n && t.pkt.ptype == 9 && !s.inflight.any (·.id == c) | _ => false
  (s.fab.txns ++ s.fab.unsent).foldl (fun s t =>
    if t.pkt.dst ≠ n then s
    else match t.who with
      | .collFwd e k _ => s.sessError (e * 16 + k) n sStateLost
      | .collRead e k _ => if (s.sess (e * 16 + k)).st = .running then s.runEnd (e * 16 + k) sStateLost else s
      | .collWrite e k => if (s.sess (e * 16 + k)).st = .running then s.runEnd (e * 16 + k) sStateLost else s
      | _ => s) s

/-- Fault reports not yet acknowledged are sent, to the manager of the moment (12 R408). -/
def State.sendReports (s : State) : State :=
  (Tab.keysOf s.fab.jobs fun _ x => x.report.isSome).foldl State.sendReport s

/-- This device holds a node DEAD from now on. -/
def State.markDead (s : State) (n cause reporter : Nat) : State :=
  let s := (s.modNode n fun x => { x with live := .dead }).nodeEvent n cause reporter
  let s := (s.portsTo n).foldl State.unmapPort s
  ((s.hingeDead n).failToward n).sendReports

/-- Self-isolation (R538). -/
def State.isolate (s : State) : State :=
  if s.rcv.isolated || !s.compo.mapped then s
  else
    let s := { s with rcv := { s.rcv with isolated := true } }
    let s := (Tab.keysOf s.latches fun _ x => x.mirrored && !x.primary).foldl (fun s k => s.dropCopy k (s.latch k).ctx) s
    let s := s.endReqs (fun _ _ => true) sStateLost
    let s := (Tab.keysOf s.pcs fun _ x => x.live).foldl (fun s id => s.endProg id sTornDown) s
    let s := (s.flood none (.nodeDown s.self 1 s.idn.uid)).nodeEvent s.self 1 s.self
    (List.range 40).foldl State.unmapPort s

/-- NODE_DOWN arrives. -/
def execNodeDown (l node cause reporter : Nat) (s : State) : Res :=
  let m : MMsg := .nodeDown node cause reporter
  if !s.linkLive l || !(s.link l).st.trained then .next s
  else
    let s := s.gotMgmt l m
    let first := !(s.node node).downSeen
    let s := if first then (s.modNode node fun x => { x with downSeen := true }).flood (some l) m else s
    if node = s.self ∧ s.compo.mapped then .next s.isolate
    else if (s.node node).live = .alive ∨ (s.node node).live = .suspect then .next (s.markDead node cause (s.nodeOfUid reporter))
    else .next s

/-! ## Heartbeats (R535, R536, R538) -/

/-- Neighbours: mapped nodes at the other end of a port that is UP, or that retrains to UP (DEDUCED, log entry 51). -/
def State.neighbours (s : State) : List Nat :=
  Tab.keysOf s.fab.nodes fun n x => (x.live == .alive || x.live == .suspect) && n != s.self &&
    (s.portsTo n).any fun l => (s.link l).st == .up || ((s.link l).st == .training && (s.link l).backTo == .up)

/-- The interval that ends is judged: silence on every port, with a port UP throughout, is counted. -/
def State.judgeSilence (s : State) : State :=
  let n := if s.rcv.heard || s.rcv.upAll.isEmpty then 0 else s.rcv.silent + 1
  let s := { s with rcv := { s.rcv with silent := n } }
  if s.kset kMissLimit ≤ n then s.isolate else s

/-- `heartbeat_us` has passed: silent neighbours become SUSPECT, HEARTBEAT is sent on every UP port, and fault reports are sent again. -/
def execHeartbeatTimer (s : State) : Res :=
  if !s.inMap || s.now < s.rcv.hbAt + us (s.kv kHeartbeat) then .next s
  else
    let t := us (s.kv kHeartbeat)
    let s := s.judgeSilence
    let s := s.neighbours.foldl (fun s n => if (s.node n).beat + t ≤ s.now then s.suspect n else s) s
    let ups := (List.range 40).filter fun l => (s.link l).st == .up
    let s := ups.foldl (fun s l => s.mgmtOn l (.heartbeat s.idn.uid s.self s.compo.epoch)) (s.adopt kHeartbeat)
    .next { s with rcv := { s.rcv with hbAt := s.now, heard := false, upAll := ups } }.sendReports

/-- A node answers: SUSPECT returns to ALIVE. -/
def State.revive (s : State) (n : Nat) : State :=
  if (s.node n).live = .suspect then s.modNode n fun x => { x with live := .alive, missed := 0 } else s

/-- The message comes from a mapped node of this map that is not DEAD. -/
def State.fromMember (s : State) (uid node : Nat) : Bool :=
  s.inMap && node != s.self && ((s.node node).live == .alive || (s.node node).live == .suspect) && (s.node node).uid == uid

def execHeartbeat (l uid node epoch : Nat) (s : State) : Res :=
  if !s.linkLive l || !(s.link l).st.trained then .next s
  else
    let s := s.gotMgmt l (.heartbeat uid node epoch)
    if s.fromMember uid node && epoch == s.compo.epoch then
      let s := { s with rcv := { s.rcv with heard := true } }
      .next ((s.modNode node fun x => { x with beat := s.now }).heardFrom node |>.revive node)
    else .next s

/-! ## Probes (R536, R539) -/

/-- A PROBE for this device is answered. -/
def execProbe (l uid node target number : Nat) (s : State) : Res :=
  if s.inMap && s.linkLive l && target == s.self then
    let s := (s.gotMgmt l (.probe uid node target number)).heardFrom node
    .next (s.mgmtTo node (.probeAnswer uid node target number))
  else .next s

/-- An answer to a PROBE of this device. -/
def execProbeAnswer (l uid node target number : Nat) (s : State) : Res :=
  if s.inMap && s.linkLive l && uid == s.idn.uid && node == s.self then
    .next ((s.gotMgmt l (.probeAnswer uid node target number)).heardFrom target |>.revive target)
  else .next s

/-- A probe interval has passed without an answer: another PROBE, or the node is declared DEAD and NODE_DOWN flooded. -/
def execProbeInterval (node : Nat) (s : State) : Res :=
  let x := s.node node
  if s.inMap && x.live == .suspect && x.probedAt + us (s.kv kHeartbeat) ≤ s.now then
    if x.missLimit ≤ x.missed + 1 then
      let s := (s.modNode node fun x => { x with downSeen := true }).flood none (.nodeDown node 0 s.idn.uid)
      .next (s.markDead node 0 s.self)
    else .next ((s.setNode node { x with missed := x.missed + 1 }).probe node)
  else .next s

/-! ## The fabric manager's messages (12 R408) -/

/-- A MGMT message routed to this device leaves the buffer of whichever link holds it. -/
def State.tookMgmt (s : State) (m : MMsg) : State := s.takeRxAny fun p => p.pay == .mgmt m && p.dst == s.self

/-- JOB_FAULT: acknowledged, and the job torn down on every node if its generation is the one held. -/
def execJobFault (src job gen cause target : Nat) (s : State) : Res :=
  if s.inMap && s.fwUp then
    let s := (s.tookMgmt (.jobFault job gen cause target)).heardFrom src
    .next ((s.mgmtTo src (.jobFaultAck job gen)).manageFault job gen cause target src)
  else .next s

/-- TEARDOWN. -/
def execTeardown (job gen cause target reporter : Nat) (s : State) : Res :=
  if s.inMap && s.fwUp then
    .next ((s.tookMgmt (.teardown job gen cause target reporter)).teardownHere job gen cause target reporter)
  else .next s

end Sys2Proof.Machine
end

