-- ==== Sys2Proof/Machine/Matrix.lean ====
section
/-! DEFINITION. The matrix engines and their expanders: MATMUL, weight tiles, delta blocks, accumulation (05 R159 to R169, 06 R220 to R222,
R230, 08 R270 to R282). -/

namespace Sys2Proof.Machine

/-! ## Fields of a MATMUL (06 R220) -/

def mmRows (d : Nat) : Nat := fld d 231 224
def mmAct (d : Nat) : Nat := fld d 259 256
def mmReuse (d : Nat) : Bool := bitAt d 267
def mmDelta (d : Nat) : Bool := bitAt d 266
def mmClear (d : Nat) : Bool := bitAt d 265
/-- Byte of the banks at which a bank element stands: matrix engine of engine number `eng`. -/
def mmAcc (d eng m n : Nat) : Nat := ((eng - 3) * 2 + fld d 264 264) * 65536 + (fld d 278 272 + m) * 512 + 4 * n

/-! ## Weight tiles -/

/-- A stored weight element: its bits, its block's scale byte, poisoned. -/
structure WElem where
  bits : Nat
  scale : Nat
  bad : Bool
  deriving DecidableEq, Repr

/-- The value of a stored element. -/
def WElem.val (t : Nat) (w : WElem) : FV :=
  let x := decElem t w.bits
  if isMx t then (match decScale w.scale with | some e => x.scale e | none => .nan) else x

/-- The elements of one weight column of `k`, as its run at a scratchpad address stores them. -/
def State.baseColumn (s : State) (a : At) (t k x : Nat) : List WElem :=
  let b := elemBits t
  let run := s.spNat a x (runBytes t k)
  (List.range k).map fun i =>
    let sc := ceilDiv (k * b) 8 + i / 32
    { bits := fld run (b * i + b - 1) (b * i), scale := if isMx t then fld run (8 * sc + 7) (8 * sc) else 0,
      bad := s.spBad a (x + b * i / 8) ((b * i + b - 1) / 8 + 1 - b * i / 8) || (isMx t && s.spBad a (x + sc) 1) }

/-- The elements of an XRUN block (08 R273). -/
def xrunApply (lits : List Nat) : List (Bool × Nat) → List WElem → List WElem
  | [], _ => []
  | (lit, n) :: rs, base =>
    let now := base.take n
    let rest := base.drop n
    if lit then (now.zip lits).map (fun (w, l) => { w with bits := Nat.xor w.bits l }) ++ xrunApply (lits.drop n) rs rest
    else now ++ xrunApply lits rs rest

/-- What the expander makes of one block and its record at a scratchpad address: the variant elements, and whether the record failed (08
R272, R282). -/
def State.expandBlock (s : State) (a : At) (t x : Nat) (base : List WElem) : List WElem × Bool :=
  let h := s.spNat a x 8
  let n := recLen h
  let payload := s.spRead a (x + 8) n
  let b := elemBits t
  if recType h ≠ t ∨ !recOk h payload then (base.map fun w => { w with bad := true }, true)
  else if recMode h = 2 then
    let v := leNat payload
    let at_ (i : Nat) : WElem :=
      let sc := 32 * b + i / 32
      { bits := fld v (b * i + b - 1) (b * i), scale := if isMx t then fld v (8 * sc + 7) (8 * sc) else 0,
        bad := s.spBad a x 8 || s.spBad a (x + 8 + b * i / 8) ((b * i + b - 1) / 8 + 1 - b * i / 8) || (isMx t && s.spBad a (x + 8 + sc) 1) }
    ((List.range 256).map at_, false)
  else
    let bad := s.spBad a x (8 + n) || base.any (·.bad)
    let out :=
      if recMode h = 0 then base
      else
        let ls := leNat (payload.drop (recToks h))
        match xrunRuns (recLits h) (payload.take (recToks h)) 0 0 with
        | some rs => xrunApply ((List.range (recLits h)).map fun i => fld ls (b * i + b - 1) (b * i)) rs base
        | none => base
    (out.map fun w => { w with bad := w.bad || bad }, false)

/-- Addresses of `n` records from an address on. -/
def State.recAddrs (s : State) (a : At) : Nat → Nat → List Nat
  | 0, _ => []
  | n + 1, x => x :: State.recAddrs s a n (x + recBytes (s.spNat a x 8))

/-- The first record that runs past the scratchpad. -/
def State.recFault (s : State) (a : At) (xs : List Nat) : Option (Nat × Nat) :=
  let size := spBytes (s.isDecode a)
  (xs.find? fun x => size < x + 8 || size < x + recBytes (s.spNat a x 8)).map fun x => (0x01, max x size)

/-- A record counted: ZERO, XRUN, RAW or bad; the first bad block of the context posts EXPANDER_BAD_BLOCK. -/
def State.countBlock (s : State) (a : At) (x : Nat) (bad : Bool) : State :=
  let c := s.coreNo a
  let me := a.eng - 3
  if !bad then s.bumpExp c me (recMode (s.spNat a x 8)) 1
  else
    let s := (s.bumpExp c me 6 1).bump kExpBadBlocks
    if (s.pc a.id).badBlockSeen then s
    else
      let s := (s.modPc a.id fun y => { y with badBlockSeen := true }).adopt kExpBadEvent
      if s.kv kExpBadEvent = 1 then
        s.postEvent 0x0601 (s.pc a.id).image (pack [(7, a.id), (6, a.core), (1, b2n (s.isDecode a)), (3, me)]) x
      else s

/-- Columns of `k` elements. -/
def columns (k : Nat) : Nat → List WElem → List (List WElem)
  | 0, _ => []
  | n + 1, ws => ws.take k :: columns k n (ws.drop k)

/-- The tile of a MATMUL descriptor under its addresses, and the state with its blocks counted. -/
def State.loadTile (s : State) (a : At) (wgt delta : Nat) : Tile × State :=
  let d := a.d
  let t := fld d 263 260
  let k := fld d 248 240
  let n := fld d 239 232
  let base := (List.range n).map fun c => s.baseColumn a t k (wgt + c * fld d 319 288)
  let xs := s.recAddrs a (fld d 287 280) delta
  let r := if mmDelta d then
      let blocks := (columns 256 xs.length base.flatten).zip xs |>.map fun (b, x) => (s.expandBlock a t x b, x)
      (columns k n (blocks.flatMap (·.1.1)), blocks.foldl (fun s b => s.countBlock a b.2 b.1.2) s)
    else (base, s)
  let nan := if isMx t then (r.1.map fun c => ((List.range (k / 32)).filter fun j => (c.getD (32 * j) ⟨0, 0, false⟩).scale == 255).length).foldl
      (· + ·) 0 else 0
  ({ ty := t, k, n, desc := d, wgt, delta, cols := r.1.map fun c => (c.map (WElem.val t), c.any (·.bad)) },
   (r.2.bumpStat (s.coreNo a) stNanScale nan).bump kNanScale nan)

/-! ## Accumulation (05 R166 to R169) -/

/-- Exact sum of the products of two blocks. -/
def blockSum (xs ys : List FV) : FV := (List.zipWith FV.mul xs ys).foldl FV.add FV.zero

/-- Blocks added one by one, each addition rounded. -/
def accDet : Nat → FV → List FV → List FV → FV
  | 0, acc, _, _ => acc
  | n + 1, acc, xs, ys => accDet n (rne (FV.add acc (blockSum (xs.take 32) (ys.take 32)))) (xs.drop 32) (ys.drop 32)

/-- In Fast mode up to eight consecutive blocks go into one rounded addition; `pick` says how many. -/
def accFast (pick : Nat → Nat) : Nat → FV → List FV → List FV → FV
  | 0, acc, _, _ => acc
  | n + 1, acc, xs, ys =>
    if xs.isEmpty then acc
    else
      let g := 32 * (1 + pick n % 8)
      accFast pick n (rne (FV.add acc (blockSum (xs.take g) (ys.take g)))) (xs.drop g) (ys.drop g)

/-- Elements of a bank row written from its first column on: words of two, poisoned where an element is. -/
def State.bankRow (s : State) (a : At) (x : Nat) : List (Nat × Bool) → State
  | [] => s
  | [e] => s.accWrite a x (toLE 4 e.1) e.2
  | e :: f :: es => State.bankRow (s.accWrite a x (toLE 4 e.1 ++ toLE 4 f.1) (e.2 || f.2)) a (x + 8) es

/-- One row of a pass. -/
def State.passRow (s : State) (a : At) (t : Tile) (det : Bool) (m : Nat) : State :=
  let d := a.d
  let at_ := mmAct d
  let x := (addrOp d 128).ea (s.engOf a).regs + m * fld d 223 192
  let bytes := runBytes at_ t.k
  let run := s.spNat a x bytes
  let row := (List.range t.k).map (runElem at_ t.k run)
  let bad := s.spBad a x bytes
  let free := s.free
  let out := (List.range t.n).map fun n =>
    let c := t.cols.getD n ([], false)
    let y := mmAcc d a.eng m n
    let old := if mmClear d then FV.zero else dec32 (s.accNat a y 4)
    let v := if det then accDet (t.k / 32) old row c.1
      else accFast (fun i => Config.fastPick (free + 8 * n + i)) (t.k / 32) old row c.1
    (enc32 v, bad || c.2 || (!mmClear d && s.accBad a y 4))
  let nan := nanBlocks at_ t.k run
  let s := (s.bumpStat (s.coreNo a) stNanScale nan).bump kNanScale nan
  (if det then s else { s with free := s.free + 8 * t.n }).bankRow a (mmAcc d a.eng m 0) out

/-! ## MATMUL -/

/-- Pieces a MATMUL reads and writes, for a tile of `k` by `n`. -/
def mmAccs (d eng : Nat) (regs : List Nat) (k n recEnd : Nat) : List Acc :=
  let m := mmRows d
  let act := (List.range m).map fun i => ((addrOp d 128).ea regs + i * fld d 223 192, runBytes (mmAct d) k)
  let wgt := if mmReuse d then [] else (List.range n).map fun i => ((addrOp d 320).ea regs + i * fld d 319 288, runBytes (fld d 263 260) k)
  let del := if mmDelta d then let x := (addrOp d 384).ea regs; [(x, recEnd - x)] else []
  [⟨false, false, act ++ wgt ++ del⟩, ⟨true, true, (List.range m).map fun i => (mmAcc d eng i 0, 4 * n)⟩]

/-- MATMUL: one pass of rows on a tile into a bank. -/
def State.matmul (s : State) (a : At) : State :=
  let d := a.d
  let g := s.engOf a
  let wgt := (addrOp d 320).ea g.regs
  let delta := (addrOp d 384).ea g.regs
  let k := if mmReuse d then (match g.tile with | some t => t.k | none => 0) else fld d 248 240
  let n := if mmReuse d then (match g.tile with | some t => t.n | none => 0) else fld d 239 232
  let recs := if mmDelta d then s.recAddrs a (fld d 287 280) delta else []
  let recEnd := match recs.getLast? with | some x => x + recBytes (s.spNat a x 8) | none => delta
  let xs := mmAccs d a.eng g.regs k n recEnd
  let fault := firstFault
    [if mmReuse d && g.tile.isNone then some (0x07, 0) else none, if mmDelta d && delta % 8 != 0 then some (0x05, delta) else none,
     spFault (spBytes (s.isDecode a)) ((xs.filter (!·.wr)).flatMap (·.parts)), s.recFault a recs]
  s.runDesc a fault xs fun s =>
    let r := if mmReuse d then (g.tile.getD {}, s) else s.loadTile a wgt delta
    let s := r.2.modEng a fun g => { g with tile := some r.1 }
    let det := (s.part (a.id / 8)).det
    (List.range (mmRows d)).foldl (fun s m => s.passRow a r.1 det m) s

def execMatmul (e : EngAt) (d : Desc) (s : State) : Res := onEngine e d (isOp opMatmul) (fun a s => s.matmul a) s

end Sys2Proof.Machine
end

