-- ==== Sys2Proof/Machine/Restart.lean ====
section
/-! DEFINITION. Control-core restarts (02 R67, 17 R540 to R543). -/

namespace Sys2Proof.Machine

/-- Restarts of the last 60 s. -/
def State.recentRestarts (s : State) : List Nat := s.rcv.restarts.filter fun t => s.now < t + ms 60000

/-- One more restart would be too many. -/
def State.restartBar (s : State) : Bool := s.kv kRestartLimit ≤ s.recentRestarts.length

/-- The control firmware restarts: commands not committed complete with RETRY_LATER, but for a MOVE_STATE that has sent READY. -/
def State.beginRestart (s : State) : State :=
  let fs := s.uncommittedCmds.filter fun f => !s.readySent f
  let s := s.abandonAll fs sRetryLater true
  { s with rcv := { s.rcv with ctlRestart := true, restarts := s.recentRestarts ++ [s.now], retried := fs.length } }.bump kCtlRestarts

/-- A control core's watchdog expires; none is armed during a restart. -/
def execCtlWatchdogExpiry (_core : Nat) (s : State) : Res :=
  if s.fwUp then
    let s := (s.adopt kRestartLimit).adopt kWatchdog
    .next (if s.restartBar then s.fatalStop sCoreFault else s.beginRestart)
  else .next s

/-! ## The end of a restart (R540 to R542) -/

/-- A context whose record is bad: everything that names its index is freed, and no END is written. -/
def State.loseCtx (s : State) (i : Nat) : State :=
  let c := s.ctx i
  let h := s.handleFor i
  let s := match s.latchOf h with | some k => s.dropLatch k | none => s
  let s := (s.releaseCtx i).freeCtxAt i
  let s := { s with outHeld := s.outHeld.filter fun o => !(o.handle == h && o.ent.kind == 2) }
  let s := s.finishAll (fun w => match w with
    | .cancel x => x == i | .resume x => x == i | .pause x => x == i | .mirror x _ => x == i | _ => false)
    (refuse sStateLost)
  let s := s.inflight.foldl (fun s f => match f.wait with
    | .sealing x _ _ _ _ _ => if x = i then s.unseal f.id sStateLost else s
    | _ => s) s
  let s := if c.moveCmd = 0 then s else s.finishId (c.moveCmd - 1) (refuse sStateLost)
  s.postEvent 0x0F04 0 i 0

/-- Context indexes whose records, or whose latches' records, are bad. -/
def State.lostCtxs (s : State) (badCtx badLatch : List Nat) : List Nat :=
  let a := badCtx.filter fun i => i < 8192 && (s.ctx i).st != .free
  let b := badLatch.filterMap fun k =>
    let x := s.latch k
    let i := fld x.handle 12 0
    if x.st != .absent && (s.ctx i).st != .free && s.handleFor i == x.handle then some i else none
  (a ++ b).foldl NSet.add []

/-- The records are checked. -/
def State.checkRecords (s : State) (badCtx badLatch : List Nat) : State :=
  let is := s.lostCtxs badCtx badLatch
  let s := is.foldl State.loseCtx s
  badLatch.foldl (fun s k => if (s.latch k).st = .absent then s else s.dropLatch k) s

/-- Deadlines that have passed in the meantime get their entries. -/
def State.lateMisses (s : State) : State :=
  (s.ctxsThat fun c => c.timed).foldl (fun s i =>
    if !s.missed i then s else if (s.ctx i).bound && !s.committing i then s.writeMisses i else s.recordMiss i) s

/-- What was latched is acted on. -/
def State.actLatched (s : State) : State :=
  let ds := s.host.latched
  let bs := s.rcv.buttons
  let s := { s with host := { s.host with latched := [] }, rcv := { s.rcv with buttons := [] } }
  let s := ds.foldl (fun s (ty, n, v, ok) => s.ringDoorbell ty n v ok) s
  bs.foldl State.press s

/-- The restart ends. -/
def execControlRestartComplete (badCtx badLatch : List Nat) (s : State) : Res :=
  if s.runs && s.rcv.ctlRestart then
    let lost := (s.lostCtxs badCtx badLatch).length
    let s := ({ s with rcv := { s.rcv with ctlRestart := false } }).checkRecords badCtx badLatch
    let s := s.postEvent 0x0F03 0 (pack [(8, s.recentRestarts.length), (8, 0), (32, s.rcv.retried)]) lost
    .next (s.lateMisses.actLatched)
  else .next s

end Sys2Proof.Machine
end

