-- ==== Sys2Proof/Machine/Switch.lean ====
section
/-! DEFINITION. Switches between the program contexts of a rotation: the stop of the outgoing one, its save, the restore of the incoming one
(06 R231 to R236, 10 R328 to R339). -/

namespace Sys2Proof.Machine

/-! ## The switch in progress -/

/-- `f` applied to the switch in progress of a rotation. -/
def State.modSw (s : State) (k : Nat) (decode : Bool) (f : Switch → Switch) : State :=
  let r := s.rot k decode
  s.setRot k decode { r with sw := r.sw.map f }

/-- The switch of a rotation, where the device acts on it: it runs and its control cores are not restarting. -/
def State.switchOf (s : State) (k : Nat) (decode : Bool) : Option Switch :=
  if s.runs && !s.rcv.ctlRestart && (s.part k).st != .absent then (s.rot k decode).sw else none

/-- A slice ends (R330). -/
def execSliceEnd (part : Nat) (decode : Bool) (s : State) : Res :=
  let r := s.rot part decode
  if s.runs && !s.rcv.ctlRestart && r.cur != 0 && r.sw.isNone && !r.ended && r.sliceAt + us r.sliceUs ≤ s.now then
    .next ((s.setRot part decode { r with ended := true }).choosePc part decode)
  else .next s

/-! ## Stopping (06 R232, 10 R333, R334) -/

/-- `target` of R232 for a core. -/
def CoreCtx.yieldTarget (c : CoreCtx) : Nat := (c.engines.filter (!·.halted)).foldl (fun m g => max m (g.yseq + 1)) 0

/-- The targets of every core set. -/
def ProgCtx.aim (x : ProgCtx) : ProgCtx := { x with core := x.core.map fun c => { c with target := c.yieldTarget } }
/-- No yield request stands. -/
def ProgCtx.unaim (x : ProgCtx) : ProgCtx := { x with core := x.core.map fun c => { c with target := 0 } }

/-- A yield request is sent to the outgoing context (R334). -/
def execYieldRequest (part : Nat) (decode : Bool) (s : State) : Res :=
  match s.switchOf part decode with
  | some w =>
    if w.phase = .asking then
      .next ((s.modPc (part * 8 + w.out - 1) ProgCtx.aim).modSw part decode fun w => { w with phase := .yielding, askedAt := s.now })
    else .next s
  | none => .next s

/-- The descriptor an engine stands before. -/
def State.nextDesc (s : State) (x : ProgCtx) (eng : Nat) (g : Engine) : Nat := s.descAt x.image x.decode eng g.pos

/-- An engine of a core with a target has stopped before the yield point that would make `yseq` the target. -/
def State.atYield (s : State) (x : ProgCtx) (target eng : Nat) (g : Engine) : Bool :=
  g.halted || (g.busy.isEmpty && g.pos < (s.stream x.image x.decode eng).2 && dYield (s.nextDesc x eng g) && g.yseq + 1 == target)

/-- Every engine of the context has stopped so, or halted. -/
def State.allAtYield (s : State) (x : ProgCtx) : Bool := x.core.all fun c => c.engines.zipIdx.all fun (g, i) => s.atYield x c.target i g

/-- Every engine of the context is at a resumable point: no answer is outstanding (R333). -/
def ProgCtx.quiet (x : ProgCtx) : Bool := x.core.all fun c => c.engines.all fun g => g.busy.all fun p => p.waits.isEmpty

/-- Every engine of the outgoing context has stopped. -/
def execContextStopped (part : Nat) (decode : Bool) (s : State) : Res :=
  match s.switchOf part decode with
  | some w =>
    let x := s.pc (part * 8 + w.out - 1)
    match w.phase with
    | .asking => .next s
    | .yielding => if s.allAtYield x then .next (s.modSw part decode fun w => { w with phase := .saving, byYield := true }) else .next s
    | .stopping => if x.quiet then .next (s.modSw part decode fun w => { w with phase := .saving, byYield := false }) else .next s
    | .saving => .next s
    | .restoring => .next s
  | none => .next s

/-- The cores have not all stopped within the pre-emption bound: the context is stopped at once and saved in full (06 R236). -/
def execPreemptBoundExpiry (part : Nat) (decode : Bool) (s : State) : Res :=
  match s.switchOf part decode with
  | some w =>
    if w.phase = .yielding ∧ w.askedAt + us (s.kv kPreemptBound part) ≤ s.now then
      .next (((s.bump kYieldOverruns).modPc (part * 8 + w.out - 1) ProgCtx.unaim).modSw part decode fun w => { w with phase := .stopping })
    else .next s
  | none => .next s

/-! ## Saving (06 R232, R233, 10 R335) -/

/-- What of a core is saved: everything, or the live ranges of a cut, banks from 2^25 on. -/
def wholeCore : List (Nat × Nat) := [(0, 2 ^ 26)]

/-- Live ranges of a cut of a loaded image. -/
def State.cutRanges (s : State) (img cut : Nat) : List (Nat × Nat) :=
  let y := s.imgF img 415 384 + 16 * cut
  (List.range (s.imgNat img (y + 4) 2)).map fun i =>
    let v := s.imgNat img (s.imgF img 479 448 + 16 * (s.imgNat img y 4 + i)) 16
    if bitAt v 0 then (2 ^ 25 + (fld v 3 1 * 2 + fld v 4 4) * 65536 + fld v 63 32, fld v 95 64) else (fld v 63 32, fld v 95 64)

/-- What a yield save keeps of a core: nothing where every engine has halted; everything where the stopped descriptors name different cuts or
a token queue holds tokens; else the live ranges of the cut. -/
def State.yieldKeep (s : State) (x : ProgCtx) (c : CoreCtx) : List (Nat × Nat) :=
  let cuts := c.engines.zipIdx.filterMap fun (g, i) => if g.halted then none else some (dYieldId (s.nextDesc x i g))
  match cuts with
  | [] => []
  | cut :: rest => if rest.all (· == cut) && c.queues.isEmpty then s.cutRanges x.image cut else wholeCore

/-- A byte of a core's save space is kept. -/
def keeps (ls : List (Nat × Nat)) (a : Nat) : Bool := ls.any fun r => r.1 ≤ a && a < r.1 + r.2

/-- The entries of a table from `lo` on for `n`, moved to start at `to_`, where `keep` holds of the offset. -/
def cutOut {α : Type} (t : Tab α) (lo n to_ : Nat) (keep : Nat → Bool) : Tab α :=
  (t.filter fun e => lo ≤ e.1 && e.1 < lo + n && keep (e.1 - lo)).map fun e => (e.1 - lo + to_, e.2)

/-- As `cutOut`, for a set of words of 8 bytes. -/
def cutSet (t : NSet) (lo n to_ : Nat) (keep : Nat → Bool) : NSet :=
  (t.filter fun w => lo ≤ w && w < lo + n && keep (8 * (w - lo))).map fun w => w - lo + to_

/-- The context with what the cores held of it. -/
def State.saveCores (s : State) (x : ProgCtx) (live : List (List (Nat × Nat))) : ProgCtx :=
  let rs := x.cores.zip live |>.zipIdx.map fun (p, r) => (coreIx x.decode p.1, p.2, r)
  { x with
    savedSp := rs.flatMap fun (c, ls, r) => cutOut s.sp (c * 2 ^ 25) (2 ^ 25) (r * 2 ^ 25) (keeps ls)
    savedAcc := rs.flatMap fun (c, ls, r) => cutOut s.acc (c * 2 ^ 20) (2 ^ 20) (r * 2 ^ 20) fun o => keeps ls (2 ^ 25 + o)
    savedSpPoison := rs.flatMap fun (c, ls, r) => cutSet s.spPoison (c * 2 ^ 22) (2 ^ 22) (r * 2 ^ 22) (keeps ls)
    savedAccPoison := rs.flatMap fun (c, ls, r) => cutSet s.accPoison (c * 2 ^ 17) (2 ^ 17) (r * 2 ^ 17) fun o => keeps ls (2 ^ 25 + o)
    savedLive := if live.all (· == wholeCore) then none else some live
    place := .saved }

/-- The outgoing context is saved; the restore of the incoming one begins, or the rotation is chosen anew. -/
def execSaveComplete (part : Nat) (decode : Bool) (s : State) : Res :=
  match s.switchOf part decode with
  | some w =>
    if w.phase = .saving then
      let id := part * 8 + w.out - 1
      let x := s.pc id
      let live := x.core.map fun c => if w.byYield then s.yieldKeep x c else wholeCore
      let fell := if w.byYield then (live.filter (· == wholeCore)).length else 0
      let s := s.setPc id (s.saveCores x live).unaim
      let s := s.bump kYieldFallbacks fell
      let s := s.bump (if w.byYield && fell == 0 then kYieldSaves else kFullSaves) 1 part
      let r := { s.rot part decode with cur := 0, ended := false }
      let s := s.setRot part decode { r with sw := if w.inc = 0 then none else some { w with phase := .restoring } }
      .next (if w.inc = 0 then s.choosePc part decode else s)
    else .next s
  | none => .next s

/-! ## Restoring (06 R233, 10 R335) -/

/-- A memory with what lies from `lo` on for `n` replaced by the cells given. -/
def splice (m : Mem) (lo n : Nat) (new : Mem) : Mem := new.foldl (fun m e => Mem.write m e.1 e.2) (Mem.zero m lo n)
def spliceSet (t : NSet) (lo n : Nat) (new : NSet) : NSet := (t.filter (· < lo)) ++ new ++ t.filter (lo + n ≤ ·)

/-- Saved bytes with every byte of `n` that was not kept undefined: the free values from `f` on. -/
def fillFree (m : Mem) (keep : Nat → Bool) (lo n f : Nat) : Mem :=
  (List.range n).filterMap fun i =>
    let b : Byte := if keep i then Mem.read m (lo + i) else BitVec.ofNat 8 (Config.freeNat (f + i))
    if b = 0 then none else some (lo + i, b)

/-- One core of a saved context written back: scratchpad, banks and their poison. -/
def State.restoreCore (s : State) (x : ProgCtx) (rank core : Nat) : State :=
  let c := coreIx x.decode core
  let size := spBytes x.decode
  let banks := meCount x.decode * 131072
  let sp := cutOut x.savedSp (rank * 2 ^ 25) (2 ^ 25) (c * 2 ^ 25) fun _ => true
  let acc := cutOut x.savedAcc (rank * 2 ^ 20) (2 ^ 20) (c * 2 ^ 20) fun _ => true
  let spP := cutSet x.savedSpPoison (rank * 2 ^ 22) (2 ^ 22) (c * 2 ^ 22) fun _ => true
  let accP := cutSet x.savedAccPoison (rank * 2 ^ 17) (2 ^ 17) (c * 2 ^ 17) fun _ => true
  let live := match x.savedLive with | some ls => ls.getD rank [] | none => wholeCore
  let whole := live == wholeCore
  let sp := if whole then sp else fillFree sp (keeps live) (c * 2 ^ 25) size s.free
  let acc := if whole then acc else fillFree acc (fun o => keeps live (2 ^ 25 + o)) (c * 2 ^ 20) banks (s.free + size)
  { s with sp := splice s.sp (c * 2 ^ 25) (2 ^ 25) sp, acc := splice s.acc (c * 2 ^ 20) (2 ^ 20) acc,
           spPoison := spliceSet s.spPoison (c * 2 ^ 22) (2 ^ 22) spP, accPoison := spliceSet s.accPoison (c * 2 ^ 17) (2 ^ 17) accP,
           free := if whole then s.free else s.free + size + banks }

/-- The tile of one engine reloaded from its recorded source. -/
def State.reloadTile (s : State) (id rank core eng : Nat) : State :=
  let a : At := { id, rank, eng, core, d := 0 }
  match (s.engOf a).tile with
  | some t => let t := (s.loadTile { a with d := t.desc } t.wgt t.delta).1; s.modEng a fun g => { g with tile := some t }
  | none => s

/-- The saved context is on its cores again. -/
def State.restoreCores (s : State) (id : Nat) : State :=
  let x := s.pc id
  let s := x.cores.zipIdx.foldl (fun s (c, r) => s.restoreCore x r c) s
  let s := x.cores.zipIdx.foldl (fun s (c, r) => (List.range (engCount x.decode)).foldl (fun s e => s.reloadTile id r c e) s) s
  s.modPc id fun x => { x with savedSp := [], savedAcc := [], savedSpPoison := [], savedAccPoison := [], savedLive := none }

/-- The incoming context is on cores: its slice starts and the switch is over (R330). -/
def State.arrive (s : State) (k : Nat) (decode : Bool) (w : Switch) : State :=
  let id := k * 8 + w.inc - 1
  let s := if (s.pc id).place == .saved then s.restoreCores id else s
  let s := s.modPc id fun x => { x with place := .onCores }.touchAll s.now
  let s := s.adopt kSliceUs k
  let r := s.rot k decode
  let s := s.setRot k decode
    { r with cur := w.inc, lastLc := if (s.pc id).be then r.lastLc else w.inc - 1, lastBe := if (s.pc id).be then w.inc - 1 else r.lastBe,
             sliceAt := s.now, sliceUs := s.kv kSliceUs k, ended := false, sw := none }
  let s := s.bump kSwitches 1 k
  let s := if w.preempt then s.bump kLcPreempt 1 k else s
  let took := (s.now - w.at_) * 10 / 16
  let s := if s.ctr kSwitchMax k < took then s.setCtr kSwitchMax (took % 2 ^ 32) k else s
  (s.settleHalt id).choosePc k decode

def execRestoreComplete (part : Nat) (decode : Bool) (s : State) : Res :=
  match s.switchOf part decode with
  | some w => if w.phase = .restoring ∧ w.inc ≠ 0 then .next (s.arrive part decode w) else .next s
  | none => .next s

end Sys2Proof.Machine
end

