-- ==== Sys2Proof/Machine/Traffic.lean ====
section
/-! DEFINITION. Traffic scheduling: egress queues, deficit round robin, shapers, gate lists and sampling (14 R446 to R464), and what
40 ns without a command do on the links. -/

namespace Sys2Proof.Machine

/-! ## Eligibility (R450) -/

/-- Credits of the packet's lane cover its slots (13 R427). -/
def Link.canSend (x : Link) (p : FPkt) : Bool := p.slots ≤ x.credits.getD p.lane 0

/-- The head packet of a queue, and whether it stands in the response FIFO. -/
def Link.head (x : Link) (q : Queue) : Option (QPkt × Bool) :=
  match q.resp.head?, q.req.head? with
  | some e, r =>
    if x.canSend e.pkt then some (e, true)
    else match r with
      | some e => if x.canSend e.pkt then some (e, false) else none
      | none => none
  | none, some e => if x.canSend e.pkt then some (e, false) else none
  | none, none => none

/-- In UNMAPPED and OUT the port carries map messages only: the first of them (16 R525). -/
def Link.mapHead (x : Link) (q : Queue) : Option (QPkt × Bool) :=
  match q.req.find? fun e => floods e.pkt with
  | some e => if x.canSend e.pkt then some (e, false) else none
  | none => none

/-- The gate entry in force opens a queue (R455, R456). -/
def Link.gateOpen (x : Link) (q : Nat) : Bool := bitAt (x.gate.entries.getD x.gateIx (0, 0)).1 q

/-- Steps of fabric pacing on a link: of the power budget and of its die's throttling (01 R24, 18 R576). -/
def State.paceOf (s : State) (l : Nat) : Nat := max s.pow.fabricPace (Tab.getD 0 s.pow.dieSteps (8 + linkDie l))

/-- The class of a queue is held back for the paced share: BULK from the second step, PUSH from the third. -/
def pacedClass (pace q : Nat) : Bool := (q / 8 == 2 && 2 ≤ pace) || (q / 8 == 1 && 3 ≤ pace)

/-- The packet an eligible queue would start. -/
def State.eligible (s : State) (l q : Nat) (held : Bool) : Option (QPkt × Bool) :=
  let x := s.link l
  let v := x.queue q
  let h := if x.st = .up ∨ x.st = .draining then x.head v else if q = 24 then x.mapHead v else none
  match h with
  | some e =>
    if x.gateOpen q && (!v.sh.on || e.1.pkt.bytes ≤ v.sh.tokens) && !(held && pacedClass (s.paceOf l) q) then some e else none
  | none => none

/-! ## Starting a packet (R451, R462, R463) -/

/-- Histogram bucket of a value. -/
def bucket (v : Nat) : Nat := if v < 64 then 0 else min 15 (Nat.log2 v - 5)

/-- A saturating 64-bit counter raised by one. -/
def State.count (s : State) (key ix : Nat) : State := s.setCtr key (min (2 ^ 64 - 1) (s.ctr key ix + 1)) ix

/-- Key index of a queue. -/
def qix (l q : Nat) : Nat := l * 32 + q

/-- A sampled packet recorded as it starts, and written to the sample ring. -/
def State.sample (s : State) (l q depth joined : Nat) : State :=
  let c := s.portCycles l
  let delay := c - joined
  let s := (s.count kHistDepth (qix l q * 16 + bucket depth)).count kHistDelay (qix l q * 16 + bucket delay)
  if s.net.ringOn then
    let n := s.ctr kSampleWrites
    let e := pack [(40, c), (6, l), (5, q), (13, 0), (24, depth / 64), (32, min delay (2 ^ 32 - 1)), (8, 0)]
    (s.hbmWrite (s.net.ringOff + n % (s.net.ringExt * 131072) * 16) (toLE 16 e)).bump kSampleWrites
  else s

/-- The packet leaves its queue and its slots join the link's stream; full flits are sent. -/
def State.startPkt (s : State) (l q : Nat) (e : QPkt) (resp : Bool) : State :=
  let x := s.link l
  let v := x.queue q
  let n := e.pkt.bytes
  let v := if resp then { v with resp := v.resp.erase e } else { v with req := v.req.erase e }
  let v := { v with deficit := v.deficit - n, sh := if v.sh.on then { v.sh with tokens := v.sh.tokens - n } else v.sh }
  let done := v.resp.isEmpty && v.req.isEmpty
  let x := x.setQueue q (if done then { v with deficit := 0 } else v)
  let x := if done then { x with ptr := (q + 1) % 32, fresh := true } else x
  let x := { x with credits := setAt x.credits e.pkt.lane (x.credits.getD e.pkt.lane 0 - e.pkt.slots),
                    txStream := x.txStream ++ packetSlots e.pkt }
  let s := (s.setLink l (x.sendFull s.now)).bump kQTxBytes n (qix l q)
  let s := match e.sample with | some d => s.sample l q d e.joined | none => s
  State.unhold l (s.link l).held.length s

/-- The procedure of R451; `fuel` is its 32 steps. -/
def State.drr (l : Nat) (held : Bool) : Nat → State → State
  | 0, s => s
  | k + 1, s =>
    let x := s.link l
    let q := x.ptr
    let next (s : State) : State := s.modLink l fun x => { x with ptr := (q + 1) % 32, fresh := true }
    match s.eligible l q held with
    | none => State.drr l held k (next s)
    | some (e, resp) =>
      let s := if x.fresh then
          let s := s.adopt kQuantum (qix l q)
          s.modLink l fun x =>
            { x.setQueue q { x.queue q with deficit := (x.queue q).deficit + 64 * s.kset kQuantum (qix l q) } with fresh := false }
        else s
      if e.pkt.bytes ≤ ((s.link l).queue q).deficit then s.startPkt l q e resp else State.drr l held k (next s)

/-- An opportunity to start a packet on a link. The paced share of a power window is not stated: whether it holds paced queues back now is
a free value (log entry 30). -/
def execPacketStart (l : Nat) (s : State) : Res :=
  if s.linkLive l && (s.link l).st.trained && (s.link l).kept.length < 256 then
    if 2 ≤ s.paceOf l then .next (State.drr l (s.freeVal % 2 == 1) 32 s.nextFree) else .next (State.drr l false 32 s)
  else .next s

/-! ## Shapers (R452 to R454) -/

/-- A refill (R453). -/
def Shaper.refill (h : Shaper) : Shaper :=
  let h := match h.pend with
    | some (r, d, i) => { h with rate := r, depth := d, interval := i, pend := none }
    | none => h
  let acc := h.rem + h.rate * h.interval
  { h with tokens := min (min h.tokens h.depth + acc / 1000) h.depth, rem := acc % 1000, nextAt := h.nextAt + h.interval }

def execShaperRefill (l q : Nat) (s : State) : Res :=
  let v := (s.link l).queue q
  if s.linkLive l && v.sh.on && v.sh.nextAt ≤ s.portCycles l then
    .next (s.modLink l fun x => x.setQueue q { v with sh := v.sh.refill })
  else .next s

/-- Values a SET_SHAPER is compared with: those pending, else those in force. -/
def Shaper.wanted (h : Shaper) : Nat × Nat × Nat := h.pend.getD (h.rate, h.depth, h.interval)

def rowSetShaper : CmdRow :=
  { opcode := 0x0C01, resv := [(7, 6), (15, 13), (31, 17), (95, 83), (383, 113)],
    check := fun p _ =>
      let on := p.b 16
      firstFail
        [badLen (on && outside (p.f 82 64) 8 262144), badHandle p,
         badFld (39 < p.f 5 0 || 24 < p.f 12 8 || (on && (100000 < p.f 63 32 || outside (p.f 112 96) 256 65536)) ||
           (!on && !rangesZero p.v [(63, 32), (82, 64), (112, 96)]))],
    act := fun p _ s =>
      let l := p.f 5 0
      let q := p.f 12 8
      let v := (s.link l).queue q
      let h := v.sh
      let put (h : Shaper) : State := s.modLink l fun x => x.setQueue q { v with sh := h }
      let new := (p.f 63 32, 64 * p.f 82 64, p.f 112 96)
      if p.b 16 then
        if !h.on then
          .done { r0 := new.2.1 } (put { on := true, rate := new.1, depth := new.2.1, interval := new.2.2, tokens := new.2.1,
                                         nextAt := s.portCycles l + new.2.2 })
        else if h.wanted = new then .done { status := sOkAlready, r0 := h.tokens } s
        else .done { r0 := h.tokens } (put { h with pend := some new })
      else if h.on then .done { r0 := h.tokens } (put {})
      else .done { status := sOkAlready, r0 := h.tokens } s }

def execSetShaper (p : Pkt) (s : State) : Res := .next (hostCommand rowSetShaper p s)

/-! ## Gate lists (R455 to R461) -/

/-- A list in force from its entry `i`, which ends when the island counter reaches `c` plus its duration. -/
def Link.enter (x : Link) (i c : Nat) : Link :=
  let i := if i < x.gate.entries.length then i else 0
  { x with gateIx := i, gateEnd := c + (x.gate.entries.getD i (0, 0)).2 }

/-- The entry in force has run its duration: the next takes over. -/
def execGateEntryAdvance (l : Nat) (s : State) : Res :=
  if s.linkLive l && (s.link l).gateEnd ≤ s.portCycles l then .next (s.modLink l fun x => x.enter (x.gateIx + 1) x.gateEnd) else .next s

/-- The island counter has reached T: the staged list becomes the operational list. -/
def State.adoptGate (s : State) (l : Nat) (g : GateList) : State :=
  let s := s.modLink l fun x => { x with gate := g, staged := none }.enter 0 g.adoptAt
  (s.bump kGateAdoptions 1 l).postEvent 0x0C01 0 (pack [(6, l), (10, 0), (9, g.entries.length)]) g.adoptAt

def execGateAdopt (l : Nat) (s : State) : Res :=
  match (s.link l).staged with
  | some g => if s.linkLive l && g.adoptAt ≤ s.portCycles l then .next (s.adoptGate l g) else .next s
  | none => .next s

/-- An adoption whose T has come precedes a commit (R460). -/
def State.dueGate (s : State) (l : Nat) : State :=
  match (s.link l).staged with
  | some g => if s.linkLive l && g.adoptAt ≤ s.portCycles l then s.adoptGate l g else s
  | none => s

/-- Entries of an extended block. -/
def gateEntries (p : Pkt) : List (Nat × Nat) :=
  (List.range (p.f 24 16)).map fun i => (p.xf (64 * i + 31) (64 * i), p.xf (64 * i + 55) (64 * i + 32))

def rowStageGateList : CmdRow :=
  { opcode := 0x0C02, resv := [(7, 6), (15, 9), (63, 25), (383, 128)], ext := fun v => 8 * fld v 24 16,
    extOk := fun v x => (List.range (fld v 24 16)).all fun i => bfld x (64 * i + 63) (64 * i + 56) == 0,
    check := fun p s =>
      firstFail
        [badLen (outside (p.f 24 16) 1 256), badHandle p,
         badFld (39 < p.f 5 0 || p.b 8 || (gateEntries p).any fun e => e.2 == 0 || !bitAt e.1 24),
         (p.f 127 64 < s.portCycles (p.f 5 0) + 2000, refuse sTimeInPast)],
    act := fun p _ s =>
      let l := p.f 5 0
      let s := s.dueGate l
      let had := (s.link l).staged.isSome
      .done { r0 := s.portCycles l, r1 := b2n had }
        (s.modLink l fun x => { x with staged := some { entries := gateEntries p, adoptAt := p.f 127 64 } }) }

def execStageGateList (p : Pkt) (s : State) : Res := .next (hostCommand rowStageGateList p s)

def rowGateListCancel : CmdRow :=
  { opcode := 0x0C02, resv := [(7, 6), (15, 9), (63, 25), (383, 128)],
    check := fun p _ => firstFail [badLen (p.f 24 16 != 0), badHandle p, badFld (39 < p.f 5 0 || !p.b 8 || p.f 127 64 != 0)],
    act := fun p _ s =>
      let l := p.f 5 0
      let s := s.dueGate l
      let c := s.portCycles l
      if (s.link l).staged.isSome then .done { r0 := c, r1 := 1 } (s.modLink l fun x => { x with staged := none })
      else .done { status := sOkAlready, r0 := c } s }

def execGateListCancel (p : Pkt) (s : State) : Res := .next (hostCommand rowGateListCancel p s)

/-- The list READ_GATE_LIST names, and the entry in force. -/
def State.gateRead (s : State) (p : Pkt) : GateList × Nat :=
  let x := s.link (p.f 5 0)
  if p.b 8 then (x.staged.getD ⟨[], 0⟩, 0) else (x.gate, x.gateIx)

def rowReadGateList : CmdRow :=
  { opcode := 0x0C03, resv := [(7, 6), (63, 9), (383, 160)],
    check := fun p s =>
      firstFail
        [badLen (outside (p.f 159 128) 64 2112 || p.f 159 128 < 64 + 8 * (s.gateRead p).1.entries.length), badHandle p,
         badFld (39 < p.f 5 0 || misaligned (p.f 127 64) 64)],
    act := fun p _ s =>
      let g := s.gateRead p
      let total := (g.1.entries.map (·.2)).foldl (· + ·) 0
      let hdr := pack [(9, g.1.entries.length), (7, 0), (8, g.2), (40, 0), (64, g.1.adoptAt), (64, s.portCycles (p.f 5 0)), (64, total),
        (256, 0)]
      .done { wr := [(p.f 127 64, toLE 64 hdr ++ g.1.entries.flatMap fun e => toLE 8 (pack [(32, e.1), (24, e.2), (8, 0)]))] } s }

def execReadGateList (p : Pkt) (s : State) : Res := .next (hostCommand rowReadGateList p s)

/-! ## SET_SAMPLING (R462 to R464) -/

abbrev samplingResv : List (Nat × Nat) := [(7, 1), (15, 14), (23, 23), (63, 29), (383, 135)]

def rowSamplingQueue : CmdRow :=
  { opcode := 0x0C04, resv := samplingResv,
    check := fun p _ =>
      firstFail [badHandle p,
        badFld (p.b 0 || 39 < p.f 13 8 || 24 < p.f 20 16 || 20 < p.f 28 24 || (!p.b 21 && p.f 28 24 != 0) ||
          !rangesZero p.v [(127, 64), (134, 128)])],
    act := fun p _ s =>
      let l := p.f 13 8
      let q := p.f 20 16
      let v := (s.link l).queue q
      if v.smpOn == p.b 21 && v.smpLog2 == p.f 28 24 && !p.b 22 then .done { status := sOkAlready } s
      else
        let s := if p.b 22 then
            (List.range 16).foldl (fun s b => (s.setCtr kHistDepth 0 (qix l q * 16 + b)).setCtr kHistDelay 0 (qix l q * 16 + b)) s
          else s
        .done {} (s.modLink l fun x => x.setQueue q { v with smpOn := p.b 21, smpLog2 := p.f 28 24, smpCount := 0 }) }

def execSamplingQueue (p : Pkt) (s : State) : Res := .next (hostCommand rowSamplingQueue p s)

def rowSamplingRing : CmdRow :=
  { opcode := 0x0C04, resv := samplingResv,
    check := fun p s =>
      let on := p.b 21
      let off := p.f 127 64
      let n := p.f 134 128
      firstFail
        [badLen (on && (outside n 1 64 || hbmSize < off + n * extBytes)), badHandle p,
         badFld (!p.b 0 || !rangesZero p.v [(13, 8), (20, 16), (22, 22), (28, 24)] || (!on && (off != 0 || n != 0)) ||
           (on && (misaligned off extBytes || !(List.range n).all fun i =>
             let x := s.ext 1 (off / extBytes + i); x.st == .granted && x.who == .host))),
         lowPowerBar s 2],
    act := fun p _ s =>
      let n := s.net
      if (if p.b 21 then n.ringOn && n.ringOff == p.f 127 64 && n.ringExt == p.f 134 128 else !n.ringOn) then .done { status := sOkAlready } s
      else
        .done {} ({ s with net := { n with ringOn := p.b 21, ringOff := p.f 127 64, ringExt := p.f 134 128 } }.setCtr kSampleWrites 0) }

def execSamplingRing (p : Pkt) (s : State) : Res := .next (hostCommand rowSamplingRing p s)

/-! ## Time (R466, 13 R422) -/

/-- Port cycles for which a queue has stood with a packet behind a closed gate, or short of tokens, in 40 ns. -/
def State.countBlocked (s : State) (l : Nat) (n : Nat) : State :=
  (List.range 25).foldl (fun s q =>
    let x := s.link l
    let v := x.queue q
    match x.head v with
    | none => if (v.resp.isEmpty && v.req.isEmpty) || x.gateOpen q then s else s.bump kQGate n (qix l q)
    | some e =>
      let s := if x.gateOpen q then s else s.bump kQGate n (qix l q)
      if v.sh.on && v.sh.tokens < e.1.pkt.bytes then s.bump kQShaper n (qix l q) else s) s

/-- 40 ns with no command: the clocks advance and the links send what waits. -/
def State.idle (s : State) : State :=
  if s.runs then
    (s.net.links.map (·.1)).foldl (fun s l =>
      if s.linkLive l then (s.countBlocked l 40).modLink l fun x => x.rest s.now else s) s.tick
  else s

end Sys2Proof.Machine
end

