-- ==== Sys2Proof/Machine/Vector.lean ====
section
/-! DEFINITION. The vector engine and the special functions (05 R170 to R174, 06 R223 to R226, R230). -/

namespace Sys2Proof.Machine

/-! ## Operands -/

/-- Where an operand's rows stand: type, elements per row, and the pieces, one a row. -/
structure Rows where
  ty : Nat
  n : Nat
  acc : Bool
  parts : List (Nat × Nat)
  deriving DecidableEq, Repr

/-- Rows of a vector operand at bit `lo`: `rows` rows of `n` elements; an accumulator operand lies in its bank. -/
def vecRows (d lo ty rows n : Nat) (regs : List Nat) : Rows :=
  let o := vecOp d lo
  let base := if o.acc then (o.me * 2 + o.bank) * 65536 else 0
  { ty, n, acc := o.acc, parts := (List.range rows).map fun r => (base + o.row regs r, runBytes ty n) }

def vRows (d : Nat) : Nat := fld d 431 416
def vCols (d : Nat) : Nat := fld d 452 432
def vShape (d : Nat) : Nat := fld d 411 410
/-- Elements in a result row: one for a reduction. -/
def vOut (d : Nat) : Nat := if vopReduces (dVop d) then 1 else vCols d

/-- The operands that are read, and the result's rows. -/
def vecA (d : Nat) (regs : List Nat) : Rows := vecRows d 192 (fld d 399 396) (vRows d) (vCols d) regs
def vecB (d : Nat) (regs : List Nat) : Option Rows :=
  if vopUsesB (dVop d) && vShape d != 3 then
    some (vecRows d 256 (fld d 403 400) (if vShape d = 1 then 1 else vRows d) (if vShape d = 2 then 1 else vCols d) regs)
  else none
def vecC (d : Nat) (regs : List Nat) : Option Rows :=
  if vopUsesC (dVop d) then some (vecRows d 320 (fld d 407 404) (vRows d) (vCols d) regs) else none
def vecD (d : Nat) (regs : List Nat) : Rows := vecRows d 128 (fld d 395 392) (vRows d) (vOut d) regs

/-- Run-time checks of an operand: the scratchpad's size, or a bank's alignment and size (R223). -/
def rowsFault (decode : Bool) (d lo : Nat) (regs : List Nat) (x : Rows) : Option (Nat × Nat) :=
  if x.acc then
    let o := vecOp d lo
    (List.range x.parts.length).foldl (fun f r =>
      match f with
      | some e => some e
      | none =>
        let y := o.row regs r
        if y % 4 != 0 then some (0x05, y) else if 65536 < y + 4 * x.n then some (0x06, y) else none) none
  else spFault (spBytes decode) x.parts

/-- Bytes of the scratchpad or of the banks, and the poison of a range. -/
def State.opNat (s : State) (a : At) (acc : Bool) (x n : Nat) : Nat := if acc then s.accNat a x n else s.spNat a x n
def State.opBad (s : State) (a : At) (acc : Bool) (x n : Nat) : Bool := if acc then s.accBad a x n else s.spBad a x n

/-- Row `r` of an operand: its elements widened to FP32, each with its poison (R226, R230). -/
def State.vecRow (s : State) (a : At) (x : Rows) (r : Nat) : List (FV × Bool) :=
  let (y, len) := x.parts.getD r (0, 0)
  let run := s.opNat a x.acc y len
  let b := elemBits x.ty
  (List.range x.n).map fun i =>
    let sc := ceilDiv (x.n * b) 8 + i / 32
    (rne (runElem x.ty x.n run i),
     s.opBad a x.acc (y + b * i / 8) ((b * i + b - 1) / 8 + 1 - b * i / 8) || (isMx x.ty && s.opBad a x.acc (y + sc) 1))

/-- MX blocks with a NaN scale in an operand (05 R164). -/
def State.vecNan (s : State) (a : At) (x : Rows) : Nat :=
  (x.parts.map fun (y, len) => nanBlocks x.ty x.n (s.opNat a x.acc y len)).foldl (· + ·) 0

/-! ## Operations (R225) -/

/-- 1/√x, one of the values within 1 ulp (05 R173). -/
def rsqrt32 (x : FV) : FV :=
  let l := rsqrtCands x
  dec32 (l.getD (Config.rsqrtPick (enc32 x) % l.length) 0)

/-- The elementwise operation of a `vop`, rounded to FP32. -/
def vopElem (v : Nat) (a b c : FV) : FV :=
  match v with
  | 0x01 => rne (FV.add a b)
  | 0x02 => rne (FV.add a b.neg)
  | 0x03 => rne (FV.mul a b)
  | 0x04 => rne (FV.add (FV.mul a b) c)
  | 0x05 => FV.max a b
  | 0x06 => FV.min a b
  | 0x07 => if FV.lt b a then FV.one else FV.zero
  | 0x08 => if c.isZero then b else a
  | 0x0A => dec32 (exp32 a)
  | 0x0B => dec32 (recip32 a)
  | 0x0C => rsqrt32 a
  | 0x12 => rne (FV.mul a b)
  | _ => a

/-- A row's reduction: ROWSUM in the partition's mode, or ROWMAX. -/
def vopRow (v : Nat) (det : Bool) (pick : Nat → Nat) (xs : List FV) : FV :=
  if v = 0x10 then (if det then rowSumDet (xs.length / 256 + 1) xs FV.zero else sumAny pick xs.length xs)
  else match xs with
    | [] => FV.zero
    | x :: r => r.foldl FV.max x

/-! ## Results (05 R170, R171) -/

/-- A result row as bits of its type, with the poison of each byte; a nibble that no element fills is `pad`. -/
def rowOut (t : Nat) (rtz toInf : Bool) (pad : Nat) (xs : List (FV × Bool)) : List Byte × List Bool :=
  let n := xs.length
  let b := elemBits t
  let bytes := ceilDiv (n * b) 8
  if isMx t then
    let blocks := (List.range (n / 32)).map fun j => (xs.drop (32 * j)).take 32
    let enc := blocks.map fun l => (encMxBlock t rtz toInf (l.map (·.1)), l.any (·.2))
    let v := pack (enc.flatMap fun e => e.1.2.map fun x => (b, x))
    (toLE bytes v ++ enc.map (fun e => BitVec.ofNat 8 e.1.1),
     (List.range bytes).map (fun i => (enc.getD (8 * i / (32 * b)) ((0, []), false)).2) ++ enc.map (·.2))
  else
    let one (x : FV) : Nat :=
      if t = 6 then encInt 8 rtz x else if t = 7 then encInt 4 rtz x else if t = 8 then encIeee 8 7 rtz x
      else if t = 9 then encIeee 5 10 rtz x else enc32 x
    let v := pack (xs.map (fun e => (b, one e.1)) ++ [(bytes * 8 - n * b, pad)])
    (toLE bytes v, (List.range bytes).map fun i => (List.range n).any fun k => b * k < 8 * i + 8 && 8 * i < b * k + b && (xs.getD k (.nan, false)).2)

/-- A row of bytes written to scratchpad, words with a poisoned byte poisoned. -/
def State.putRow (s : State) (a : At) (x : Nat) (bs : List Byte) (bad : List Bool) : State :=
  let s := s.spWrite a x bs false
  if bad.any id then
    { s with spPoison := (bad.zipIdx).foldl (fun q (p, i) => if p then NSet.add q (s.spKey a (x + i) / 8) else q) s.spPoison }
  else s

/-- Result row `r` computed. -/
def State.vecOut (s : State) (a : At) (regs : List Nat) (r : Nat) : List (FV × Bool) :=
  let d := a.d
  let v := dVop d
  let xa := s.vecRow a (vecA d regs) r
  let xb : List (FV × Bool) :=
    match vecB d regs with
    | none => List.replicate (vCols d) (dec32 (fld d 511 480), false)
    | some o => if vShape d = 2 then List.replicate (vCols d) ((s.vecRow a o r).getD 0 (.nan, false)) else s.vecRow a o (if vShape d = 1 then 0 else r)
  let xc : List (FV × Bool) :=
    match vecC d regs with
    | none => List.replicate (vCols d) (FV.zero, false)
    | some o => s.vecRow a o r
  if vopReduces v then
    [(vopRow v (s.part (a.id / 8)).det (fun i => Config.fastPick (s.free + r * 2097152 + i)) (xa.map (·.1)), xa.any (·.2))]
  else
    (xa.zip (xb.zip xc)).map fun (x, y, z) => (vopElem v x.1 y.1 z.1, x.2 || (vopUsesB v && y.2) || (vopUsesC v && z.2))

/-! ## VECTOR -/

/-- Pieces of an operand read. -/
def rdAcc (x : Rows) : Acc := ⟨false, x.acc, x.parts⟩

/-- The bytes of `dst` that overlap an operand without coinciding with it (R226). -/
def partOverlap (dst : Rows) (xs : List Rows) : List (Nat × Nat) :=
  xs.flatMap fun x => if x.acc || x.parts == dst.parts then [] else meet dst.parts x.parts

/-- A VECTOR descriptor other than WARD. -/
def State.vector (s : State) (a : At) : State :=
  let d := a.d
  let regs := (s.engOf a).regs
  let dec := s.isDecode a
  let xa := vecA d regs
  let ins := xa :: (vecB d regs).toList ++ (vecC d regs).toList
  let dst := vecD d regs
  let fault := firstFault
    ([rowsFault dec d 192 regs xa] ++ ((vecB d regs).toList.map (rowsFault dec d 256 regs)) ++
      ((vecC d regs).toList.map (rowsFault dec d 320 regs)) ++ [rowsFault dec d 128 regs dst])
  let clears : Bool := dVop d == 0x12 && bitAt d 412
  let xs := ins.map rdAcc ++ [⟨true, false, dst.parts⟩] ++ (if clears then [⟨true, true, xa.parts⟩] else [])
  s.runDesc a fault xs fun s =>
    let out := (List.range (vRows d)).map (s.vecOut a regs)
    let nan := (ins.map (s.vecNan a)).foldl (· + ·) 0
    let s := (s.bumpStat (s.coreNo a) stNanScale nan).bump kNanScale nan
    let s := if vopReduces (dVop d) && !(s.part (a.id / 8)).det then { s with free := s.free + vRows d * 2097152 } else s
    let s := if clears then xa.parts.foldl (fun s p => s.accWrite a p.1 (List.replicate p.2 0) false) s else s
    let s := out.zipIdx.foldl (fun (s : State) (row, r) =>
      let b := rowOut dst.ty (bitAt d 408) (bitAt d 409) (Config.freeNat s.free) row
      let s := if dst.ty = 7 ∧ row.length % 2 = 1 then s.nextFree else s
      s.putRow a (dst.parts.getD r (0, 0)).1 b.1 b.2) s
    s.scramble a false (partOverlap dst ins)

/-- The descriptor is a VECTOR of a `vop`. -/
def isVop (v : Nat) (d : Nat) : Bool := dOp d == opVector && dVop d == v

def execVopAdd (e : EngAt) (d : Desc) (s : State) : Res := onEngine e d (isVop 0x01) (fun a s => s.vector a) s
def execVopSub (e : EngAt) (d : Desc) (s : State) : Res := onEngine e d (isVop 0x02) (fun a s => s.vector a) s
def execVopMul (e : EngAt) (d : Desc) (s : State) : Res := onEngine e d (isVop 0x03) (fun a s => s.vector a) s
def execVopFma (e : EngAt) (d : Desc) (s : State) : Res := onEngine e d (isVop 0x04) (fun a s => s.vector a) s
def execVopMax (e : EngAt) (d : Desc) (s : State) : Res := onEngine e d (isVop 0x05) (fun a s => s.vector a) s
def execVopMin (e : EngAt) (d : Desc) (s : State) : Res := onEngine e d (isVop 0x06) (fun a s => s.vector a) s
def execCmpgt (e : EngAt) (d : Desc) (s : State) : Res := onEngine e d (isVop 0x07) (fun a s => s.vector a) s
def execSelect (e : EngAt) (d : Desc) (s : State) : Res := onEngine e d (isVop 0x08) (fun a s => s.vector a) s
def execConvert (e : EngAt) (d : Desc) (s : State) : Res := onEngine e d (isVop 0x09) (fun a s => s.vector a) s
def execExp (e : EngAt) (d : Desc) (s : State) : Res := onEngine e d (isVop 0x0A) (fun a s => s.vector a) s
def execRecip (e : EngAt) (d : Desc) (s : State) : Res := onEngine e d (isVop 0x0B) (fun a s => s.vector a) s
def execRsqrt (e : EngAt) (d : Desc) (s : State) : Res := onEngine e d (isVop 0x0C) (fun a s => s.vector a) s
def execRowsum (e : EngAt) (d : Desc) (s : State) : Res := onEngine e d (isVop 0x10) (fun a s => s.vector a) s
def execRowmax (e : EngAt) (d : Desc) (s : State) : Res := onEngine e d (isVop 0x11) (fun a s => s.vector a) s
def execDrain (e : EngAt) (d : Desc) (s : State) : Res := onEngine e d (isVop 0x12) (fun a s => s.vector a) s

end Sys2Proof.Machine
end

