-- ==== Sys2Proof/Machine/Ward.lean ====
section
/-! DEFINITION. The Ward unit: sampling blocks, masks, the draw, the generator and its results (09 R295 to R309). -/

namespace Sys2Proof.Machine

/-! ## Grammar reads (09 R304 to R309) -/

/-- The HBM bytes of a grammar read: an offset from its base and a length. -/
abbrev GrmRead := Nat × Nat

/-- Some line of a read is poisoned. -/
def State.grmBad (s : State) (base : Nat) (r : GrmRead) : Bool :=
  r.2 != 0 && (List.range ((base + r.1 + r.2 - 1) / 128 + 1 - (base + r.1) / 128)).any fun i => s.poisonAt ((base + r.1) / 128 + i)
def State.grmNat (s : State) (base off n : Nat) : Nat := leNat (s.hbmRead (base + off) n)

/-- Offset of the record of a state, and the record. -/
def State.grmOff (s : State) (base st : Nat) : Nat := s.grmNat base 32 8 + 32 * st
def State.grmRec (s : State) (base st : Nat) : Nat := s.grmNat base (s.grmOff base st) 32

/-- Tokens below `vocab` that a state record allows, ascending (R307). -/
def State.grmAllowed (s : State) (base vocab v : Nat) : List Nat :=
  let off := fld v 103 64
  match fld v 1 0 with
  | 0 => List.range vocab
  | 1 => (List.range vocab).filter fun t => s.grmNat base (off + t / 8) 1 / 2 ^ (t % 8) % 2 == 1
  | _ => (List.range (fld v 50 32)).map fun i => fld (s.grmNat base (off + 4 * i) 4) 17 0

/-- State after a token (R309). -/
def State.grmNext (s : State) (base v token : Nat) : Nat :=
  let tr := (List.range (fld v 146 128)).map fun i => s.grmNat base (fld v 199 160 + 8 * i) 8
  match tr.find? fun x => fld x 17 0 == token with
  | some x => fld x 51 32
  | none => fld v 27 8

/-! ## The draw (09 R300, R301) -/

/-- Word 0 of G(seed, position). -/
def wardWord (seed position : Nat) : Nat :=
  let key := toLE 8 seed ++ [0x57, 0x41, 0x52, 0x44, 0x47, 0x45, 0x4E, 0x31].map (BitVec.ofNat 8)
  leNat ((aes128 key (toLE 8 position ++ List.replicate 8 0)).take 4)

/-- A candidate put in its place among the first `k`, by value descending, earlier ones first among equals. -/
def wardIn (k : Nat) (e : Nat × FV) : List (Nat × FV) → List (Nat × FV)
  | [] => [e]
  | f :: fs => if FV.lt f.2 e.2 then e :: f :: fs else f :: wardIn k e fs
def wardTop (k : Nat) (l : List (Nat × FV)) : List (Nat × FV) := l.foldl (fun t e => (wardIn k e t).take k) []

/-- Running sums, each rounded. -/
def wardSums (acc : FV) : List FV → List FV
  | [] => []
  | e :: es => let c := rne (FV.add acc e); c :: wardSums c es

/-- First index at or above `lo` whose value satisfies a test. -/
def firstIx (p : FV → Bool) (l : List FV) (lo : Nat) : Option Nat := (List.range l.length).find? fun i => lo ≤ i && p (l.getD i .nan)

/-- What a row's draw comes to. -/
structure Draw where
  token : Nat := 0
  candidates : Nat := 0
  kept : Nat := 0
  /-- Logits skipped as NaN. -/
  nan : Nat := 0
  /-- The first entry of S is +∞. -/
  inf : Bool := false
  deriving DecidableEq, Repr

/-- The procedure of R300 on the allowed tokens and their logits; no token is kept where the candidate list is empty. -/
def wardDraw (temperature topP minP topK seed position : Nat) (logits : List (Nat × FV)) : Draw :=
  let rinv := dec32 (recip32 (dec32 temperature))
  let ys := (logits.filter fun l => l.2 != .nan).map fun l => (l.1, rne (FV.mul l.2 rinv))
  let cs := ys.filter fun y => y.2 != .inf true
  let nan := logits.length - ys.length
  match wardTop topK cs with
  | [] => { nan }
  | top :: more =>
    let sList := top :: more
    let inf : Bool := top.2 == .inf false
    let es := sList.map fun x =>
      if inf then (if x.2 = .inf false then FV.one else FV.zero) else dec32 (exp32 (rne (FV.add x.2 top.2.neg)))
    let c := match es with | e :: r => e :: wardSums e r | [] => []
    let thr := rne (FV.mul (dec32 topP) (c.getLastD FV.zero))
    let n := 1 + (firstIx (fun v => !FV.lt v thr) c 0).getD (c.length - 1)
    let n := match firstIx (fun v => FV.lt v (dec32 minP)) es 1 with | some i => if i < n then i else n | none => n
    let r := fld (wardWord seed position) 31 8
    let target := rne (FV.mul (.fin false r (-24)) (c.getD (n - 1) FV.zero))
    let j := match firstIx (fun v => FV.lt target v) c 0 with | some i => min i (n - 1) | none => n - 1
    { token := (sList.getD j (0, .nan)).1, candidates := cs.length, kept := n, nan, inf }

/-! ## WARD (09 R295 to R298, R302) -/

/-- Contexts whose sampling blocks a WARD descriptor of a context may address: those of the item in progress. -/
def ProgCtx.itemSeqs (x : ProgCtx) : List Nat := match x.items.head? with | some w => if w.kind = 2 then w.seqs else [] | none => []

/-- The result fields of a sampling block, bytes 44 to 63. -/
def sampResult (next : Nat) (fin : Bool) (status kept candidates : Nat) : List Byte :=
  toLE 20 (pack [(20, next), (1, b2n fin), (1, 1), (10, 0), (16, status), (11, kept), (5, 0), (19, candidates)])

/-- One row: logits at `x`, sampling block at a place of the firmware reserve, result word at `y`. -/
def State.wardRow (s : State) (a : At) (x y place cols : Nat) (addrBad : Bool) : State :=
  let b := leNat (Mem.readN s.fw place 64)
  let vocab := fld b 242 224
  let base := fld b 319 256
  let st := fld b 339 320
  let v := if base = 0 then 0 else s.grmRec base st
  let allowed := if base = 0 then List.range vocab else s.grmAllowed base vocab v
  let short := cols < vocab
  let logits := if short then [] else allowed.map fun t => (t, dec32 (s.spNat a (x + 4 * t) 4))
  let d := wardDraw (fld b 31 0) (fld b 63 32) (fld b 95 64) (fld b 106 96) (fld b 191 128) (fld b 212 192) logits
  let next := if base = 0 then 0 else s.grmNext base v d.token
  let reads : List GrmRead := if base = 0 then [] else
    [(32, 8), (s.grmOff base st, 32), (fld v 103 64, maskBytes vocab v), (fld v 199 160, 8 * fld v 146 128), (s.grmOff base next, 32)]
  let bad := short || addrBad || (allowed.any fun t => s.spBad a (x + 4 * t) 4) ||
    s.poisonAt ((s.idn.fwAt + place) / 128) || reads.any (s.grmBad base)
  let s := (s.bump kWardRows).bump kWardNan (if bad then 0 else d.nan)
  if bad then
    let s := s.fwWrite (place + 44) (sampResult st false sCoreFault 0 (s.freeVal % 262145))
    s.nextFree.spWrite a y (toLE 8 (pack [(32, 0), (16, sCoreFault)])) false
  else if d.kept = 0 then
    ((s.bump kWardEmpty).fwWrite (place + 44) (sampResult st false sMaskEmpty 0 0)).spWrite a y (toLE 8 (pack [(32, 0), (16, sMaskEmpty)])) false
  else
    let s := if d.inf then s.bump kWardInf else s
    let fin : Bool := base != 0 && bitAt (s.grmRec base next) 2
    (s.fwWrite (place + 44) (sampResult next fin sOK d.kept d.candidates)).spWrite a y
      (toLE 8 (pack [(18, d.token), (1, 1), (1, b2n fin), (12, 0), (16, sOK)])) false

/-- A WARD descriptor. -/
def State.ward (s : State) (a : At) : State :=
  let d := a.d
  let regs := (s.engOf a).regs
  let cols := fld d 452 432
  let rows := List.range (fld d 431 416)
  let size := spBytes (s.isDecode a)
  let x (r : Nat) : Nat := (vecOp d 192).row regs r
  let b (r : Nat) : Nat := (vecOp d 256).row regs r
  let y (r : Nat) : Nat := (vecOp d 128).row regs r
  let addr (r : Nat) : Nat := s.spNat a (b r) 8
  let seqs := (s.pc a.id).itemSeqs
  let place (r : Nat) : Option Nat := (seqs.map sampPlace).find? fun p => s.fwAddr p == addr r
  let vocab (r : Nat) : Nat := match place r with | some p => fld (leNat (Mem.readN s.fw p 64)) 242 224 | none => 0
  let logits (r : Nat) : Nat := if cols < vocab r then 0 else 4 * vocab r
  let un (v n : Nat) : Option (Nat × Nat) := if v % n = 0 then none else some (0x05, v)
  let fault := firstFault (rows.flatMap fun r =>
    [un (x r) 4, un (b r) 8, un (y r) 8, spFault size [(b r, 8)], if (place r).isNone then some (0x03, addr r) else none,
     spFault size [(x r, logits r)], spFault size [(y r, 8)]])
  let xs : List Acc := [⟨false, false, rows.flatMap fun r => [(x r, logits r), (b r, 8)]⟩, ⟨true, false, rows.map fun r => (y r, 8)⟩]
  s.runDesc a fault xs fun s => rows.foldl (fun s r => s.wardRow a (x r) (y r) ((place r).getD 0) cols (s.spBad a (b r) 8)) s

def execWard (e : EngAt) (d : Desc) (s : State) : Res := onEngine e d (isVop 0x20) (fun a s => s.ward a) s

end Sys2Proof.Machine
end

