-- ==== Sys2Proof/Machine/Dispatch.lean ====
section
/-! DEFINITION. One arm for each command: its meaning. -/

namespace Sys2Proof.Machine

def exec (i : Instr) (s : State) : Host.Outcome State Fault Refusal :=
  match i with
  | .nop p => Sys2Proof.Machine.execNop p s
  | .createRing p => Sys2Proof.Machine.execCreateRing p s
  | .deleteRing p => Sys2Proof.Machine.execDeleteRing p s
  | .configGet p => Sys2Proof.Machine.execConfigGet p s
  | .configSet p => Sys2Proof.Machine.execConfigSet p s
  | .setPowerMode p => Sys2Proof.Machine.execSetPowerMode p s
  | .getCapabilities p => Sys2Proof.Machine.execGetCapabilities p s
  | .sampleCounters p => Sys2Proof.Machine.execSampleCounters p s
  | .admitRequest p => Sys2Proof.Machine.execAdmitRequest p s
  | .cancel p => Sys2Proof.Machine.execCancel p s
  | .pause p => Sys2Proof.Machine.execPause p s
  | .resume p => Sys2Proof.Machine.execResume p s
  | .queryRequest p => Sys2Proof.Machine.execQueryRequest p s
  | .releaseContext p => Sys2Proof.Machine.execReleaseContext p s
  | .moveState p => Sys2Proof.Machine.execMoveState p s
  | .fetchPrefix p => Sys2Proof.Machine.execFetchPrefix p s
  | .sealPrefix p => Sys2Proof.Machine.execSealPrefix p s
  | .queryLatch p => Sys2Proof.Machine.execQueryLatch p s
  | .setMirror p => Sys2Proof.Machine.execSetMirror p s
  | .loadImage p => Sys2Proof.Machine.execLoadImage p s
  | .unloadImage p => Sys2Proof.Machine.execUnloadImage p s
  | .launchProgram p => Sys2Proof.Machine.execLaunchProgram p s
  | .readCoreStats p => Sys2Proof.Machine.execReadCoreStats p s
  | .loadModel p => Sys2Proof.Machine.execLoadModel p s
  | .unloadModel p => Sys2Proof.Machine.execUnloadModel p s
  | .readAttnCounters p => Sys2Proof.Machine.execReadAttnCounters p s
  | .loadDelta p => Sys2Proof.Machine.execLoadDelta p s
  | .replaceDelta p => Sys2Proof.Machine.execReplaceDelta p s
  | .unloadDelta p => Sys2Proof.Machine.execUnloadDelta p s
  | .readExpanderStats p => Sys2Proof.Machine.execReadExpanderStats p s
  | .loadGrammar p => Sys2Proof.Machine.execLoadGrammar p s
  | .unloadGrammar p => Sys2Proof.Machine.execUnloadGrammar p s
  | .createPartition p => Sys2Proof.Machine.execCreatePartition p s
  | .destroyPartition p => Sys2Proof.Machine.execDestroyPartition p s
  | .bindImage p => Sys2Proof.Machine.execBindImage p s
  | .unbindImage p => Sys2Proof.Machine.execUnbindImage p s
  | .grantExtent p => Sys2Proof.Machine.execGrantExtent p s
  | .revokeExtent p => Sys2Proof.Machine.execRevokeExtent p s
  | .setQuota p => Sys2Proof.Machine.execSetQuota p s
  | .queryQuota p => Sys2Proof.Machine.execQueryQuota p s
  | .flushRange p => Sys2Proof.Machine.execFlushRange p s
  | .acquireRange p => Sys2Proof.Machine.execAcquireRange p s
  | .publish p => Sys2Proof.Machine.execPublish p s
  | .queryNode p => Sys2Proof.Machine.execQueryNode p s
  | .portEnable p => Sys2Proof.Machine.execPortEnable p s
  | .portDisable p => Sys2Proof.Machine.execPortDisable p s
  | .portRetrain p => Sys2Proof.Machine.execPortRetrain p s
  | .portDrain p => Sys2Proof.Machine.execPortDrain p s
  | .portRestore p => Sys2Proof.Machine.execPortRestore p s
  | .portStatus p => Sys2Proof.Machine.execPortStatus p s
  | .openReduce p => Sys2Proof.Machine.execOpenReduce p s
  | .collectiveClose p => Sys2Proof.Machine.execCollectiveClose p s
  | .runGather p => Sys2Proof.Machine.execRunGather p s
  | .runFilter p => Sys2Proof.Machine.execRunFilter p s
  | .setShaper p => Sys2Proof.Machine.execSetShaper p s
  | .stageGateList p => Sys2Proof.Machine.execStageGateList p s
  | .gateListCancel p => Sys2Proof.Machine.execGateListCancel p s
  | .readGateList p => Sys2Proof.Machine.execReadGateList p s
  | .samplingQueue p => Sys2Proof.Machine.execSamplingQueue p s
  | .samplingRing p => Sys2Proof.Machine.execSamplingRing p s
  | .createTable p => Sys2Proof.Machine.execCreateTable p s
  | .destroyTable p => Sys2Proof.Machine.execDestroyTable p s
  | .insertEntry p => Sys2Proof.Machine.execInsertEntry p s
  | .updateEntry p => Sys2Proof.Machine.execUpdateEntry p s
  | .deleteEntry p => Sys2Proof.Machine.execDeleteEntry p s
  | .search p => Sys2Proof.Machine.execSearch p s
  | .swapShadow p => Sys2Proof.Machine.execSwapShadow p s
  | .getEvidence p => Sys2Proof.Machine.execGetEvidence p s
  | .getCertificates p => Sys2Proof.Machine.execGetCertificates p s
  | .stageManifest p => Sys2Proof.Machine.execStageManifest p s
  | .readEventLog p => Sys2Proof.Machine.execReadEventLog p s
  | .serviceDrain p => Sys2Proof.Machine.execServiceDrain p s
  | .fabricBoot p => Sys2Proof.Machine.execFabricBoot p s
  | .enterLowPower p => Sys2Proof.Machine.execEnterLowPower p s
  | .hostIfEnable width value => Sys2Proof.Machine.execHostIfEnable width value s
  | .hostIfDisable width value => Sys2Proof.Machine.execHostIfDisable width value s
  | .hostIfReady => Sys2Proof.Machine.execHostIfReady s
  | .teardownComplete => Sys2Proof.Machine.execTeardownComplete s
  | .registerWrite bar offset width value => Sys2Proof.Machine.execRegisterWrite bar offset width value s
  | .submissionDoorbell ring width value => Sys2Proof.Machine.execSubmissionDoorbell ring width value s
  | .completionDoorbell ring width value => Sys2Proof.Machine.execCompletionDoorbell ring width value s
  | .outputDoorbell ring width value => Sys2Proof.Machine.execOutputDoorbell ring width value s
  | .bar2Access write offset len data => Sys2Proof.Machine.execBar2Access write offset len data s
  | .hostLinkDown => Sys2Proof.Machine.execHostLinkDown s
  | .hotReset => Sys2Proof.Machine.execHotReset s
  | .d3hotEntry => Sys2Proof.Machine.execD3hotEntry s
  | .commandTimeout cmd => Sys2Proof.Machine.execCommandTimeout cmd s
  | .irqDelayExpiry out ring => Sys2Proof.Machine.execIrqDelayExpiry out ring s
  | .heldTokenWrite ctx => Sys2Proof.Machine.execHeldTokenWrite ctx s
  | .powerWindow m => Sys2Proof.Machine.execPowerWindow m s
  | .pmbusPoll rail vout iout => Sys2Proof.Machine.execPmbusPoll rail vout iout s
  | .pmbAlert status sense => Sys2Proof.Machine.execPmbAlert status sense s
  | .timingMonitorReport cdNeed fdNeed => Sys2Proof.Machine.execTimingMonitorReport cdNeed fdNeed s
  | .dieOvertempTrip die temp => Sys2Proof.Machine.execDieOvertempTrip die temp s
  | .prochotAssert => Sys2Proof.Machine.execProchotAssert s
  | .prochotDeassert => Sys2Proof.Machine.execProchotDeassert s
  | .sysPwrokRise => Sys2Proof.Machine.execSysPwrokRise s
  | .sysPwrokFall => Sys2Proof.Machine.execSysPwrokFall s
  | .stage1Start => Sys2Proof.Machine.execStage1Start s
  | .firmwareImagesChecked => Sys2Proof.Machine.execFirmwareImagesChecked s
  | .hbmTrainingComplete failed => Sys2Proof.Machine.execHbmTrainingComplete failed s
  | .subtreeGenerated => Sys2Proof.Machine.execSubtreeGenerated s
  | .flashReq => Sys2Proof.Machine.execFlashReq s
  | .flashRelease => Sys2Proof.Machine.execFlashRelease s
  | .buttonPress b => Sys2Proof.Machine.execButtonPress b s
  | .abortWindowExpiry b => Sys2Proof.Machine.execAbortWindowExpiry b s
  | .drivePresenceChange d present capacity => Sys2Proof.Machine.execDrivePresenceChange d present capacity s
  | .driveFailure d => Sys2Proof.Machine.execDriveFailure d s
  | .driveIoComplete op ok data => Sys2Proof.Machine.execDriveIoComplete op ok data s
  | .tierTimeout op => Sys2Proof.Machine.execTierTimeout op s
  | .driveDrainComplete d => Sys2Proof.Machine.execDriveDrainComplete d s
  | .linkTrained l => Sys2Proof.Machine.execLinkTrained l s
  | .ident l m => Sys2Proof.Machine.execIdent l m s
  | .flitReceive l f symErrs => Sys2Proof.Machine.execFlitReceive l f symErrs s
  | .replayTimerExpiry l => Sys2Proof.Machine.execReplayTimerExpiry l s
  | .laneSignalLoss l lane => Sys2Proof.Machine.execLaneSignalLoss l lane s
  | .retrainComplete l => Sys2Proof.Machine.execRetrainComplete l s
  | .retrainTimeout l => Sys2Proof.Machine.execRetrainTimeout l s
  | .portDrainEnd l => Sys2Proof.Machine.execPortDrainEnd l s
  | .packetStart l => Sys2Proof.Machine.execPacketStart l s
  | .shaperRefill l q => Sys2Proof.Machine.execShaperRefill l q s
  | .gateEntryAdvance l => Sys2Proof.Machine.execGateEntryAdvance l s
  | .gateAdopt l => Sys2Proof.Machine.execGateAdopt l s
  | .packetForward l p => Sys2Proof.Machine.execPacketForward l p s
  | .read l p => Sys2Proof.Machine.execRead l p s
  | .write l p => Sys2Proof.Machine.execWrite l p s
  | .atomic l p => Sys2Proof.Machine.execAtomic l p s
  | .readData l p => Sys2Proof.Machine.execReadData l p s
  | .ack l p => Sys2Proof.Machine.execAck l p s
  | .nack l p => Sys2Proof.Machine.execNack l p s
  | .atomicData l p => Sys2Proof.Machine.execAtomicData l p s
  | .pendingRsp l p => Sys2Proof.Machine.execPendingRsp l p s
  | .publishPacket l p => Sys2Proof.Machine.execPublishPacket l p s
  | .publishResp l p => Sys2Proof.Machine.execPublishResp l p s
  | .versionRead l p => Sys2Proof.Machine.execVersionRead l p s
  | .versionData l p => Sys2Proof.Machine.execVersionData l p s
  | .fabricTxnTimeout txn => Sys2Proof.Machine.execFabricTxnTimeout txn s
  | .twinInvalidate addr => Sys2Proof.Machine.execTwinInvalidate addr s
  | .collLineTimeout eng sess line => Sys2Proof.Machine.execCollLineTimeout eng sess line s
  | .regionOpening h f model delta grammar age srcHandle move src rows mirror => Sys2Proof.Machine.execRegionOpening h f model delta grammar age srcHandle move src rows mirror s
  | .openingResponse h ok status handle base rows => Sys2Proof.Machine.execOpeningResponse h ok status handle base rows s
  | .prepare h m age stamp moves => Sys2Proof.Machine.execPrepare h m age stamp moves s
  | .ready h destHandle => Sys2Proof.Machine.execReady h destHandle s
  | .commit h age => Sys2Proof.Machine.execCommit h age s
  | .commitAck h => Sys2Proof.Machine.execCommitAck h s
  | .refuse h status => Sys2Proof.Machine.execRefuse h status s
  | .abandon h status => Sys2Proof.Machine.execAbandon h status s
  | .abandonAck h => Sys2Proof.Machine.execAbandonAck h s
  | .withdraw h => Sys2Proof.Machine.execWithdraw h s
  | .redirect h node handle => Sys2Proof.Machine.execRedirect h node handle s
  | .sourceQuery h twin => Sys2Proof.Machine.execSourceQuery h twin s
  | .moveStateBoundExpiry cmd => Sys2Proof.Machine.execMoveStateBoundExpiry cmd s
  | .prefixLookup ctx => Sys2Proof.Machine.execPrefixLookup ctx s
  | .prefixFetchComplete ctx ok obj => Sys2Proof.Machine.execPrefixFetchComplete ctx ok obj s
  | .layerPushStart ctx layer => Sys2Proof.Machine.execLayerPushStart ctx layer s
  | .workItemWrite pc kind seqs firstLayer layerCount => Sys2Proof.Machine.execWorkItemWrite pc kind seqs firstLayer layerCount s
  | .prefillLayerDone pc => Sys2Proof.Machine.execPrefillLayerDone pc s
  | .stepCommit part => Sys2Proof.Machine.execStepCommit part s
  | .deadlinePass ctx => Sys2Proof.Machine.execDeadlinePass ctx s
  | .demoteCheck => Sys2Proof.Machine.execDemoteCheck s
  | .demotionCommit ctx => Sys2Proof.Machine.execDemotionCommit ctx s
  | .recallCommit ctx => Sys2Proof.Machine.execRecallCommit ctx s
  | .recallTimeout ctx => Sys2Proof.Machine.execRecallTimeout ctx s
  | .ctxRetainExpiry ctx => Sys2Proof.Machine.execCtxRetainExpiry ctx s
  | .fwdRecordCheck => Sys2Proof.Machine.execFwdRecordCheck s
  | .mirrorScrub twins => Sys2Proof.Machine.execMirrorScrub twins s
  | .twinLinkFail => Sys2Proof.Machine.execTwinLinkFail s
  | .twinLinkReturn twins => Sys2Proof.Machine.execTwinLinkReturn twins s
  | .extentDrainEnd tier ext => Sys2Proof.Machine.execExtentDrainEnd tier ext s
  | .extentDrainTimeout tier ext => Sys2Proof.Machine.execExtentDrainTimeout tier ext s
  | .scrubComplete tier ext => Sys2Proof.Machine.execScrubComplete tier ext s
  | .descNop e d => Sys2Proof.Machine.execDescNop e d s
  | .set e d => Sys2Proof.Machine.execSet e d s
  | .add e d => Sys2Proof.Machine.execAdd e d s
  | .mul e d => Sys2Proof.Machine.execMul e d s
  | .ldreg e d => Sys2Proof.Machine.execLdreg e d s
  | .loop e d => Sys2Proof.Machine.execLoop e d s
  | .halt e d => Sys2Proof.Machine.execHalt e d s
  | .load e d => Sys2Proof.Machine.execLoad e d s
  | .gather e d => Sys2Proof.Machine.execGather e d s
  | .store e d => Sys2Proof.Machine.execStore e d s
  | .scatter e d => Sys2Proof.Machine.execScatter e d s
  | .descAtomic e d => Sys2Proof.Machine.execDescAtomic e d s
  | .matmul e d => Sys2Proof.Machine.execMatmul e d s
  | .vopAdd e d => Sys2Proof.Machine.execVopAdd e d s
  | .vopSub e d => Sys2Proof.Machine.execVopSub e d s
  | .vopMul e d => Sys2Proof.Machine.execVopMul e d s
  | .vopFma e d => Sys2Proof.Machine.execVopFma e d s
  | .vopMax e d => Sys2Proof.Machine.execVopMax e d s
  | .vopMin e d => Sys2Proof.Machine.execVopMin e d s
  | .cmpgt e d => Sys2Proof.Machine.execCmpgt e d s
  | .select e d => Sys2Proof.Machine.execSelect e d s
  | .convert e d => Sys2Proof.Machine.execConvert e d s
  | .exp e d => Sys2Proof.Machine.execExp e d s
  | .recip e d => Sys2Proof.Machine.execRecip e d s
  | .rsqrt e d => Sys2Proof.Machine.execRsqrt e d s
  | .rowsum e d => Sys2Proof.Machine.execRowsum e d s
  | .rowmax e d => Sys2Proof.Machine.execRowmax e d s
  | .drain e d => Sys2Proof.Machine.execDrain e d s
  | .ward e d => Sys2Proof.Machine.execWard e d s
  | .engineQueueTimeout e => Sys2Proof.Machine.execEngineQueueTimeout e s
  | .sliceEnd part decode => Sys2Proof.Machine.execSliceEnd part decode s
  | .yieldRequest part decode => Sys2Proof.Machine.execYieldRequest part decode s
  | .contextStopped part decode => Sys2Proof.Machine.execContextStopped part decode s
  | .preemptBoundExpiry part decode => Sys2Proof.Machine.execPreemptBoundExpiry part decode s
  | .saveComplete part decode => Sys2Proof.Machine.execSaveComplete part decode s
  | .restoreComplete part decode => Sys2Proof.Machine.execRestoreComplete part decode s
  | .tumblerIdleCycle die => Sys2Proof.Machine.execTumblerIdleCycle die s
  | .insertTimeout cmd => Sys2Proof.Machine.execInsertTimeout cmd s
  | .cascadeToken tok crcOk => Sys2Proof.Machine.execCascadeToken tok crcOk s
  | .cascadeTimeout seq => Sys2Proof.Machine.execCascadeTimeout seq s
  | .cascadeProbeTimer => Sys2Proof.Machine.execCascadeProbeTimer s
  | .boot l uid count epoch => Sys2Proof.Machine.execBoot l uid count epoch s
  | .linkPhaseEnd => Sys2Proof.Machine.execLinkPhaseEnd s
  | .claim l uid node epoch => Sys2Proof.Machine.execClaim l uid node epoch s
  | .sliceTable l t => Sys2Proof.Machine.execSliceTable l t s
  | .floodQuietExpiry => Sys2Proof.Machine.execFloodQuietExpiry s
  | .propose l epoch uid members mdig digest => Sys2Proof.Machine.execPropose l epoch uid members mdig digest s
  | .agreeAck l from_ epoch count nak => Sys2Proof.Machine.execAgreeAck l from_ epoch count nak s
  | .agreeTimeout => Sys2Proof.Machine.execAgreeTimeout s
  | .mapCommit l epoch digest => Sys2Proof.Machine.execMapCommit l epoch digest s
  | .heartbeatTimer => Sys2Proof.Machine.execHeartbeatTimer s
  | .heartbeat l uid node epoch => Sys2Proof.Machine.execHeartbeat l uid node epoch s
  | .probe l uid node target number => Sys2Proof.Machine.execProbe l uid node target number s
  | .probeAnswer l uid node target number => Sys2Proof.Machine.execProbeAnswer l uid node target number s
  | .probeInterval node => Sys2Proof.Machine.execProbeInterval node s
  | .nodeDown l node cause reporter => Sys2Proof.Machine.execNodeDown l node cause reporter s
  | .jobFault src job gen cause target => Sys2Proof.Machine.execJobFault src job gen cause target s
  | .teardown job gen cause target reporter => Sys2Proof.Machine.execTeardown job gen cause target reporter s
  | .dieHeartbeatTimeout die => Sys2Proof.Machine.execDieHeartbeatTimeout die s
  | .ctlWatchdogExpiry core => Sys2Proof.Machine.execCtlWatchdogExpiry core s
  | .controlRestartComplete badCtx badLatch => Sys2Proof.Machine.execControlRestartComplete badCtx badLatch s
  | .moduleDrainTimeout => Sys2Proof.Machine.execModuleDrainTimeout s
  | .spdmRequest t r => Sys2Proof.Machine.execSpdmRequest t r s
  | .vendorDefinedRequest t code => Sys2Proof.Machine.execVendorDefinedRequest t code s
  | .entdaa addr => Sys2Proof.Machine.execEntdaa addr s
  | .rstdaa => Sys2Proof.Machine.execRstdaa s
  | .objectCopyComplete op obj => Sys2Proof.Machine.execObjectCopyComplete op obj s
  | .driveTrained d ok => Sys2Proof.Machine.execDriveTrained d ok s
  | .peerDetected l => Sys2Proof.Machine.execPeerDetected l s
  | .i3cBusReset => Sys2Proof.Machine.execI3cBusReset s
  | .mctpControlMessage msg => Sys2Proof.Machine.execMctpControlMessage msg s
  | .flashWriteComplete => Sys2Proof.Machine.execFlashWriteComplete s
  | .selfRefreshExit => Sys2Proof.Machine.execSelfRefreshExit s
  | .drainRefusedPatternEnd p => Sys2Proof.Machine.execDrainRefusedPatternEnd p s

end Sys2Proof.Machine
end

