-- ==== Sys2Proof/Safety.lean ====
section
/-! DEFINITION. What counts as a safe state and a safe run, and the terms the claims about host commands use. -/

namespace Sys2Proof.Machine

/-- Every memory of the state is in its canonical form. -/
def State.memsOk (s : State) : Bool :=
  s.hbm.wf && s.fw.wf && s.t2.wf && s.sp.wf && s.acc.wf && s.idn.flash.wf

/-- A step that neither faults nor is refused. -/
def Goes (s : State) : Prop := ∃ t, step s = .next t

/-- The event log holds at most 4,096 entries, numbered in a row up to the next log sequence (17 R545). -/
def Recov.logOk (r : Recov) : Prop :=
  r.log.length ≤ 4096 ∧ r.logSeq < 2 ^ 32 ∧ ∀ i e, r.log[i]? = some e → e.seq = (r.logSeq + 2 ^ 32 - r.log.length + i) % 2 ^ 32

/-- A subtree that signs has its thermometer fuse burnt (16 R507). -/
def Ident16.leafOk (i : Ident16) : Prop := i.signing = true → i.subtree < i.thermo

/-! ## Host commands (02 R61 to R67) -/

/-- The state once the command packet has been taken from its ring: the command is in flight. -/
def State.taken (s : State) (r : CmdRow) (p : Pkt) : State :=
  let t := s.takeFrom p.sq
  { t with cmdNext := t.cmdNext + 1, inflight := t.inflight ++ [s.newCmd r p] }

/-- The device takes the packet now, reads it without a fault, and every check of its opcode passes. -/
abbrev Accepted (r : CmdRow) (p : Pkt) (s : State) : Prop :=
  s.mayTake p = true ∧ p.fetchFault = false ∧ r.verdict p (s.taken r p) = none

/-- The command has its effect, giving `t`, and completes with the answer. -/
def State.answered (s : State) (r : CmdRow) (p : Pkt) (a : Ans) (t : State) : State := t.finish (s.newCmd r p) a

/-- The command has its first effect, giving `t`, and stays in flight: committed or not, with the command timeout or its own bound. -/
def State.waits (s : State) (r : CmdRow) (p : Pkt) (w : Wait) (committed : Bool) (bound : Option Nat) (t : State) : State :=
  { t with inflight := t.inflight.map fun (g : Inflight) =>
      if g.id == (s.newCmd r p).id then { g with wait := w, committed, due := match bound with | some b => g.start + b | none => g.due }
      else g }.settleDeletes.settleRevokes

/-- A host command that is refused, or that only reads the device, changes no more than this: its ring's head and the round robin, the
completion ring and its signal, what was written to the host, the commands in flight and their numbering, and the key value that a taking
brings into force (02 R51, R54, R62). A deletion of the ring it was the last command of may end with it (02 R74). -/
def OnlyCompletes (s t : State) : Prop :=
  t = { s with
    host := { s.host with
      sq := t.host.sq, cq := t.host.cq, wrrRing := t.host.wrrRing, wrrTaken := t.host.wrrTaken, msixPba := t.host.msixPba }
    hostWr := t.hostWr, msix := t.msix, inflight := t.inflight, cmdNext := t.cmdNext, keyEff := (s.adopt kMaxInflight).keyEff }

/-- Every host command of 02 R69, with its row. -/
def hostRows : List (CmdRow × (Pkt → Instr)) :=
  [(rowNop, .nop), (rowCreateRing, .createRing), (rowDeleteRing, .deleteRing), (rowConfigGet, .configGet), (rowConfigSet, .configSet),
   (rowSetPowerMode, .setPowerMode), (rowGetCapabilities, .getCapabilities), (rowSampleCounters, .sampleCounters),
   (rowAdmitRequest, .admitRequest), (rowCancel, .cancel), (rowPause, .pause), (rowResume, .resume), (rowQueryRequest, .queryRequest),
   (rowReleaseContext, .releaseContext), (rowMoveState, .moveState), (rowFetchPrefix, .fetchPrefix), (rowSealPrefix, .sealPrefix),
   (rowQueryLatch, .queryLatch), (rowSetMirror, .setMirror), (rowLoadImage, .loadImage), (rowUnloadImage, .unloadImage),
   (rowLaunchProgram, .launchProgram), (rowReadCoreStats, .readCoreStats), (rowLoadModel, .loadModel),
   (rowUnloadModel, .unloadModel)] ++
  [(rowReadAttnCounters, .readAttnCounters), (rowLoadDelta, .loadDelta), (rowReplaceDelta, .replaceDelta),
   (rowUnloadDelta, .unloadDelta), (rowReadExpanderStats, .readExpanderStats), (rowLoadGrammar, .loadGrammar),
   (rowUnloadGrammar, .unloadGrammar), (rowCreatePartition, .createPartition), (rowDestroyPartition, .destroyPartition),
   (rowBindImage, .bindImage), (rowUnbindImage, .unbindImage), (rowGrantExtent, .grantExtent), (rowRevokeExtent, .revokeExtent),
   (rowSetQuota, .setQuota), (rowQueryQuota, .queryQuota), (rowFlushRange, .flushRange), (rowAcquireRange, .acquireRange),
   (rowPublish, .publish), (rowQueryNode, .queryNode), (rowPortEnable, .portEnable), (rowPortDisable, .portDisable),
   (rowPortRetrain, .portRetrain), (rowPortDrain, .portDrain), (rowPortRestore, .portRestore), (rowPortStatus, .portStatus)] ++
  [(rowOpenReduce, .openReduce), (rowCollectiveClose, .collectiveClose), (rowRunGather, .runGather), (rowRunFilter, .runFilter),
   (rowSetShaper, .setShaper), (rowStageGateList, .stageGateList), (rowGateListCancel, .gateListCancel),
   (rowReadGateList, .readGateList), (rowSamplingQueue, .samplingQueue), (rowSamplingRing, .samplingRing),
   (rowCreateTable, .createTable), (rowDestroyTable, .destroyTable), (rowInsertEntry, .insertEntry), (rowUpdateEntry, .updateEntry),
   (rowDeleteEntry, .deleteEntry), (rowSearch, .search), (rowSwapShadow, .swapShadow), (rowGetEvidence, .getEvidence),
   (rowGetCertificates, .getCertificates), (rowStageManifest, .stageManifest), (rowReadEventLog, .readEventLog),
   (rowServiceDrain, .serviceDrain), (rowFabricBoot, .fabricBoot), (rowEnterLowPower, .enterLowPower)]

/-- The host command `c` completes: whenever it is accepted and `cond` holds of the state `u` it is taken in, its next state is
`t` of that state with the answer `a` posted. -/
def Completes (r : CmdRow) (c : Pkt → Instr) (cond : Pkt → State → Prop) (a : Pkt → State → Ans) (t : Pkt → State → State) : Prop :=
  ∀ p s, Accepted r p s → cond p (s.taken r p) → exec (c p) s = .next (s.answered r p (a p (s.taken r p)) (t p (s.taken r p)))

/-- The host command `c` begins and stays in flight: as `Completes`, with what it waits for, whether it is committed, and its bound. -/
def Begins (r : CmdRow) (c : Pkt → Instr) (cond : Pkt → State → Prop) (w : Pkt → State → Wait) (committed : Bool)
    (bound : Pkt → State → Option Nat) (t : Pkt → State → State) : Prop :=
  ∀ p s, Accepted r p s → cond p (s.taken r p) →
    exec (c p) s = .next (s.waits r p (w p (s.taken r p)) committed (bound p (s.taken r p)) (t p (s.taken r p)))

/-- Number of the command taken last. -/
def State.lastCmd (s : State) : Nat := s.cmdNext - 1

/-- Holds always. -/
def always (_ : Pkt) (_ : State) : Prop := True

/-- The state unchanged. -/
def same (_ : Pkt) (u : State) : State := u

/-- The command timeout of R66. -/
def noBound (_ : Pkt) (_ : State) : Option Nat := none

/-- A port action begun gives `t`: the command waits while the port is TRAINING or DRAINING, and else completes with its state. -/
def portBegun (r : CmdRow) (c : Pkt → Instr) (cond : Pkt → State → Prop) (t : Pkt → State → State) : Prop :=
  ∀ p s, Accepted r p s → cond p (s.taken r p) →
    exec (c p) s = .next
      (let v := t p (s.taken r p)
       if (v.link (p.f 5 0)).st = .training ∨ (v.link (p.f 5 0)).st = .draining then s.waits r p (.port (p.f 5 0)) true none v
       else s.answered r p { r0 := (v.link (p.f 5 0)).st.code } v)

/-- The session a run command sets up. -/
def runSess (filter : Bool) (p : Pkt) (u : State) : Sess :=
  { st := .running, job := p.f 27 16, cls := p.xf 105 104, filter, srcs := u.runSrcs p, dst := p.xf 511 448, topk := p.xf 512 512 == 1,
    fty := p.xf 514 513, cmp := p.xf 517 515, foff := p.xf 526 520, k := p.xf 540 528, const := p.xf 575 544, cmd := u.lastCmd + 1 }

/-- The extents a REVOKE_EXTENT acts on: GRANTED ones of its run, and those of a failed or draining drive that still have a grantee (11 R366). -/
def State.revocable (s : State) (p : Pkt) : List Nat :=
  (revokeRange p).filter fun e =>
    (s.ext (p.f 1 0) e).st == .granted || ((s.ext (p.f 1 0) e).st == .unavailable && (s.ext (p.f 1 0) e).who != .nobody)

/-! ## Events and packets -/

/-- Where `due` holds, the event or packet `i` has the effect `t`. -/
def Acts (i : Instr) (due : State → Prop) (t : State → State) : Prop := ∀ s, due s → exec i s = .next (t s)

/-- Where `due` holds, the event or packet `i` has the effect `t`; everywhere else it changes nothing. -/
def Happens (i : Instr) (due : State → Prop) (t : State → State) : Prop := Acts i due t ∧ Acts i (fun s => ¬due s) id

/-- The hinge message that a hinge row stands for, with the comparison it brings (04 R127, R146, R154). -/
def hingeOf : Instr → Option (HHdr × HMsg × List TwinCopy)
  | .regionOpening h f md dd gd age sh mv src rows mir => some (h, .opening f md dd gd age sh mv src rows mir, [])
  | .openingResponse h ok st hd base rows => some (h, if ok then .accepted hd h.region base rows else .refuse st, [])
  | .prepare h m age stamp moves => some (h, .prepare m age stamp moves, [])
  | .ready h d => some (h, .ready d, [])
  | .commit h age => some (h, .commit age, [])
  | .commitAck h => some (h, .commitAck, [])
  | .refuse h st => some (h, .refuse st, [])
  | .abandon h st => some (h, .abandon st, [])
  | .abandonAck h => some (h, .abandonAck, [])
  | .withdraw h => some (h, .withdraw, [])
  | .redirect h n hd => some (h, .redirect n hd, [])
  | .sourceQuery h tw => some (h, .query, tw)
  | _ => none

/-- The link and the packet that carry a hinge message: those in a receive buffer, else link 0 and a packet made of the header. -/
def State.hingePkt (s : State) (h : HHdr) (m : HMsg) : Nat × FPkt :=
  let mine (p : FPkt) : Bool := p.ptype == 13 && p.pay == .hinge h m
  let l := ((List.range 40).find? fun l => (s.link l).rx.any mine).getD 0
  (l, ((s.link l).rx.find? mine).getD { ptype := 13, dst := s.self, src := h.src, epoch := h.epoch, seq := h.seq, pay := .hinge h m })

/-- A descriptor row `i` of engine `e`: where the engine is at the descriptor and may start it, it has the effect `f`; elsewhere nothing
changes. -/
def Starts (i : Instr) (e : EngAt) (d : Desc) (ok : Nat → Bool) (f : At → State → State) : Prop :=
  (∀ a, Acts i (fun s => s.startAt e d ok = some a) (f a)) ∧ Acts i (fun s => s.startAt e d ok = none) id

end Sys2Proof.Machine
end

