-- ==== Sys2Proof/Certificates/Slice0/Obligations.lean ====
section
/-! DEFINITION. The statements for the provers, from the numbered rules of spec/. -/

section

open Sys2Proof Sys2Proof.Machine

/-! ## The block and its queue -/

/-- A step with a command at the front of the queue is that command's effect on the state with the queue's rest. -/
def Obligations.FrontCommandRuns : Prop :=
  ∀ (c : Instr) (cs : List Instr) (s : State), s.pending = c :: cs → step s = exec c { s with pending := cs }

/-- A step on an empty queue lets 40 ns pass while the device runs, and changes nothing while it does not (the model's choice, log
entry 3). -/
def Obligations.EmptyQueuePassesTime : Prop :=
  ∀ s : State, s.pending = [] → ∃ t, step s = .next t ∧ t.pending = [] ∧
    (s.runs = true → t.now = (s.now + 64) % 2 ^ 64) ∧ (s.runs = false → t = s)

/-- No command is lost, added or taken out of order, and what has been written to the host and the vectors signalled are only added to
(the model's own queue and record of outputs, log entry 5). -/
def Obligations.CommandsAreTakenInOrder : Prop :=
  ∀ s t : State, step s = .next t → t.pending = s.pending.tail ∧ s.hostWr <+: t.hostWr ∧ s.msix <+: t.msix

/-! ## Reset and loss of power -/

/-- The values that 00 R6, 01 R14, 02 R42, 03 R84, 10 R317, 11 R343, 13 R428, 15 R468, 17 R552 give at reset. -/
def Obligations.ResetHoldsWhatTheSpecGives : Prop :=
  let s := State.reset
  s.pending = [] ∧ s.now = 0 ∧ s.islands = [] ∧
  (s.host.ready = false ∧ s.compo.roleKnown = false ∧ s.rcv.fatal = false ∧ s.host.cfgError = false ∧ s.rcv.ctlRestart = false ∧
    s.host.avail = false ∧ s.rcv.fatalCode = 0 ∧ s.host.enable = false) ∧
  (∀ n, (s.sqr n).st = .absent ∧ (s.cqr n).st = .absent ∧ (s.oqr n).st = .absent) ∧
  (∀ i, (s.ctx i).st = .free ∧ (s.ctx i).gen = 1) ∧ (∀ k, (s.part k).st = .absent) ∧ (∀ t e, (s.ext t e).st = .free) ∧
  (∀ l, (s.link l).st = .down) ∧ (∀ k, (s.table k).active = false) ∧ s.rcv.modSt = .inService ∧ s.rcv.log = [] ∧ s.rcv.logSeq = 0 ∧
  s.idn.boot = .rom

/-- Every invariant stated below holds at reset. -/
def Obligations.ResetMeetsTheInvariants : Prop :=
  State.reset.memsOk = true ∧ State.reset.rcv.logOk ∧ State.reset.idn.leafOk

/-- 18 R567, 11 R347: when SYS_PWROK falls, the device holds no byte of its dies, of HBM or of T2, no ring, context or object, and stops. -/
def Obligations.PowerLossClearsTheDevice : Prop :=
  ∀ s : State, s.board.pwrok = true → ∃ t, exec .sysPwrokFall s = .next t ∧ t.runs = false ∧
    t.hbm = [] ∧ t.fw = [] ∧ t.t2 = [] ∧ t.sp = [] ∧ t.acc = [] ∧ t.host = {} ∧ t.inflight = [] ∧ t.ctxs = [] ∧ t.latches = [] ∧
    t.images = [] ∧ t.models = [] ∧ t.deltas = [] ∧ t.grammars = [] ∧ t.prefixes = [] ∧ t.regions = [] ∧ t.parts = [] ∧ t.pcs = [] ∧
    t.tum = {} ∧ t.fab = {} ∧ t.net = {} ∧ t.compo = {} ∧ t.rcv = {} ∧ t.idn.boot = .rom ∧
    t.idn.svnFused = s.idn.svnFused ∧ t.idn.thermo = s.idn.thermo ∧ t.idn.keyRevoked = s.idn.keyRevoked ∧ t.idn.flash = s.idn.flash

/-! ## Invariants of every step -/

/-- 05 R184, 11 R346, 12 R373: each memory keeps its canonical form, whatever command comes. -/
def Obligations.MemoriesStayCanonical : Prop :=
  ∀ s t : State, step s = .next t → s.memsOk = true → t.memsOk = true

/-- 17 R545: the event log holds at most 4,096 entries, numbered in a row up to the next log sequence. -/
def Obligations.EventLogStaysNumbered : Prop :=
  ∀ s t : State, step s = .next t → s.rcv.logOk → t.rcv.logOk

/-- 16 R497: one-time fuses are never unburnt. -/
def Obligations.FusesAreNeverUnburnt : Prop :=
  ∀ s t : State, step s = .next t →
    s.idn.svnFused ≤ t.idn.svnFused ∧ s.idn.thermo ≤ t.idn.thermo ∧ t.idn.keyRevoked = s.idn.keyRevoked

/-- 16 R507: no subtree signs unless its thermometer fuse is burnt. -/
def Obligations.SigningSubtreeIsBurnt : Prop :=
  ∀ s t : State, step s = .next t → s.idn.leafOk → t.idn.leafOk

/-- 16 R507, R508: while SYS_PWROK keeps its level and no thermometer fuse is burnt, the subtree stays and no leaf is used twice. -/
def Obligations.LeavesAreNotReused : Prop :=
  ∀ s t : State, step s = .next t → t.board.pwrok = s.board.pwrok → t.idn.thermo = s.idn.thermo →
    t.idn.subtree = s.idn.subtree ∧ s.idn.leaf ≤ t.idn.leaf

/-- 17 R543, R544: while SYS_PWROK keeps its level, a stopped device stays stopped and a fenced die stays fenced. -/
def Obligations.StopsAndFencesLast : Prop :=
  ∀ s t : State, step s = .next t → t.board.pwrok = s.board.pwrok →
    (s.rcv.fatal = true → t.rcv.fatal = true) ∧ ∀ d, s.rcv.fenced.contains d = true → t.rcv.fenced.contains d = true

/-- The commands a stopped but powered device still sees: the loss of power, the flash handshake and the management bus, and BAR4 (DEDUCED, log entry 58). -/
def Obligations.StoppedDeviceDoesNothing : Prop :=
  ∀ (c : Instr) (s t : State), s.rcv.fatal = true → s.board.pwrok = true → exec c s = .next t →
    (c ≠ .sysPwrokFall ∧ c ≠ .flashReq ∧ c ≠ .flashRelease ∧ (∀ a, c ≠ .entdaa a) ∧ c ≠ .rstdaa ∧ c ≠ .i3cBusReset ∧
      (∀ b, c ≠ .mctpControlMessage b) ∧ ∀ o w v, c ≠ .registerWrite .bar4 o w v) → t = s

/-! ## Taking, refusing and reading: what every host command shares -/

/-- 02 R51, R57, R61: a packet the device cannot take now stays in its ring; one whose fetch faults completes BAD_FIELD, with `tag`,
`opcode` and `handle` 0, and has no side effect. -/
def Obligations.PacketsWaitOrFault : Prop :=
  ∀ rc ∈ hostRows, ∀ (p : Pkt) (s : State),
    (s.mayTake p = false → exec (rc.2 p) s = .next s) ∧
    (s.mayTake p = true → p.fetchFault = true → ∃ t, OnlyCompletes s t ∧
      t = (s.taken rc.1 p).finish { s.newCmd rc.1 p with tag := 0, opcode := 0, handle := 0, irq := false } (refuse sBadField) ∧
      exec (rc.2 p) s = .next t)

/-- 02 R62: the first check of a command that fails decides its answer, and a refusal has no side effect. -/
def Obligations.RefusalsHaveNoSideEffect : Prop :=
  ∀ rc ∈ hostRows, ∀ (p : Pkt) (s : State) (a : Ans),
    s.mayTake p = true → p.fetchFault = false → rc.1.verdict p (s.taken rc.1 p) = some a →
    ∃ t, OnlyCompletes s t ∧ t = (s.taken rc.1 p).finish (s.newCmd rc.1 p) a ∧ exec (rc.2 p) s = .next t

/-- The commands that only read the device; READ_CORE_STATS (05 R192) and READ_EXPANDER_STATS (08 R292) take free values for what
they report and change nothing else. -/
def Obligations.ReadingCommandsChangeNothing : Prop :=
  (∀ rc ∈ ([(rowNop, .nop), (rowConfigGet, .configGet), (rowGetCapabilities, .getCapabilities), (rowSampleCounters, .sampleCounters),
      (rowQueryRequest, .queryRequest), (rowQueryLatch, .queryLatch), (rowQueryQuota, .queryQuota), (rowQueryNode, .queryNode),
      (rowPortStatus, .portStatus), (rowReadGateList, .readGateList), (rowReadEventLog, .readEventLog),
      (rowGetCertificates, .getCertificates), (rowReadAttnCounters, .readAttnCounters)] : List (CmdRow × (Pkt → Instr))),
    ∀ (p : Pkt) (s : State), Accepted rc.1 p s → ∃ t, exec (rc.2 p) s = .next t ∧ OnlyCompletes s t) ∧
  ∀ rc ∈ ([(rowReadCoreStats, .readCoreStats), (rowReadExpanderStats, .readExpanderStats)] : List (CmdRow × (Pkt → Instr))),
    ∀ (p : Pkt) (s : State), Accepted rc.1 p s → ∃ t, exec (rc.2 p) s = .next t ∧ OnlyCompletes { s with free := t.free } t


/-! ## Host commands by subsystem: what an accepted command does -/

/-- 02 R71, R73, R74, R76, R77: the host interface's commands. -/
def Obligations.HostInterfaceCommandsComplete : Prop :=
  Completes rowNop .nop always (fun _ _ => {}) same ∧
  Completes rowCreateRing .createRing always (fun p _ => { r0 := 0x1000 * (p.f 1 0 + 1) + 8 * p.f 15 8 }) (fun p u => u.createRing p) ∧
  Completes rowDeleteRing .deleteRing (fun p u => u.ringSt (p.f 1 0) (p.f 15 8) = .absent) (fun _ _ => { status := sOkAlready }) same ∧
  Begins rowDeleteRing .deleteRing (fun p u => u.ringSt (p.f 1 0) (p.f 15 8) ≠ .absent ∧ p.f 1 0 = 0)
    (fun p _ => .deleteRing 0 (p.f 15 8)) true noBound (fun p u => u.setRingSt 0 (p.f 15 8) .deleting) ∧
  Completes rowDeleteRing .deleteRing (fun p u => u.ringSt (p.f 1 0) (p.f 15 8) ≠ .absent ∧ p.f 1 0 ≠ 0)
    (fun _ _ => {}) (fun p u => u.dropRing (p.f 1 0) (p.f 15 8)) ∧
  (∀ k, Completes rowConfigGet .configGet (fun p _ => keyRow? (p.f 31 0) = some k)
    (fun p u => { r0 := u.keyValue k (p.f 63 32) % 2 ^ k.bits,
                  r1 := pack [(1, b2n (u.keyPending k (p.f 63 32))), (1, b2n k.ro), (6, 0), (2, k.ty)] }) same) ∧
  (∀ k, Completes rowConfigSet .configSet (fun p u => keyRow? (p.f 31 0) = some k ∧ u.keyValue k (p.f 63 32) = p.f 127 64)
    (fun _ _ => { status := sOkAlready }) same) ∧
  (∀ k, Completes rowConfigSet .configSet (fun p u => keyRow? (p.f 31 0) = some k ∧ u.keyValue k (p.f 63 32) ≠ p.f 127 64)
    (fun _ _ => {}) (fun p u => u.recordKey k (p.f 63 32) (p.f 127 64)))

/-- 01 R30, R31, R35, R17, 18 R568, R569: the power commands. -/
def Obligations.PowerCommandsComplete : Prop :=
  Completes rowSetPowerMode .setPowerMode (fun p u => p.f 7 0 = u.pow.mode) (fun _ _ => { status := sOkAlready }) same ∧
  Begins rowSetPowerMode .setPowerMode (fun p u => p.f 7 0 ≠ u.pow.mode) (fun p _ => .power (p.f 7 0)) true noBound
    (fun p u => u.startTrans (p.f 7 0)) ∧
  Completes rowGetCapabilities .getCapabilities always
    (fun p u => { wr := [(p.f 127 64, u.capView (if p.b 16 then none else some (p.f 11 0)))] }) same ∧
  Completes rowSampleCounters .sampleCounters always (fun p u => { wr := [(p.f 191 128, u.islandBlock (bitsSet 104 p.v))] }) same ∧
  Completes rowEnterLowPower .enterLowPower (fun p u => p.f 1 0 = u.pow.level) (fun _ _ => { status := sOkAlready }) same ∧
  Begins rowEnterLowPower .enterLowPower
    (fun p u => p.f 1 0 ≠ u.pow.level ∧ ((u.pow.level = 2 ∧ p.f 1 0 < 2) ∨ (p.f 1 0 = 3 ∧ u.idn.flashBusy = true)))
    (fun p _ => .lowPower (p.f 1 0)) true noBound same ∧
  Completes rowEnterLowPower .enterLowPower
    (fun p u => p.f 1 0 ≠ u.pow.level ∧ ¬((u.pow.level = 2 ∧ p.f 1 0 < 2) ∨ (p.f 1 0 = 3 ∧ u.idn.flashBusy = true)))
    (fun _ _ => {}) (fun p u => u.setLevel (p.f 1 0))

/-- 03 R83, R88, R89, R112 to R117: the commands on requests. -/
def Obligations.RequestCommandsComplete : Prop :=
  (∀ i k v w, Completes rowAdmitRequest .admitRequest
    (fun p u => u.freeCtx = some i ∧ u.takeLatch = some (k, v) ∧
      (v.setCtx i (admitCtx p u (u.ctx i).gen)).takeWorkset i
        (u.workset (admitCtx p u (u.ctx i).gen).model (admitCtx p u (u.ctx i).gen).promptLen) = some w)
    (fun p u => { handle := w.handleFor i, r0 := (admitCtx p u (u.ctx i).gen).uid })
    (fun _ u => ((w.setLatch k { region := 0, st := .home, homeNode := u.self, handle := w.handleFor i, stamp := 1, channel := i }).place
      i false).bump kAdmitted)) ∧
  (∀ i, Begins rowCancel .cancel
    (fun p u => u.ctxNamed p.handle = some i ∧ (u.ctx i).st = .prefill ∧ u.layerRunning i = true)
    (fun _ _ => .cancel i) true noBound (fun _ u => u.modCtx i fun c => { c with cancelAsked := true })) ∧
  (∀ i, Begins rowCancel .cancel (fun p u => u.ctxNamed p.handle = some i ∧ (u.ctx i).st = .draining)
    (fun _ _ => .cancel i) true noBound same) ∧
  (∀ i, Completes rowCancel .cancel
    (fun p u => u.ctxNamed p.handle = some i ∧ ((u.ctx i).st = .done ∨ (u.ctx i).st = .ended))
    (fun _ u => u.cancelAns i sOkAlready) same) ∧
  (∀ i, Completes rowCancel .cancel
    (fun p u => u.ctxNamed p.handle = some i ∧ ((u.ctx i).st = .admitted ∨ ((u.ctx i).st = .prefill ∧ u.layerRunning i = false) ∨
      (u.ctx i).st = .handoff ∨ (u.ctx i).st = .decode ∨ (u.ctx i).st = .paused))
    (fun _ u => (u.endReq i sCancelled).cancelAns i sOK) (fun _ u => u.endReq i sCancelled)) ∧
  (∀ i, Completes rowPause .pause
    (fun p u => u.ctxNamed p.handle = some i ∧ (u.ctx i).st = .paused ∧ (u.ctx i).pauseHost = true)
    (fun _ _ => { status := sOkAlready }) same) ∧
  (∀ i, Completes rowPause .pause
    (fun p u => u.ctxNamed p.handle = some i ∧ (u.ctx i).st = .paused ∧ (u.ctx i).pauseHost = false)
    (fun _ _ => {}) (fun _ u => u.modCtx i fun c => { c with pauseHost := true })) ∧
  (∀ i, Begins rowPause .pause
    (fun p u => u.ctxNamed p.handle = some i ∧ (u.ctx i).st = .decode ∧ (u.part (u.ctx i).partition).stepAt.isSome = true)
    (fun _ _ => .pause i) false noBound (fun _ u => u.modCtx i fun c => { c with pauseAsked := true })) ∧
  (∀ i, Completes rowPause .pause
    (fun p u => u.ctxNamed p.handle = some i ∧ (u.ctx i).st = .decode ∧ (u.part (u.ctx i).partition).stepAt = none)
    (fun _ _ => {}) (fun _ u => u.pauseNow i)) ∧
  (∀ i t, Begins rowResume .resume
    (fun p u => u.ctxNamed p.handle = some i ∧ (u.modCtx i fun c => { c with pauseHost := false }).tryDecode i = t ∧
      (t.ctx i).recalling = true ∧ (t.ctx i).pauseSched = false ∧ (t.ctx i).pauseParked = false)
    (fun _ _ => .resume i) true noBound (fun _ _ => t)) ∧
  (∀ i t, Completes rowResume .resume
    (fun p u => u.ctxNamed p.handle = some i ∧ (u.modCtx i fun c => { c with pauseHost := false }).tryDecode i = t ∧
      ¬((t.ctx i).recalling = true ∧ (t.ctx i).pauseSched = false ∧ (t.ctx i).pauseParked = false))
    (fun _ _ => { r0 := (t.ctx i).st.code }) (fun _ _ => t)) ∧
  (∀ i, Completes rowQueryRequest .queryRequest (fun p u => u.ctxNamed p.handle = some i)
    (fun p u => { wr := [(p.f 63 0, u.ctxRecord i)] }) same) ∧
  (∀ i, Completes rowReleaseContext .releaseContext (fun p u => u.ctxNamed p.handle = some i) (fun _ _ => {}) (fun _ u => u.freeCtxAt i))

/-- 04 R140, R142, R145, R151, R155: the hinge commands. -/
def Obligations.HingeCommandsComplete : Prop :=
  Begins rowMoveState .moveState always (fun p _ => .moveAsk (p.f 45 32) (p.f 31 0) (p.f 55 48)) false
    (fun _ u => some (ms ((u.adopt kMoveTimeout).kv kMoveTimeout)))
    (fun p u => (u.adopt kMoveTimeout).request (.command u.lastCmd) (p.f 45 32) 0xD 0 0 0 0 (.hinge { handle := p.f 31 0 } .query)) ∧
  Begins rowFetchPrefix .fetchPrefix always (fun p _ => .fetch (p.f 31 0) (p.f 41 32)) false
    (fun _ u => some (ms ((u.adopt kMoveTimeout).kv kMoveTimeout))) (fun _ u => u.adopt kMoveTimeout) ∧
  (∀ i j e v, Begins rowSealPrefix .sealPrefix
    (fun p u => u.ctxNamed p.handle = some i ∧ (u.adopt kPrefixTable).freePrefixId = some j ∧
      ((u.adopt kPrefixTable).reclaimFor (u.ctx i).tenant (sealExts p (u.adopt kPrefixTable) (u.ctx i))).findRun
        (sealExts p (u.adopt kPrefixTable) (u.ctx i)) = (some e, v))
    (fun p u => .sealing i (p.f 14 0) (u.self * 2 ^ 18 + j) e (sealExts p (u.adopt kPrefixTable) (u.ctx i)) (p.f 14 0)) false noBound
    (fun p u =>
      let c := u.ctx i
      let w := u.adopt kPrefixTable
      let m := sealExts p w c
      let t := (v.takeExts 1 e m .object .nobody).charge c.tenant 1 m
      { t with
        prefixes := Tab.set t.prefixes (u.self * 2 ^ 18 + j)
          { id := u.self * 2 ^ 18 + j, tenant := c.tenant, blocks := p.f 14 0, layers := w.layersOf c.model, rowBytes := w.rowBytesOf c.model,
            first := e, count := m, hashes := sealHashes p w c, used := w.now }
        nextId := Tab.put 0 t.nextId 4 (j + 1) })) ∧
  (∀ k, Completes rowQueryLatch .queryLatch (fun p u => latchAsked p u = some k)
    (fun p u => { wr := [(p.f 127 64, (u.latch k).record)] }) same) ∧
  (∀ i k, Begins rowSetMirror .setMirror
    (fun p u => u.ctxNamed p.handle = some i ∧ u.latchOf (u.handleFor i) = some k ∧ p.b 0 = false ∧
      (u.adopt kMoveTimeout).dead ((u.adopt kMoveTimeout).latch k).twinNode = false)
    (fun _ _ => .mirror i false) false (fun _ u => some (ms ((u.adopt kMoveTimeout).kv kMoveTimeout)))
    (fun _ u =>
      let x := (u.adopt kMoveTimeout).latch k
      (u.adopt kMoveTimeout).request (.mirror i) x.twinNode 0xD 0 0 0 0 (.hinge { region := x.twinRegion, handle := x.handle } (.abandon sOK)))) ∧
  (∀ i k, Completes rowSetMirror .setMirror
    (fun p u => u.ctxNamed p.handle = some i ∧ u.latchOf (u.handleFor i) = some k ∧ p.b 0 = false ∧
      (u.adopt kMoveTimeout).dead ((u.adopt kMoveTimeout).latch k).twinNode = true)
    (fun _ _ => {}) (fun _ u => (u.adopt kMoveTimeout).endMirror k i)) ∧
  (∀ i k, Begins rowSetMirror .setMirror
    (fun p u => u.ctxNamed p.handle = some i ∧ u.latchOf (u.handleFor i) = some k ∧ p.b 0 = true)
    (fun _ _ => .mirror i true) false (fun _ u => some (ms ((u.adopt kMoveTimeout).kv kMoveTimeout)))
    (fun p u =>
      let v := u.adopt kMoveTimeout
      let c := v.ctx i
      let d := v.ctxDigests c
      (v.setLatch k { v.latch k with twinNode := v.twinNode, twinHandle := 0, twinRegion := 0 }).request (.mirror i) v.twinNode 0xD 0 0 0 0
        (.hinge { handle := p.handle }
          (.opening c.fixed d.1 d.2.1 d.2.2 (v.ctxAge i) p.handle false [] 0 (some (p.f 15 8, p.f 19 16))))))

/-- 06 R200, 07 R245, 08 R281, R282, 09 R297, 02 R584: loading begins a copy, unloading releases the object. -/
def Obligations.ObjectCommandsComplete : Prop :=
  Begins rowLoadImage .loadImage always (fun p _ => .copy .image (p.f 63 0) (p.f 95 64) (p.f 105 96) 0) false
    (fun p _ => some (ms (250 + mibs (p.f 95 64)))) same ∧
  Begins rowLoadModel .loadModel always (fun p _ => .copy .model (p.f 63 0) (p.f 127 64) (p.f 137 128) 0) false
    (fun p _ => some (ms 250 + us (250 * mibs (p.f 127 64)))) same ∧
  Begins rowLoadDelta .loadDelta always (fun p _ => .copy .delta (p.f 63 0) (p.f 127 64) (p.f 169 160) (p.f 159 128)) false
    (fun p _ => some (ms 250 + us (500 * mibs (p.f 127 64)))) same ∧
  Begins rowReplaceDelta .replaceDelta always (fun p u => .copy .replace (p.f 63 0) (p.f 127 64) (u.deltaTenant p.handle) p.handle) false
    (fun p _ => some (ms 250 + us (500 * mibs (p.f 127 64)))) same ∧
  Begins rowLoadGrammar .loadGrammar always (fun p _ => .copy .grammar (p.f 63 0) (p.f 127 64) (p.f 137 128) 0) false
    (fun p _ => some (ms (250 + mibs (p.f 127 64)))) same ∧
  (∀ o, Completes rowUnloadImage .unloadImage (fun p u => Tab.find? u.images p.handle = some o) (fun _ _ => {})
    (fun _ u => ({ u with images := Tab.erase u.images o.id } : State).releaseObject o.tenant o.first (extsOf o.size))) ∧
  (∀ o, Completes rowUnloadModel .unloadModel (fun p u => Tab.find? u.models p.handle = some o) (fun _ _ => {})
    (fun _ u => ({ u with models := Tab.erase u.models o.id } : State).releaseObject o.tenant o.first (extsOf o.size))) ∧
  (∀ o, Completes rowUnloadDelta .unloadDelta (fun p u => Tab.find? u.deltas p.handle = some o) (fun _ _ => {})
    (fun _ u => o.vers.foldl (fun v x => v.releaseObject o.tenant x.first (extsOf x.size)) { u with deltas := Tab.erase u.deltas o.id })) ∧
  (∀ o, Completes rowUnloadGrammar .unloadGrammar (fun p u => Tab.find? u.grammars p.handle = some o) (fun _ _ => {})
    (fun _ u => ({ u with grammars := Tab.erase u.grammars o.id } : State).releaseObject o.tenant o.first (extsOf o.size)))

/-- 06 R202, R203, 05 R192, 07 R270, 08 R292: launching a program and reading the core records. -/
def Obligations.ProgramCommandsComplete : Prop :=
  (∀ n, Completes rowLaunchProgram .launchProgram (fun p u => u.freeSlot (p.f 3 0) = some n) (fun p _ => { r0 := p.f 3 0 * 8 + n })
    (fun p u =>
      let k := p.f 3 0
      let d := p.b 4
      let id := k * 8 + n
      let cores := ((u.part k).kindCores d).take (u.imgMax p.handle d)
      let x : ProgCtx :=
        { live := true, image := p.handle, decode := d, be := p.b 5, serving := p.b 6, cores, ctrs := List.replicate 32 0,
          args := (List.range 10).map fun i => p.xf (64 * i + 63) (64 * i) }
      let x := { x with core := (List.range cores.length).map fun r => { engines := (List.range (engCount d)).map (u.newEngine x id r) } }
      let v := (u.setPc id x).fwWrite (launchPlace id) ((u.setPc id x).launchRec id)
      (if p.b 6 && !d then v.placeWaiting else v).choosePc k d)) ∧
  Completes rowReadCoreStats .readCoreStats always
    (fun p u => { wr := [(p.f 127 64,
      coreRun (u.coreRec (p.b 0)) 5 (u.freeVals (5 * p.f 21 16)).1 ((List.range (p.f 21 16)).map (p.f 13 8 + ·)))] })
    (fun p u => (u.freeVals (5 * p.f 21 16)).2) ∧
  Completes rowReadAttnCounters .readAttnCounters always (fun p u => { wr := [(p.f 63 0, Mem.readN u.fw (attnPlace 0) 1024)] }) same ∧
  Completes rowReadExpanderStats .readExpanderStats always
    (fun p u => { wr := [(p.f 127 64, coreRun (u.expRecs (p.b 0)) (3 * meCount (p.b 0)) (u.freeVals (3 * meCount (p.b 0) * p.f 21 16)).1
      ((List.range (p.f 21 16)).map (p.f 13 8 + ·)))] })
    (fun p u => (u.freeVals (3 * meCount (p.b 0) * p.f 21 16)).2)

/-- 10 R321 to R325: the partition commands. -/
def Obligations.PartitionCommandsComplete : Prop :=
  Completes rowCreatePartition .createPartition always (fun p _ => { r0 := b2n (p.b 5) })
    (fun p u =>
      let k := p.f 3 0
      let j := p.f 19 8
      let v := ((u.clearPartKeys k).setKey kSliceUs k (p.f 175 160) false).setKey kPreemptBound k (p.f 191 176) false
      let v := v.setPart k { st := .active, det := p.b 4, reqYield := p.b 5, effYield := p.b 5, job := j, model := p.f 63 32,
                             pMask := p.f 111 64, dMask := p.f 159 112 }
      let v := v.charge (v.jobTenant j) 0 (20 * popCount 48 (p.f 111 64) + 12 * popCount 48 (p.f 159 112))
      (v.fwWrite (attnPlace k) (List.replicate 16 0 ++ [1] ++ List.replicate 47 0)).capChanged [none, some j]) ∧
  Completes rowDestroyPartition .destroyPartition (fun p u => (u.part (p.f 3 0)).st = .absent) (fun _ _ => { status := sOkAlready }) same ∧
  (∀ v, Completes rowDestroyPartition .destroyPartition
    (fun p u => (u.part (p.f 3 0)).st ≠ .absent ∧
      (((u.modPart (p.f 3 0) fun x => { x with st := .destroying }).pcsOf (p.f 3 0)).foldl State.cancelProg
        (u.modPart (p.f 3 0) fun x => { x with st := .destroying })) = v ∧ v.pcsOf (p.f 3 0) = [])
    (fun _ _ => {}) (fun p _ => v.finishPart (p.f 3 0))) ∧
  (∀ v, Begins rowDestroyPartition .destroyPartition
    (fun p u => (u.part (p.f 3 0)).st ≠ .absent ∧
      (((u.modPart (p.f 3 0) fun x => { x with st := .destroying }).pcsOf (p.f 3 0)).foldl State.cancelProg
        (u.modPart (p.f 3 0) fun x => { x with st := .destroying })) = v ∧ v.pcsOf (p.f 3 0) ≠ [])
    (fun p _ => .destroyPart (p.f 3 0)) true noBound (fun _ _ => v)) ∧
  Completes rowBindImage .bindImage (fun p u => (u.part (p.f 3 0)).images.contains p.handle = true)
    (fun p u => { status := sOkAlready, r0 := b2n (u.part (p.f 3 0)).effYield }) same ∧
  (∀ v, Completes rowBindImage .bindImage
    (fun p u => (u.part (p.f 3 0)).images.contains p.handle = false ∧
      (u.modPart (p.f 3 0) fun x => { x with images := NSet.add x.images p.handle }).recompute (p.f 3 0) = v)
    (fun p _ => { r0 := b2n (v.part (p.f 3 0)).effYield }) (fun _ _ => v)) ∧
  Completes rowUnbindImage .unbindImage (fun p u => (u.part (p.f 3 0)).images.contains p.handle = false)
    (fun p u => { status := sOkAlready, r0 := b2n (u.part (p.f 3 0)).effYield }) same ∧
  (∀ v w, Completes rowUnbindImage .unbindImage
    (fun p u => (u.part (p.f 3 0)).images.contains p.handle = true ∧
      (u.modPart (p.f 3 0) fun x => { x with images := NSet.del x.images p.handle }).recompute (p.f 3 0) = v ∧
      ((v.pcsOf (p.f 3 0)).filter fun id => (v.pc id).image == p.handle).foldl State.cancelProg v = w ∧
      ((w.pcsOf (p.f 3 0)).any fun id => (w.pc id).image == p.handle) = false)
    (fun p _ => { r0 := b2n (w.part (p.f 3 0)).effYield }) (fun _ _ => w)) ∧
  (∀ v w, Begins rowUnbindImage .unbindImage
    (fun p u => (u.part (p.f 3 0)).images.contains p.handle = true ∧
      (u.modPart (p.f 3 0) fun x => { x with images := NSet.del x.images p.handle }).recompute (p.f 3 0) = v ∧
      ((v.pcsOf (p.f 3 0)).filter fun id => (v.pc id).image == p.handle).foldl State.cancelProg v = w ∧
      ((w.pcsOf (p.f 3 0)).any fun id => (w.pc id).image == p.handle) = true)
    (fun p _ => .unbind p.handle (p.f 3 0)) true noBound (fun _ _ => w))

/-- 11 R360 to R367: the extent and quota commands. -/
def Obligations.TierCommandsComplete : Prop :=
  (∀ e v, Completes rowGrantExtent .grantExtent
    (fun p u => p.f 1 0 = 1 ∧ grantee p = .host ∧ (u.adopt kHostT1).findRun (p.f 63 48) (grantHint p) = (some e, v))
    (fun p _ => { r0 := e * extBytes, r1 := p.f 63 48 })
    (fun p _ =>
      let w := v.takeExts 1 e (p.f 63 48) .granted .host
      { w with hostT1 := w.hostT1 + p.f 63 48 })) ∧
  (∀ e v, Completes rowGrantExtent .grantExtent
    (fun p u => p.f 1 0 = 1 ∧ grantee p ≠ .host ∧ (u.reclaimFor (p.f 25 16) (p.f 63 48)).findRun (p.f 63 48) (grantHint p) = (some e, v))
    (fun p _ => { r0 := e * extBytes, r1 := p.f 63 48 })
    (fun p _ => (v.takeExts 1 e (p.f 63 48) .granted (grantee p)).charge (p.f 25 16) 1 (p.f 63 48))) ∧
  (∀ d e, Begins rowGrantExtent .grantExtent
    (fun p u => p.f 1 0 ≠ 1 ∧ u.grantBay (p.f 63 48) = some d ∧
      runPlace (p.f 63 48) (u.t2Gaps d) (u.choose (runPlaces (u.t2Gaps d) (p.f 63 48))).1 = some e)
    (fun p _ => .fill (grantee p) (p.f 25 16) e (p.f 63 48)) false (fun p _ => some (ms (250 + p.f 63 48)))
    (fun p u => (List.range (p.f 63 48)).foldl
      (fun w i => w.issueTier d (t2Off (e + i)) extBytes (.fill u.lastCmd (p.f 127 64 / extBytes + i)))
      ((u.choose (runPlaces (u.t2Gaps d) (p.f 63 48))).2.takeExts 2 e (p.f 63 48) .filling .nobody))) ∧
  (∀ es, Completes rowRevokeExtent .revokeExtent (fun p u => u.revocable p = es ∧ es = [])
    (fun _ _ => { status := sOkAlready }) same) ∧
  (∀ es, Begins rowRevokeExtent .revokeExtent (fun p u => u.revocable p = es ∧ es ≠ [])
    (fun p _ => .revoke (p.f 1 0) (p.f 127 64 / extBytes) (p.f 31 16) es.length 0) true
    (fun _ u => some (ms (u.kv kExtentDrain + 250))) (fun p u => es.foldl (fun w e => w.revokeOne (p.f 1 0) e u.lastCmd) u)) ∧
  Completes rowSetQuota .setQuota (fun p u => u.quotaOf (p.f 9 0) (p.f 17 16) = p.f 63 32)
    (fun p u => { status := sOkAlready, r0 := u.usageOf (p.f 9 0) (p.f 17 16), r1 := b2n (p.f 63 32 < u.usageOf (p.f 9 0) (p.f 17 16)) }) same ∧
  Completes rowSetQuota .setQuota (fun p u => u.quotaOf (p.f 9 0) (p.f 17 16) ≠ p.f 63 32)
    (fun p u => { r0 := u.usageOf (p.f 9 0) (p.f 17 16), r1 := b2n (p.f 63 32 < u.usageOf (p.f 9 0) (p.f 17 16)) })
    (fun p u => { u with quota := Tab.put 0 u.quota (p.f 9 0 * 4 + p.f 17 16) (p.f 63 32) }) ∧
  Completes rowQueryQuota .queryQuota always
    (fun p u => { r0 := u.quotaOf (p.f 9 0) (p.f 17 16), r1 := u.usageOf (p.f 9 0) (p.f 17 16) }) same

/-- 12 R396 to R400, R410, R412, R415: the commands of the fabric as memory. -/
def Obligations.FabricCommandsComplete : Prop :=
  Completes rowFlushRange .flushRange (fun p u => u.writesTo (p.f 13 0) (p.f 127 64) (p.f 191 128) = []) (fun _ _ => {}) same ∧
  Begins rowFlushRange .flushRange (fun p u => u.writesTo (p.f 13 0) (p.f 127 64) (p.f 191 128) ≠ [])
    (fun p u => .flush (u.writesTo (p.f 13 0) (p.f 127 64) (p.f 191 128))) true noBound same ∧
  Begins rowAcquireRange .acquireRange (fun p u => p.b 28 = true ∧ p.f 13 0 ≠ u.self)
    (fun p _ => .acquire (p.f 13 0) (p.f 127 64) (p.f 191 128)) false noBound
    (fun p u => if u.dead (p.f 13 0) then u
      else u.request (.command u.lastCmd) (p.f 13 0) 11 3 0 (p.f 127 64 / extBytes * extBytes) (p.f 27 16) (.bytes [])) ∧
  Completes rowAcquireRange .acquireRange (fun p u => p.b 28 = false ∨ p.f 13 0 = u.self)
    (fun p u => { r0 := if p.b 28 then u.version (p.f 127 64 / extBytes) else 0 })
    (fun p u => u.rlcDrop fun line =>
      line * 128 / 2 ^ 50 == p.f 13 0 && p.f 127 64 ≤ line * 128 % 2 ^ 50 && line * 128 % 2 ^ 50 < p.f 127 64 + p.f 191 128) ∧
  Completes rowPublish .publish
    (fun p u => u.writesTo (p.f 13 0) (p.f 127 64) (p.f 63 48 * extBytes) = [] ∧ p.f 13 0 = u.self)
    (fun p u =>
      let x := u.publish (p.f 127 64) (p.f 63 48) (p.f 191 128) (p.f 27 16) (p.b 28)
      publishAns x.1 x.2.1 x.2.2.1)
    (fun p u => (u.publish (p.f 127 64) (p.f 63 48) (p.f 191 128) (p.f 27 16) (p.b 28)).2.2.2) ∧
  Begins rowPublish .publish
    (fun p u => u.writesTo (p.f 13 0) (p.f 127 64) (p.f 63 48 * extBytes) = [] ∧ p.f 13 0 ≠ u.self ∧ u.dead (p.f 13 0) = false)
    (fun p _ => .publish [] (p.f 13 0) (p.f 127 64) (p.f 63 48) (p.f 191 128) (p.f 27 16) (p.b 28) true) false noBound
    (fun p u => u.request (.command u.lastCmd) (p.f 13 0) 9 3 0 (p.f 127 64) (p.f 27 16)
      (.bytes (toLE 16 (pack [(16, p.f 63 48), (48, 0), (64, p.f 191 128)])))) ∧
  Begins rowPublish .publish (fun p u => u.writesTo (p.f 13 0) (p.f 127 64) (p.f 63 48 * extBytes) ≠ [])
    (fun p u => .publish (u.writesTo (p.f 13 0) (p.f 127 64) (p.f 63 48 * extBytes)) (p.f 13 0) (p.f 127 64) (p.f 63 48) (p.f 191 128)
      (p.f 27 16) (p.b 28) false) false noBound same ∧
  Completes rowQueryNode .queryNode always (fun p u => { r0 := (u.nodeWords (p.f 13 0)).1, r1 := (u.nodeWords (p.f 13 0)).2 }) same

/-- 13 R429, R430: PORT_CONTROL and PORT_STATUS. -/
def Obligations.PortCommandsComplete : Prop :=
  portBegun rowPortEnable .portEnable (fun p u => (u.link (p.f 5 0)).st = .disabled ∨ (u.link (p.f 5 0)).st = .failed)
    (fun p u => u.trainFrom (p.f 5 0)) ∧
  Completes rowPortEnable .portEnable (fun p u => ¬((u.link (p.f 5 0)).st = .disabled ∨ (u.link (p.f 5 0)).st = .failed))
    (fun p u => { status := sOkAlready, r0 := (u.link (p.f 5 0)).st.code }) same ∧
  portBegun rowPortDisable .portDisable (fun p u => (u.link (p.f 5 0)).st ≠ .disabled) (fun p u => u.disablePort (p.f 5 0)) ∧
  Completes rowPortDisable .portDisable (fun p u => (u.link (p.f 5 0)).st = .disabled)
    (fun _ _ => { status := sOkAlready, r0 := PortSt.disabled.code }) same ∧
  portBegun rowPortRetrain .portRetrain always
    (fun p u => if (u.link (p.f 5 0)).st = .up then u.drainPort (p.f 5 0) .training else u.retrain (p.f 5 0) (u.link (p.f 5 0)).st) ∧
  portBegun rowPortDrain .portDrain (fun p u => (u.link (p.f 5 0)).st ≠ .out) (fun p u => u.drainPort (p.f 5 0) .out) ∧
  Completes rowPortDrain .portDrain (fun p u => (u.link (p.f 5 0)).st = .out)
    (fun _ _ => { status := sOkAlready, r0 := PortSt.out.code }) same ∧
  portBegun rowPortRestore .portRestore always (fun p u => u.restorePort (p.f 5 0)) ∧
  Completes rowPortStatus .portStatus always
    (fun p u => { wr := [(p.f 127 64, (List.range (p.f 13 8)).flatMap fun i => u.portRecord (p.f 5 0 + i))] }) same

/-- 13 R438 to R443: CONFIGURE_COLLECTIVE. -/
def Obligations.CollectiveCommandsComplete : Prop :=
  Completes rowOpenReduce .openReduce always (fun _ _ => {})
    (fun p u => u.setSess (collKey p)
      { st := .open_, job := p.f 27 16, rangeOff := p.xf 63 0, rangeLines := p.xf 83 64, elem := p.xf 97 96, isMax := p.xf 98 98 == 1,
        det := p.xf 99 99 == 1, fwd := p.xf 100 100 == 1, fwdAddr := p.xf 191 128, cls := p.xf 105 104, contrib := contribs p }) ∧
  Completes rowCollectiveClose .collectiveClose (fun p u => (u.sess (collKey p)).st = .free) (fun _ _ => { status := sOkAlready }) same ∧
  Completes rowCollectiveClose .collectiveClose (fun p u => (u.sess (collKey p)).st ≠ .free) (fun _ _ => {})
    (fun p u => (u.dropTxns fun t => match t.who with | .collFwd e n _ => e * 16 + n == collKey p | _ => false).setSess (collKey p) {}) ∧
  Begins rowRunGather .runGather always (fun p _ => .collRun (collKey p / 16) (collKey p % 16)) true
    (fun p u => some (ms 250 + us (u.runSrcs p).length))
    (fun p u => (u.runSrcs p).zipIdx.foldl (fun v x => v.runRead (collKey p) x.2 x.1) (u.setSess (collKey p) (runSess false p u))) ∧
  Begins rowRunFilter .runFilter always (fun p _ => .collRun (collKey p / 16) (collKey p % 16)) true
    (fun p u => some (ms 250 + us (u.runSrcs p).length))
    (fun p u => (u.runSrcs p).zipIdx.foldl (fun v x => v.runRead (collKey p) x.2 x.1) (u.setSess (collKey p) (runSess true p u)))

/-- 14 R450, R451, R456, R460, R461, R463: the traffic commands. -/
def Obligations.TrafficCommandsComplete : Prop :=
  Completes rowSetShaper .setShaper (fun p u => p.b 16 = true ∧ (((u.link (p.f 5 0)).queue (p.f 12 8)).sh).on = false)
    (fun p _ => { r0 := 64 * p.f 82 64 })
    (fun p u => u.modLink (p.f 5 0) fun x => x.setQueue (p.f 12 8)
      { (u.link (p.f 5 0)).queue (p.f 12 8) with
        sh := { on := true, rate := p.f 63 32, depth := 64 * p.f 82 64, interval := p.f 112 96, tokens := 64 * p.f 82 64,
                nextAt := u.portCycles (p.f 5 0) + p.f 112 96 } }) ∧
  Completes rowSetShaper .setShaper
    (fun p u => p.b 16 = true ∧ (((u.link (p.f 5 0)).queue (p.f 12 8)).sh).on = true ∧
      (((u.link (p.f 5 0)).queue (p.f 12 8)).sh).wanted = (p.f 63 32, 64 * p.f 82 64, p.f 112 96))
    (fun p u => { status := sOkAlready, r0 := (((u.link (p.f 5 0)).queue (p.f 12 8)).sh).tokens }) same ∧
  Completes rowSetShaper .setShaper
    (fun p u => p.b 16 = true ∧ (((u.link (p.f 5 0)).queue (p.f 12 8)).sh).on = true ∧
      (((u.link (p.f 5 0)).queue (p.f 12 8)).sh).wanted ≠ (p.f 63 32, 64 * p.f 82 64, p.f 112 96))
    (fun p u => { r0 := (((u.link (p.f 5 0)).queue (p.f 12 8)).sh).tokens })
    (fun p u =>
      let q := (u.link (p.f 5 0)).queue (p.f 12 8)
      u.modLink (p.f 5 0) fun x => x.setQueue (p.f 12 8)
        { q with sh := { q.sh with pend := some (p.f 63 32, 64 * p.f 82 64, p.f 112 96) } }) ∧
  Completes rowSetShaper .setShaper (fun p u => p.b 16 = false ∧ (((u.link (p.f 5 0)).queue (p.f 12 8)).sh).on = true)
    (fun p u => { r0 := (((u.link (p.f 5 0)).queue (p.f 12 8)).sh).tokens })
    (fun p u => u.modLink (p.f 5 0) fun x => x.setQueue (p.f 12 8) { (u.link (p.f 5 0)).queue (p.f 12 8) with sh := {} }) ∧
  Completes rowSetShaper .setShaper (fun p u => p.b 16 = false ∧ (((u.link (p.f 5 0)).queue (p.f 12 8)).sh).on = false)
    (fun p u => { status := sOkAlready, r0 := (((u.link (p.f 5 0)).queue (p.f 12 8)).sh).tokens }) same ∧
  (∀ v, Completes rowStageGateList .stageGateList (fun p u => u.dueGate (p.f 5 0) = v)
    (fun p _ => { r0 := v.portCycles (p.f 5 0), r1 := b2n (v.link (p.f 5 0)).staged.isSome })
    (fun p _ => v.modLink (p.f 5 0) fun x => { x with staged := some { entries := gateEntries p, adoptAt := p.f 127 64 } })) ∧
  (∀ v, Completes rowGateListCancel .gateListCancel (fun p u => u.dueGate (p.f 5 0) = v ∧ (v.link (p.f 5 0)).staged ≠ none)
    (fun p _ => { r0 := v.portCycles (p.f 5 0), r1 := 1 }) (fun p _ => v.modLink (p.f 5 0) fun x => { x with staged := none })) ∧
  (∀ v, Completes rowGateListCancel .gateListCancel (fun p u => u.dueGate (p.f 5 0) = v ∧ (v.link (p.f 5 0)).staged = none)
    (fun p _ => { status := sOkAlready, r0 := v.portCycles (p.f 5 0) }) (fun _ _ => v)) ∧
  (∀ g, Completes rowReadGateList .readGateList (fun p u => u.gateRead p = g)
    (fun p u => { wr := [(p.f 127 64,
      toLE 64 (pack [(9, g.1.entries.length), (7, 0), (8, g.2), (40, 0), (64, g.1.adoptAt), (64, u.portCycles (p.f 5 0)),
        (64, (g.1.entries.map (·.2)).foldl (· + ·) 0), (256, 0)]) ++
      g.1.entries.flatMap fun e => toLE 8 (pack [(32, e.1), (24, e.2), (8, 0)]))] }) same) ∧
  (∀ q, Completes rowSamplingQueue .samplingQueue
    (fun p u => (u.link (p.f 13 8)).queue (p.f 20 16) = q ∧ q.smpOn = p.b 21 ∧ q.smpLog2 = p.f 28 24 ∧ p.b 22 = false)
    (fun _ _ => { status := sOkAlready }) same) ∧
  (∀ q, Completes rowSamplingQueue .samplingQueue
    (fun p u => (u.link (p.f 13 8)).queue (p.f 20 16) = q ∧ ¬(q.smpOn = p.b 21 ∧ q.smpLog2 = p.f 28 24) ∧ p.b 22 = false)
    (fun _ _ => {}) (fun p u => u.modLink (p.f 13 8) fun x => x.setQueue (p.f 20 16)
      { q with smpOn := p.b 21, smpLog2 := p.f 28 24, smpCount := 0 })) ∧
  (∀ q, Completes rowSamplingQueue .samplingQueue (fun p u => (u.link (p.f 13 8)).queue (p.f 20 16) = q ∧ p.b 22 = true)
    (fun _ _ => {})
    (fun p u =>
      let n := qix (p.f 13 8) (p.f 20 16) * 16
      let v := (List.range 16).foldl (fun w b => (w.setCtr kHistDepth 0 (n + b)).setCtr kHistDelay 0 (n + b)) u
      v.modLink (p.f 13 8) fun x => x.setQueue (p.f 20 16) { q with smpOn := p.b 21, smpLog2 := p.f 28 24, smpCount := 0 })) ∧
  Completes rowSamplingRing .samplingRing
    (fun p u => if p.b 21 then u.net.ringOn = true ∧ u.net.ringOff = p.f 127 64 ∧ u.net.ringExt = p.f 134 128 else u.net.ringOn = false)
    (fun _ _ => { status := sOkAlready }) same ∧
  Completes rowSamplingRing .samplingRing
    (fun p u => ¬ if p.b 21 then u.net.ringOn = true ∧ u.net.ringOff = p.f 127 64 ∧ u.net.ringExt = p.f 134 128 else u.net.ringOn = false)
    (fun _ _ => {})
    (fun p u => { u with net := { u.net with ringOn := p.b 21, ringOff := p.f 127 64, ringExt := p.f 134 128 } }.setCtr kSampleWrites 0)

/-- 15 R480, R486 to R494: the Tumbler commands. -/
def Obligations.TumblerCommandsComplete : Prop :=
  (∀ n, Completes rowCreateTable .createTable
    (fun p u => runPlace (newRows p) (u.rowGaps (b2n (p.b 8))) (u.choose (runPlaces (u.rowGaps (b2n (p.b 8))) (newRows p))).1 = some n)
    (fun _ _ => { r0 := n })
    (fun p u => (u.choose (runPlaces (u.rowGaps (b2n (p.b 8))) (newRows p))).2.setTable (p.f 3 0)
      { active := true, width := newWidth p, shadow := p.b 6, cascade := p.b 7, die := b2n (p.b 8), first := n, depth := p.f 49 32,
        job := p.f 27 16 })) ∧
  Completes rowDestroyTable .destroyTable (fun p u => (u.table (p.f 3 0)).active = false) (fun _ _ => { status := sOkAlready }) same ∧
  Begins rowDestroyTable .destroyTable (fun p u => (u.table (p.f 3 0)).active = true) (fun p _ => .tumbler (p.f 3 0)) false noBound
    (fun p u => (u.adopt kInsertBound).queueJob u.lastCmd (p.f 3 0) false .destroy) ∧
  Begins rowInsertEntry .insertEntry always (fun p _ => .tumbler (p.f 3 0)) false
    (fun _ u => some (us ((u.adopt kInsertBound).kv kInsertBound) + ms 250))
    (fun p u => (u.adopt kInsertBound).queueJob u.lastCmd (p.f 3 0) (p.b 4) (.insert (insEntry p (u.adopt kInsertBound)) 0)) ∧
  Begins rowUpdateEntry .updateEntry always (fun p _ => .tumbler (p.f 3 0)) false noBound
    (fun p u => (u.adopt kInsertBound).queueJob u.lastCmd (p.f 3 0) (p.b 4)
      (.update 0 (updKeys p u).1 { key := (updKeys p u).2, result := p.f 47 16, flags := p.f 11 8 } 0)) ∧
  Begins rowDeleteEntry .deleteEntry always (fun p _ => .tumbler (p.f 3 0)) false noBound
    (fun p u => (u.adopt kInsertBound).queueJob u.lastCmd (p.f 3 0) (p.b 4) (if p.b 5 then .clearAll else .delete (insKey p u))) ∧
  (∀ x, Completes rowSearch .search
    (fun p u => p.b 5 = false ∧ (List.range (p.f 28 16)).foldl (fun (x : List Byte × State) i =>
      let h := x.2.searchOne (p.f 3 0) (p.b 4) (keyRec p (u.table (p.f 3 0)).width i) (p.f 351 192)
      (x.1 ++ searchRec h.1 0 sOK, h.2)) ([], u) = x)
    (fun p _ => { wr := [(p.f 191 128, x.1)] }) (fun _ _ => x.2)) ∧
  Completes rowSearch .search (fun p u => p.b 5 = true ∧ u.tum.ringDown = true)
    (fun p _ => { wr := [(p.f 191 128, (List.range (p.f 28 16)).flatMap fun _ => searchRec none 0 sTimeout)] }) same ∧
  Begins rowSearch .search (fun p u => p.b 5 = true ∧ u.tum.ringDown = false)
    (fun p _ => .search (p.f 3 0) (p.f 28 16) (p.f 191 128) []) true noBound
    (fun p u => (List.range (p.f 28 16)).foldl
      (fun v i => v.cascSearch (p.f 3 0) (u.lastCmd + 1) 0 i (keyRec p (u.table (p.f 3 0)).width i) (p.f 351 192)) u) ∧
  Begins rowSwapShadow .swapShadow always (fun p _ => .tumbler (p.f 3 0)) false noBound
    (fun p u => (u.adopt kInsertBound).queueJob u.lastCmd (p.f 3 0) false .swap)

/-- 16 R511, R512, R520, R521, R522, 17 R547, R555: the identity, manifest, log, service and boot commands. -/
def Obligations.ServiceCommandsComplete : Prop :=
  (∀ v, Completes rowGetEvidence .getEvidence (fun _ u => u.signWay = (.now, v))
    (fun p _ => v.evidenceAns (p.f 255 0) (p.f 319 256)) (fun _ _ => v.useLeaf)) ∧
  (∀ v, Begins rowGetEvidence .getEvidence (fun _ u => u.signWay = (.later, v)) (fun p _ => .evidence (p.f 255 0) (p.f 319 256)) false
    (fun _ _ => some (ms 5000)) (fun _ _ => v)) ∧
  Completes rowGetCertificates .getCertificates always
    (fun p u => { r0 := (u.certObject (p.b 0)).length, wr := [(p.f 127 64, u.certObject (p.b 0))] }) same ∧
  Completes rowStageManifest .stageManifest
    (fun p u => ∃ m, u.compo.staged = some m ∧ m.digest = (manifestOf (manifestBytes p)).digest) (fun _ _ => { status := sOkAlready }) same ∧
  Completes rowStageManifest .stageManifest
    (fun p u => (∀ m, u.compo.staged = some m → m.digest ≠ (manifestOf (manifestBytes p)).digest) ∧ p.b 96 = false)
    (fun _ _ => {}) (fun p u => u.stage (manifestBytes p) (p.b 97)) ∧
  Begins rowStageManifest .stageManifest
    (fun p u => (∀ m, u.compo.staged = some m → m.digest ≠ (manifestOf (manifestBytes p)).digest) ∧ p.b 96 = true ∧ u.flashFree = true)
    (fun p _ => .persist (manifestOf (manifestBytes p)).body (manifestBytes p) (p.b 97)) true noBound
    (fun p u => u.beginPersist u.lastCmd (manifestBytes p) (p.b 97)) ∧
  Begins rowStageManifest .stageManifest
    (fun p u => (∀ m, u.compo.staged = some m → m.digest ≠ (manifestOf (manifestBytes p)).digest) ∧ p.b 96 = true ∧ u.flashFree = false)
    (fun p _ => .persist (manifestOf (manifestBytes p)).body (manifestBytes p) (p.b 97)) false noBound same ∧
  (∀ e es, Completes rowReadEventLog .readEventLog (fun p u => (u.logFrom (p.f 31 0)).take (p.f 44 32) = e :: es)
    (fun p _ => { r0 := e.seq, r1 := es.length + 1, wr := [(p.f 127 64, (e :: es).flatMap LogEntry.bytes)] }) same) ∧
  Completes rowReadEventLog .readEventLog (fun p u => (u.logFrom (p.f 31 0)).take (p.f 44 32) = [])
    (fun p _ => { r0 := p.f 31 0, r1 := 0 }) same ∧
  Completes rowServiceDrain .serviceDrain
    (fun p u => (p.f 1 0 = 0 ∧ p.b 16 = false ∧ (u.link (p.f 13 8)).st = .out) ∨
      (p.f 1 0 = 1 ∧ p.b 16 = false ∧ (u.drive (p.f 13 8)).st = .safe) ∨ (1 < p.f 1 0 ∧ u.rcv.modSt = .safe))
    (fun _ _ => { status := sOkAlready }) same ∧
  (∀ v, Begins rowServiceDrain .serviceDrain
    (fun p u => p.f 1 0 = 0 ∧ ¬(p.b 16 = false ∧ (u.link (p.f 13 8)).st = .out) ∧
      (if p.b 16 then u.restorePort (p.f 13 8) else u.drainPort (p.f 13 8) .out) = v ∧ (v.link (p.f 13 8)).st = .draining)
    (fun p _ => .drain (p.f 1 0) (p.f 13 8)) true (fun p _ => some (serviceBound (p.f 1 0) v)) (fun _ _ => v)) ∧
  (∀ v, Completes rowServiceDrain .serviceDrain
    (fun p u => p.f 1 0 = 0 ∧ ¬(p.b 16 = false ∧ (u.link (p.f 13 8)).st = .out) ∧
      (if p.b 16 then u.restorePort (p.f 13 8) else u.drainPort (p.f 13 8) .out) = v ∧ (v.link (p.f 13 8)).st ≠ .draining)
    (fun _ _ => {}) (fun _ _ => v)) ∧
  (∀ v, Begins rowServiceDrain .serviceDrain
    (fun p u => (p.f 1 0 = 1 ∧ p.b 16 = true ∧ u.powerBay (p.f 13 8) = v) ∨
      (p.f 1 0 = 1 ∧ p.b 16 = false ∧ (u.drive (p.f 13 8)).st ≠ .safe ∧ u.drainBay (p.f 13 8) = v) ∨
      (1 < p.f 1 0 ∧ u.rcv.modSt ≠ .safe ∧ u.drainModule = v))
    (fun p _ => .drain (p.f 1 0) (p.f 13 8)) true (fun p _ => some (serviceBound (p.f 1 0) v)) (fun _ _ => v)) ∧
  Begins rowFabricBoot .fabricBoot always (fun _ _ => .fabricBoot) true noBound
    (fun _ u => if u.compo.phase = .idle then u.initiate else u)

/-! ## Events, packets and register accesses: where they act, what they do, and that they do nothing elsewhere -/

/-- 02 R40, R41, R43, R46, R49: register writes and doorbells. -/
def Obligations.RegisterWritesAct : Prop :=
  (∀ v, Acts (.hostIfEnable 8 v) (fun s => s.runs = true ∧ bitAt v.toNat 0 = true) State.writeEnable) ∧
  (∀ v, Acts (.hostIfDisable 8 v) (fun s => s.runs = true ∧ bitAt v.toNat 0 = false) State.teardown) ∧
  (∀ off v, (off = 0x20 ∨ off = 0x28 ∨ off = 0x30) →
    Happens (.registerWrite .bar0 off 8 v) (fun s => s.runs = true) (fun s => s.setupWrite off v.toNat)) ∧
  (∀ v, Acts (.registerWrite .bar0 0x38 8 v) (fun s => s.runs = true ∧ bitAt v.toNat 0 = true) State.writeEnable) ∧
  (∀ v, Acts (.registerWrite .bar0 0x38 8 v) (fun s => s.runs = true ∧ bitAt v.toNat 0 = false) State.teardown) ∧
  (∀ off w v, off / 8 ≠ 4 ∧ off / 8 ≠ 5 ∧ off / 8 ≠ 6 ∧ off / 8 ≠ 7 → doorbellAt off = none →
    Acts (.registerWrite .bar0 off w v) (fun _ => True) id) ∧
  (∀ off w v ty n, doorbellAt off = some (ty, n) →
    Acts (.registerWrite .bar0 off w v) (fun s => s.runs = true) (fun s => s.doorbell ty n w v)) ∧
  (∀ off w v, Happens (.registerWrite .bar4 off w v) (fun s => s.board.pwrok = true ∧ off < 0x8000)
    (fun s => s.msixWrite (off / 16) (off % 16) (toLE (min w (16 - off % 16)) v.toNat))) ∧
  (∀ n w v, Acts (.submissionDoorbell n w v) (fun s => s.fwUp = true) (fun s => s.ringDoorbell 0 n (v.toNat % 2 ^ 32) (w == 4))) ∧
  (∀ n w v, Acts (.completionDoorbell n w v) (fun s => s.fwUp = true) (fun s => s.ringDoorbell 1 n (v.toNat % 2 ^ 32) (w == 4))) ∧
  (∀ n w v, Acts (.outputDoorbell n w v) (fun s => s.fwUp = true) (fun s => s.ringDoorbell 2 n (v.toNat % 2 ^ 32) (w == 4))) ∧
  (∀ n w v, Acts (.outputDoorbell n w v) (fun s => s.runs = true ∧ s.rcv.ctlRestart = true)
    (fun s => { s with host := { s.host with latched := s.host.latched ++ [(2, n, v.toNat % 2 ^ 32, w == 4)] } }))

/-- 02 R41: a 64-bit word written with another width has no effect the spec gives; the model stops with a fault of that name (the
model's choice of stop, log entry 57). -/
def Obligations.SplitRegisterWritesStop : Prop :=
  (∀ w v s, w ≠ 8 → exec (.hostIfEnable w v) s = .fault .registerWidth ∧ exec (.hostIfDisable w v) s = .fault .registerWidth) ∧
  ∀ off w v s, s.runs = true → (off / 8 = 4 ∨ off / 8 = 5 ∨ off / 8 = 6 ∨ off / 8 = 7) → (w ≠ 8 ∨ off % 8 ≠ 0) →
    exec (.registerWrite .bar0 off w v) s = .fault .registerWidth

/-- 02 R43, R44, R45, R53, R54, R66, 04 R146: the host interface's own events and the BAR2 window. -/
def Obligations.HostInterfaceEventsAct : Prop :=
  Happens .hostIfReady
    (fun s => s.runs = true ∧ s.host.enable = true ∧ s.host.cfgError = false ∧ s.host.ready = false ∧ s.host.tearing = false)
    (fun s => { s.adminRings with host := { s.adminRings.host with ready := true, evSeq := 0 } }) ∧
  Happens .teardownComplete (fun s => s.runs = true ∧ s.host.tearing = true ∧ s.inflight = [])
    (fun s => { s with host := { s.host with ready := false, tearing := false } }) ∧
  Happens .hostLinkDown (fun s => s.runs = true) State.teardown ∧
  Happens .hotReset (fun s => s.runs = true) State.teardown ∧
  Happens .d3hotEntry (fun s => s.runs = true) State.teardown ∧
  (∀ off len data, Acts (.bar2Access true off len data)
    (fun s => s.runs = true ∧ s.bar2Ok (s.kv kBar2Window * 2 ^ 36 + off) = true ∧ s.kv kBar2Window * 2 ^ 36 + off + len ≤ hbmSize)
    (fun s => (s.hbmWrite (s.kv kBar2Window * 2 ^ 36 + off) (data.take len)).cleanLines (s.kv kBar2Window * 2 ^ 36 + off) len)) ∧
  (∀ off len data, Acts (.bar2Access false off len data)
    (fun s => s.runs = true ∧ s.bar2Ok (s.kv kBar2Window * 2 ^ 36 + off) = true ∧ s.kv kBar2Window * 2 ^ 36 + off + len ≤ hbmSize)
    (fun s => { s with host := { s.host with bar2Data := s.hbmRead (s.kv kBar2Window * 2 ^ 36 + off) len } })) ∧
  (∀ off len data, Acts (.bar2Access true off len data)
    (fun s => s.runs = true ∧ ¬(s.bar2Ok (s.kv kBar2Window * 2 ^ 36 + off) = true ∧ s.kv kBar2Window * 2 ^ 36 + off + len ≤ hbmSize))
    (fun s => s.bump kBar2Denied)) ∧
  (∀ off len data, Acts (.bar2Access false off len data)
    (fun s => s.runs = true ∧ ¬(s.bar2Ok (s.kv kBar2Window * 2 ^ 36 + off) = true ∧ s.kv kBar2Window * 2 ^ 36 + off + len ≤ hbmSize))
    (fun s => { s.bump kBar2Denied with host := { (s.bump kBar2Denied).host with bar2Data := List.replicate len 0 } })) ∧
  (∀ c f, Acts (.commandTimeout c)
    (fun s => s.runs = true ∧ s.inflight.find? (·.id == c) = some f ∧ f.committed = false ∧ f.due ≤ s.now ∧
      (∀ i, f.wait ≠ .move i) ∧ ∀ n h r, f.wait ≠ .moveAsk n h r)
    (fun s => s.abandonCmd f sTimeout)) ∧
  (∀ n t, Acts (.irqDelayExpiry false n)
    (fun s => s.runs = true ∧ (s.cqr n).st = .active ∧ (s.cqr n).firstAt = some t ∧ t + us (s.cqr n).delay ≤ s.now)
    (fun s => (s.setCq n (s.cqr n).signalled).signalVector (s.cqr n).vector)) ∧
  (∀ n t, Acts (.irqDelayExpiry true n)
    (fun s => s.runs = true ∧ (s.oqr n).st = .active ∧ (s.oqr n).firstAt = some t ∧ t + us (s.oqr n).delay ≤ s.now)
    (fun s => (s.setOq n (s.oqr n).signalled).signalVector (s.oqr n).vector)) ∧
  (∀ c o, Acts (.heldTokenWrite c)
    (fun s => s.runs = true ∧ s.outHeld.find? (·.ctx == c) = some o ∧ s.ringGone o.ring = false ∧ (s.oqr o.ring).room ≠ 0)
    (fun s => ((({ s with outHeld := s.outHeld.erase o } : State).oqPost o.ring o.handle o.cookie o.ent).delivered o).settleDrain c)) ∧
  (∀ c f n h r, Acts (.moveStateBoundExpiry c)
    (fun s => s.runs = true ∧ (s.inflight.find? fun g => g.id == c) = some f ∧ f.due ≤ s.now ∧ f.wait = .moveAsk n h r)
    (fun s => (s.dropTxns fun t => t.who == .command f.id).finish f (refuse sTimeout))) ∧
  (∀ c f i, Acts (.moveStateBoundExpiry c)
    (fun s => s.runs = true ∧ (s.inflight.find? fun g => g.id == c) = some f ∧ f.due ≤ s.now ∧ f.wait = .move i)
    (fun s => s.withdraw i false))

/-- 01 R24, R30, R31, 18 R563 to R567, R574 to R578: power, the rails, the board's pins and thermal trips. -/
def Obligations.PowerEventsAct : Prop :=
  (∀ m, Happens (.powerWindow m) (fun s => s.runs = true ∧ s.pow.windowAt + us (s.kv kPowerWindow) ≤ s.now) (fun s => s.windowEnd m)) ∧
  (∀ r v i, Acts (.pmbusPoll r v i) (fun s => s.runs = true ∧ s.railOk r v = true)
    (fun s => { s with board := { s.board with vout := Tab.put 0 s.board.vout r v, iout := Tab.put 0 s.board.iout r i,
                                               railBad := Tab.erase s.board.railBad r } })) ∧
  (∀ r v i, Acts (.pmbusPoll r v i) (fun s => s.runs = true ∧ s.railOk r v = false ∧ Tab.find? s.board.railBad r = none)
    (fun s => { s with board := { s.board with vout := Tab.put 0 s.board.vout r v, iout := Tab.put 0 s.board.iout r i,
                                               railBad := Tab.set s.board.railBad r s.now } })) ∧
  (∀ r v i t, Acts (.pmbusPoll r v i)
    (fun s => s.runs = true ∧ s.railOk r v = false ∧ Tab.find? s.board.railBad r = some t ∧ s.now < t + ms 1)
    (fun s => { s with board := { s.board with vout := Tab.put 0 s.board.vout r v, iout := Tab.put 0 s.board.iout r i } })) ∧
  (∀ r v i t, Acts (.pmbusPoll r v i)
    (fun s => s.runs = true ∧ s.railOk r v = false ∧ Tab.find? s.board.railBad r = some t ∧ t + ms 1 ≤ s.now)
    (fun s => ({ s with board := { s.board with vout := Tab.put 0 s.board.vout r v, iout := Tab.put 0 s.board.iout r i } } : State).railFault
      r 0 v)) ∧
  (∀ st se w r, ((st.zip (List.range 10)).find? fun x => statusFault x.1) = some (w, r) →
    Happens (.pmbAlert st se) (fun s => s.runs = true) (fun s => s.railFault r w.toNat (se.getD r 0))) ∧
  (∀ c f, Happens (.timingMonitorReport c f) (fun s => s.runs = true ∧ ∀ t, s.board.voutAt = some t → t + us 100 ≤ s.now)
    (fun s => { s with board := { s.board with
      vddCd := loopStep 650 850 c s.board.vddCd, vddFd := loopStep 700 800 f s.board.vddFd,
      voutAt := if loopStep 650 850 c s.board.vddCd = s.board.vddCd ∧ loopStep 700 800 f s.board.vddFd = s.board.vddFd then s.board.voutAt
                else some s.now } })) ∧
  (∀ d t, Happens (.dieOvertempTrip d t) (fun s => s.runs = true ∧ 110 ≤ t) State.overtemp) ∧
  Happens .prochotAssert (fun s => s.runs = true ∧ s.pow.prochot = false)
    (fun s => { s with pow := { s.pow with prochot := true, prochotAt := s.now } }) ∧
  Happens .prochotDeassert (fun s => s.runs = true) (fun s => { s with pow := { s.pow with prochot := false } }) ∧
  Happens .sysPwrokRise (fun s => s.board.pwrok = false) (fun s => { s with board := { s.board with pwrok := true } }) ∧
  Happens .sysPwrokFall (fun s => s.board.pwrok = true) State.powerOff ∧
  Happens .flashReq (fun s => s.board.pwrok = true)
    (fun s => { s with board := { s.board with flashReq := true, flashGnt := s.board.flashGnt || !s.idn.flashBusy } }) ∧
  Acts .flashRelease (fun s => s.board.pwrok = true ∧ s.board.flashReq = true ∧ s.fwUp = true)
    (fun s => { s with board := { s.board with flashReq := false, flashGnt := false } }.nextPersist) ∧
  Acts .flashRelease (fun s => s.board.pwrok = true ∧ s.board.flashReq = true ∧ s.fwUp = false)
    (fun s => { s with board := { s.board with flashReq := false, flashGnt := false } }) ∧
  (∀ f b u, Acts .flashWriteComplete
    (fun s => s.runs = true ∧ s.idn.flashBusy = true ∧
      (s.inflight.findSome? fun f => match f.wait with
        | .persist _ b _ => if f.committed then some (f, b) else none
        | _ => none) = some (f, b) ∧
      (({ s with idn := { s.idn with flashBusy := false } } : State).flashManifest b).finish f {} = u ∧ u.levelWait = none ∧
      u.board.flashReq = false)
    (fun _ => u.nextPersist)) ∧
  Acts .flashWriteComplete (fun s => s.runs = true ∧ s.idn.flashBusy = false) id ∧
  (∀ f l, Acts .selfRefreshExit (fun s => s.runs = true ∧ s.levelWait = some (f, l) ∧ s.pow.level = 2 ∧ l < 2)
    (fun s => (s.setLevel l).finish f {}))

/-- 16 R502 to R507, 18 R566: the cold boot. -/
def Obligations.ColdBootEventsAct : Prop :=
  (∀ b first, Acts .stage1Start
    (fun s => s.runs = true ∧ s.idn.boot = .rom ∧ s.board.flashGnt = false ∧ s.slotOrder.find? s.slotOk = some b ∧
      (first = true ↔ s.idn.badA = false ∧ s.idn.badB = false))
    (fun s =>
      let u := ({ s with idn := { s.idn with boot := .stage1, slotB := b } } : State).setMeas 1 (imageDigest (s.bundle b) 1)
      if first then u.burnSubtree else u)) ∧
  Acts .stage1Start (fun s => s.runs = true ∧ s.idn.boot = .rom ∧ s.board.flashGnt = false ∧ s.slotOrder.find? s.slotOk = none)
    State.bootStops ∧
  Acts .stage1Start (fun s => ¬(s.runs = true ∧ s.idn.boot = .rom ∧ s.board.flashGnt = false)) id ∧
  (∀ b h u v, Acts .firmwareImagesChecked
    (fun s => s.runs = true ∧ s.idn.boot = .stage1 ∧ s.board.flashGnt = false ∧ s.idn.slotB = b ∧ s.bundle b = h ∧
      [2, 3, 4].all (s.kindOk b h) = true ∧ (bundleEntries h).all (s.imageOk b h) = true ∧
      ((s.setMeas 2 (imageDigest h 2)).setMeas 3 (imageDigest h 3)).setMeas 4 (imageDigest h 4) = u ∧
      (if u.idn.exhausted then u.recordFuses else u) = v)
    (fun _ => { v with idn := { v.idn with boot := .running, identityOk := identityMatches },
                       compo := { v.compo with staged := v.flashStored } }.coldReady)) ∧
  (∀ b h u, Acts .firmwareImagesChecked
    (fun s => s.runs = true ∧ s.idn.boot = .stage1 ∧ s.board.flashGnt = false ∧ s.idn.slotB = b ∧ s.bundle b = h ∧
      ¬([2, 3, 4].all (s.kindOk b h) = true ∧ (bundleEntries h).all (s.imageOk b h) = true) ∧
      { s with idn := { s.idn with boot := .rom, badA := s.idn.badA || !b, badB := s.idn.badB || b } } = u)
    (fun _ => if u.idn.badA && u.idn.badB then u.bootStops else u)) ∧
  Acts .firmwareImagesChecked (fun s => ¬(s.runs = true ∧ s.idn.boot = .stage1 ∧ s.board.flashGnt = false)) id ∧
  (∀ failed, Happens (.hbmTrainingComplete failed)
    (fun s => s.runs = true ∧ (s.idn.boot = .stage1 ∨ s.idn.boot = .running) ∧ s.idn.hbmUp = false)
    (fun s => (failed.foldl (fun (u : State) h => u.fenceDie (stackDie h) 1) { s with idn := { s.idn with hbmUp := true } }).coldReady)) ∧
  Happens .subtreeGenerated
    (fun s => s.runs = true ∧ (s.idn.boot = .stage1 ∨ s.idn.boot = .running) ∧ s.idn.signing = false ∧ s.idn.exhausted = false ∧
      s.idn.subtree < s.idn.thermo)
    (fun s => { s.recordFuses with idn := { s.recordFuses.idn with signing := true } }.serveEvidence)

/-- 11 R345 to R355, R366, R367, 17 R549 to R556: the drives, the buttons, demotion and the extents' endings. -/
def Obligations.TierEventsAct : Prop :=
  (∀ b, Acts (.buttonPress b) (fun s => s.fwUp = true) (fun s => s.press (buttonCode b))) ∧
  (∀ b, Acts (.buttonPress b) (fun s => s.runs = true ∧ s.rcv.ctlRestart = true)
    (fun s => { s with rcv := { s.rcv with buttons := s.rcv.buttons ++ [buttonCode b] } })) ∧
  (∀ d t, Acts (.abortWindowExpiry (.drive d))
    (fun s => s.fwUp = true ∧ (s.drive d).windowEnd = some t ∧ (s.drive d).st = .active ∧ t ≤ s.now) (fun s => s.drainBay d)) ∧
  Happens (.abortWindowExpiry .module) (fun s => s.fwUp = true ∧ s.rcv.modSt = .abortWindow ∧ s.rcv.modAt ≤ s.now) State.drainModule ∧
  (∀ d c, Acts (.drivePresenceChange d true c) (fun s => s.runs = true ∧ (s.drive d).present = false ∧ s.bayComposed d = true)
    (fun s => (s.setDrive d { s.drive d with present := true, capacity := c }).powerBay d)) ∧
  (∀ d c, Acts (.drivePresenceChange d false c) (fun s => s.runs = true ∧ (s.drive d).present = true ∧ (s.drive d).st = .active)
    (fun s => (s.setDrive d { s.drive d with present := false, training := false }).failBay d)) ∧
  (∀ d c, Acts (.drivePresenceChange d false c)
    (fun s => s.runs = true ∧ (s.drive d).present = true ∧ ((s.drive d).st = .safe ∨ (s.drive d).st = .failed))
    (fun s => (s.setDrive d { s.drive d with present := false, training := false }).setBay d .absent 0)) ∧
  (∀ d, Happens (.driveFailure d) (fun s => s.runs = true ∧ ((s.drive d).st = .active ∨ (s.drive d).st = .draining)) (fun s => s.failBay d)) ∧
  (∀ n b o, Acts (.driveIoComplete n true b) (fun s => s.runs = true ∧ s.tierOps.find? (·.id == n) = some o ∧ o.why = .sector)
    (fun s => (s.tierDone o b).sectorOut o.id true)) ∧
  (∀ n b o, Acts (.driveIoComplete n true b) (fun s => s.runs = true ∧ s.tierOps.find? (·.id == n) = some o ∧ o.why ≠ .sector)
    (fun s => s.tierDone o b)) ∧
  (∀ n b o, Acts (.driveIoComplete n false b) (fun s => s.runs = true ∧ s.tierOps.find? (·.id == n) = some o ∧ o.left = 0)
    (fun s => s.ioLost o sTierFault)) ∧
  (∀ n b o, Acts (.driveIoComplete n false b) (fun s => s.runs = true ∧ s.tierOps.find? (·.id == n) = some o ∧ o.left ≠ 0)
    (fun s => s.retryTier o)) ∧
  (∀ n o, Acts (.tierTimeout n)
    (fun s => s.runs = true ∧ s.tierOps.find? (·.id == n) = some o ∧ o.due ≤ s.now ∧ (o.why.isRead = true ∨ o.left = 0))
    (fun s => s.ioLost o sTimeout)) ∧
  (∀ n o, Acts (.tierTimeout n)
    (fun s => s.runs = true ∧ s.tierOps.find? (·.id == n) = some o ∧ o.due ≤ s.now ∧ o.why.isRead = false ∧ o.left ≠ 0)
    (fun s => s.retryTier o)) ∧
  (∀ d, Happens (.driveDrainComplete d) (fun s => s.runs = true ∧ (s.drive d).st = .draining ∧ s.demotedOn d = [])
    (fun s => (s.setBay d .safe 0).finishAll (fun w => w == .drain 1 d) { r0 := (s.drive d).ended })) ∧
  (∀ d, Acts (.driveTrained d true) (fun s => s.runs = true ∧ (s.drive d).training = true) (fun s => s.activateBay d)) ∧
  (∀ d, Acts (.driveTrained d false) (fun s => s.runs = true ∧ (s.drive d).training = true)
    (fun s => (s.setDrive d { s.drive d with training := false }).setBay d .failed 0)) ∧
  Acts .demoteCheck
    (fun s => s.fwUp = true ∧ s.pow.level < 2 ∧ ((s.adopt kPauseDemote).adopt kDemoteEnable).kv kDemoteEnable = 1)
    (fun s => (((s.adopt kPauseDemote).adopt kDemoteEnable).ctxsThat fun _ => true).foldl
      (fun u i => if u.demoteDue i then u.startDemotion i else u) ((s.adopt kPauseDemote).adopt kDemoteEnable)) ∧
  (∀ c r, Acts (.demotionCommit c)
    (fun s => s.runs = true ∧ s.regionOf c = some r ∧ (s.ctx c).demoting = true ∧ s.tierOpsFor (TierFor.demotes c) = [])
    (fun s => ((((List.range r.count).foldl (fun u k =>
        if (u.ext 1 (r.first + k)).st = .held then u.setExt 1 (r.first + k) {} else u.scrubExt 1 (r.first + k)) s).setRegion
      { r with hasRun := false }).modCtx c fun x => { x with demoting := false, demoted := true }).bump kDemotions)) ∧
  (∀ c r, Acts (.recallCommit c)
    (fun s => s.runs = true ∧ (s.seekRun c).regionOf c = some r ∧ ((s.seekRun c).ctx c).recalling = true ∧ r.hasRun = true ∧
      (s.seekRun c).tierOpsFor (TierFor.recalls c) = [] ∧ (s.seekRun c).runs = true)
    (fun s => (((((r.demoted.foldl (fun u d => u.releaseExt 2 d.2) (s.seekRun c)).setRegion { r with demoted := [] }).settleRevokes).modCtx c
      fun x => { x with demoted := false, recalling := false }).bump kRecalls).tryDecode c)) ∧
  (∀ c, Happens (.recallTimeout c) (fun s => s.runs = true ∧ (s.ctx c).recalling = true ∧ (s.ctx c).recallBy ≤ s.now)
    (fun s => s.lostRecall c)) ∧
  (∀ t e, Happens (.extentDrainEnd t e)
    (fun s => s.runs = true ∧ (s.ext t e).st = .draining ∧ (s.ext t e).who.owner = none ∧ s.extBusy t e = false)
    (fun s => (s.releaseExt t e).settleRevokes)) ∧
  (∀ t e c, Acts (.extentDrainTimeout t e)
    (fun s => s.runs = true ∧ (s.ext t e).st = .draining ∧ (s.ext t e).drainBy ≤ s.now ∧ (s.ext t e).who.owner = some c)
    (fun s => ((s.revokeEnded (s.ext t e).cmd).endReq c sExtentRevoked).settleRevokes)) ∧
  (∀ t e, Acts (.extentDrainTimeout t e)
    (fun s => s.runs = true ∧ (s.ext t e).st = .draining ∧ (s.ext t e).drainBy ≤ s.now ∧ (s.ext t e).who.owner = none)
    (fun s => ((((s.tierOps.filter fun o => t == 2 && o.why == .sector && o.offset / extBytes == e).foldl
      (fun u o => u.tierLost o sTimeout) s).releaseExt t e).settleRevokes))) ∧
  (∀ e, Happens (.scrubComplete 2 e) (fun s => s.runs = true ∧ (s.ext 2 e).st = .scrubbing)
    (fun s =>
      let u := { s.setExt 2 e {} with t2 := Mem.zero (s.setExt 2 e {}).t2 (t2Off e) extBytes }
      (u.ctxsThat fun c => c.recalling).foldl State.seekRun u.settleRevokes)) ∧
  (∀ e, Happens (.scrubComplete 1 e) (fun s => s.runs = true ∧ (s.ext 1 e).st = .scrubbing)
    (fun s =>
      let v := s.setExt 1 e {}
      let u := { v with hbm := Mem.zero v.hbm (e * extBytes) extBytes
                        fab := { v.fab with hbmPoison := NSet.delRange v.fab.hbmPoison (e * 16384) 16384 } }
      (u.ctxsThat fun c => c.recalling).foldl State.seekRun u.settleRevokes))

/-- 13 R417 to R430: training, flits, replay, retraining and draining of a link. -/
def Obligations.LinkEventsAct : Prop :=
  (∀ l u, Acts (.linkTrained l)
    (fun s => s.linkLive l = true ∧ (s.link l).st = .training ∧ (s.link l).backTo = .down ∧
      ((s.setLink l { s.link l with
        txSeq := 0, kept := [], ackAt := s.now, replayRun := 0, expected := 0, nakSent := false, ackOwed := 0, txStream := [],
        rxStream := [], credits := ({} : Link).credits, creditOwed := ({} : Link).creditOwed, creditPtr := 0, peerNode := 0,
        peerUnnumbered := false, peerIdent := false, peerUid := 0, peerLink := 0, peerEpoch := 0 }).portTo l .unmapped).sendIdent l = u ∧
      u.compo.booting.contains l = false)
    (fun _ => u)) ∧
  (∀ l m, Happens (.ident l m) (fun s => s.linkLive l = true ∧ ((s.link l).st.trained = true ∨ (s.link l).st = .training))
    (fun s => s.gotIdent l m)) ∧
  (∀ l f, Acts (.flitReceive l f [])
    (fun s => s.linkLive l = true ∧ ((s.link l).st.trained = true ∨ (s.link l).st = .training) ∧ f.crc = flitCrc f ∧ f.nak = false ∧
      (s.link l).fecCorrected < 2 ^ 64 ∧ (s.link l).fecUncorrectable < 2 ^ 32)
    (fun s => (s.setLink l (if f.ackV then (s.link l).release f.ackSeq s.now else s.link l)).flitBody l f)) ∧
  (∀ l f, Acts (.flitReceive l f [])
    (fun s => s.linkLive l = true ∧ ((s.link l).st.trained = true ∨ (s.link l).st = .training) ∧ f.crc ≠ flitCrc f ∧
      (s.link l).fecCorrected < 2 ^ 64 ∧ (s.link l).fecUncorrectable < 2 ^ 32)
    (fun s => s.setLink l ((s.link l).control true))) ∧
  (∀ l f es, Acts (.flitReceive l f es) (fun s => s.linkLive l = false) id) ∧
  (∀ l, Happens (.replayTimerExpiry l)
    (fun s => s.linkLive l = true ∧ (s.link l).st.trained = true ∧ (s.link l).kept ≠ [] ∧
      (s.link l).ackAt + ns (s.kset kReplayTimer) ≤ s.now)
    (fun s => s.replay l)) ∧
  (∀ l n, Happens (.laneSignalLoss l n) (fun s => s.linkLive l = true ∧ n < 4 ∧ (s.link l).st.trained = true)
    (fun s => s.retrain l (s.link l).st)) ∧
  (∀ l u, Acts (.retrainComplete l)
    (fun s => s.linkLive l = true ∧ (s.link l).st = .training ∧ (s.link l).backTo ≠ .down ∧
      (((s.setLink l { s.link l with retrainFails := 0, ackAt := s.now, replayRun := 0 }).portTo l (s.link l).backTo).sendIdent l).modLink l
        (fun y => { y with sent := y.sent ++ y.kept }) = u)
    (fun s => if (s.link l).backTo = .up then u.reroute l else u)) ∧
  (∀ l, Acts (.retrainTimeout l)
    (fun s => s.linkLive l = true ∧ (s.link l).st = .training ∧ (s.link l).backTo ≠ .down ∧ (s.link l).trainAt + ms 50 ≤ s.now)
    (fun s =>
      let u := (s.adopt kRetrainLimit).setLink l { s.link l with retrainFails := (s.link l).retrainFails + 1 }
      if u.kv kRetrainLimit ≤ (s.link l).retrainFails + 1 then u.failPort l else u.retrain l (s.link l).backTo)) ∧
  (∀ l, Happens (.portDrainEnd l)
    (fun s => s.linkLive l = true ∧ ((s.link l).st = .draining ∨ ((s.link l).st = .training ∧ (s.link l).backTo = .draining)) ∧
      (((s.link l).idle = true ∧ (s.link l).held.all floods = true) ∨ (s.link l).drainBy ≤ s.now))
    (fun s => s.endDrain l)) ∧
  (∀ l, Happens (.peerDetected l) (fun s => s.linkLive l = true ∧ (s.link l).st = .down ∧ s.portUsable l = true)
    (fun s => s.trainFrom l))

/-- 14 R449 to R456, 13 R431, R434: what the switch core does with packets, shapers and gates. -/
def Obligations.TrafficEventsAct : Prop :=
  (∀ l, Acts (.packetStart l)
    (fun s => s.linkLive l = true ∧ (s.link l).st.trained = true ∧ (s.link l).kept.length < 256 ∧ s.paceOf l < 2)
    (fun s => State.drr l false 32 s)) ∧
  (∀ l, Acts (.packetStart l)
    (fun s => s.linkLive l = true ∧ (s.link l).st.trained = true ∧ (s.link l).kept.length < 256 ∧ 2 ≤ s.paceOf l)
    (fun s => State.drr l (s.freeVal % 2 == 1) 32 s.nextFree)) ∧
  (∀ l q, Happens (.shaperRefill l q)
    (fun s => s.linkLive l = true ∧ ((s.link l).queue q).sh.on = true ∧ ((s.link l).queue q).sh.nextAt ≤ s.portCycles l)
    (fun s => s.modLink l fun x => x.setQueue q { (s.link l).queue q with sh := ((s.link l).queue q).sh.refill })) ∧
  (∀ l, Happens (.gateEntryAdvance l) (fun s => s.linkLive l = true ∧ (s.link l).gateEnd ≤ s.portCycles l)
    (fun s => s.modLink l fun x => x.enter (x.gateIx + 1) x.gateEnd)) ∧
  (∀ l g, Acts (.gateAdopt l) (fun s => s.linkLive l = true ∧ (s.link l).staged = some g ∧ g.adoptAt ≤ s.portCycles l)
    (fun s => s.adoptGate l g)) ∧
  (∀ l p o, Acts (.packetForward l p)
    (fun s => s.linkLive l = true ∧ p.dst ≠ s.self ∧ floods p = false ∧ s.rcv.isolated = false ∧ s.compo.unnumbered = false ∧
      s.routeLink p.dst p.cls = some o ∧ (s.link o).held = [] ∧ (s.link o).bufBytes + p.bytes ≤ extBytes)
    (fun s => (s.takeRx l (· == p)).joinQueue o p)) ∧
  (∀ l p, Acts (.packetForward l p)
    (fun s => s.linkLive l = true ∧ p.dst ≠ s.self ∧ floods p = false ∧ s.rcv.isolated = false ∧ s.compo.unnumbered = false ∧
      s.routeLink p.dst p.cls = none)
    (fun s => (s.takeRx l (· == p)).bump kNoRoute))

/-- 12 R382 to R386, R392, R410 to R414: requests of other nodes. Where the request is in order and of the map in force, it is performed. -/
def Obligations.RequestPacketsAct : Prop :=
  ∀ c : Nat × (Nat → FPkt → Instr),
    c ∈ ([(1, .read), (2, .write), (3, .atomic), (9, .publishPacket), (11, .versionRead)] : List (Nat × (Nat → FPkt → Instr))) →
    ∀ l p, (p.ptype ≠ c.1 → Acts (c.2 l p) (fun _ => True) id) ∧ (p.ptype = c.1 →
      (∀ t u, Acts (c.2 l p)
        (fun s => s.inMap = true ∧ p.dst = s.self ∧ p.epoch = s.compo.epoch ∧ epochNewer p.epoch s.compo.epoch = false ∧
          (p.seq + 2 ^ 32 - Tab.getD 0 s.fab.seqRx p.src) % 2 ^ 32 = 0 ∧ (s.takeRx l (· == p)).heardFrom p.src = t ∧
          ({ t with fab := { t.fab with
            seqRx := Tab.put 0 t.fab.seqRx p.src ((Tab.getD 0 s.fab.seqRx p.src + 1) % 2 ^ 32),
            early := t.fab.early.filter fun e => !(e.2.src == p.src && e.2.seq == p.seq) } } : State).perform p [] = some u)
        (fun _ => State.runEarly p.src (u.fab.early.length + 1) u)) ∧
      Acts (c.2 l p)
        (fun s => s.inMap = true ∧ p.dst = s.self ∧ p.epoch ≠ s.compo.epoch ∧ epochNewer p.epoch s.compo.epoch = false)
        (fun s => (((s.takeRx l (· == p)).heardFrom p.src).bump kStaleMap).nack p nStaleMap) ∧
      Acts (c.2 l p) (fun s => s.inMap = true ∧ p.dst = s.self ∧ epochNewer p.epoch s.compo.epoch = true)
        (fun s => (s.takeRx l (· == p)).heardFrom p.src) ∧
      Acts (c.2 l p) (fun s => s.inMap = false ∨ p.dst ≠ s.self) id)

/-- 12 R376, R378, R382, R394, R410: a response packet that answers an outstanding request of this node; the fabric transaction timer. -/
def Obligations.ResponsePacketsAct : Prop :=
  (∀ c : Nat × (Nat → FPkt → Instr) × List Nat × (FPkt → State → Txn → State),
    c ∈ ([(4, .readData, [1], fun p s t => s.dataIn t p), (5, .ack, [2], fun _ s t => s.ackIn t),
      (6, .nack, [1, 2, 3, 9, 11, 13], fun p s t => (if p.code = nStaleMap then s.staleFences t.tag else s).nackIn t p.code),
      (7, .atomicData, [3], fun p s t => s.atomIn t p), (10, .publishResp, [9], fun p s t => s.publishIn t p),
      (12, .versionData, [11], fun p s t => s.versionIn t p)] :
        List (Nat × (Nat → FPkt → Instr) × List Nat × (FPkt → State → Txn → State))) →
    ∀ l p, p.ptype = c.1 →
      (∀ t, Acts (c.2.1 l p)
        (fun s => s.inMap = true ∧ p.dst = s.self ∧ p.epoch = s.compo.epoch ∧ p.sound = true ∧
          ((s.takeRx l (· == p)).heardFrom p.src).compo.epoch = s.compo.epoch ∧
          ((s.takeRx l (· == p)).heardFrom p.src).txnOf p.tag p.src = some t ∧ t.pkt.seq = p.seq ∧ c.2.2.1.contains t.pkt.ptype = true)
        (fun s => (c.2.2.2 p (((s.takeRx l (· == p)).heardFrom p.src).dropTxn t) t).settleFences)) ∧
      Acts (c.2.1 l p) (fun s => s.inMap = false ∨ p.dst ≠ s.self) id) ∧
  (∀ l p t, p.ptype = 8 → Acts (.pendingRsp l p)
    (fun s => s.inMap = true ∧ p.dst = s.self ∧ p.epoch = s.compo.epoch ∧ p.sound = true ∧
      ((s.takeRx l (· == p)).heardFrom p.src).compo.epoch = s.compo.epoch ∧
      ((s.takeRx l (· == p)).heardFrom p.src).txnOf p.tag p.src = some t ∧ t.pkt.seq = p.seq ∧ t.pkt.ptype = 1)
    (fun s =>
      let u := (s.takeRx l (· == p)).heardFrom p.src
      { u with fab := { u.fab with
        txns := u.fab.txns.map fun x => if x == t then { x with due := u.now + us (bytesAt p.data 0 4) } else x } }.settleFences)) ∧
  (∀ n t a b c d, Acts (.fabricTxnTimeout n)
    (fun s => s.inMap = true ∧ (s.fab.txns.find? fun t => t.tag == n) = some t ∧ t.due ≤ s.now ∧ t.who = .engine a b c d)
    (fun s => (((s.suspect t.pkt.dst).dropTxn t).deadRaw t 1).settleFences)) ∧
  (∀ n t c, Acts (.fabricTxnTimeout n)
    (fun s => s.inMap = true ∧ (s.fab.txns.find? fun t => t.tag == n) = some t ∧ t.due ≤ s.now ∧ t.who = .command c ∧
      ((s.suspect t.pkt.dst).dropTxn t).dead t.pkt.dst = false)
    (fun s => (((s.suspect t.pkt.dst).dropTxn t).issue t).settleFences)) ∧
  (∀ a, Happens (.twinInvalidate a) (fun s => s.runs = true ∧ s.twinValid = true) (fun s => s.rlcDrop (· == a / 128))) ∧
  (∀ e k n l, Acts (.collLineTimeout e k n)
    (fun s => s.runs = true ∧ k < 16 ∧ (s.sess (e * 16 + k)).st = .open_ ∧ Tab.find? (s.sess (e * 16 + k)).lines n = some l ∧ l.due ≤ s.now)
    (fun s => s.lineLate (e * 16 + k) n))

/-- 04 R127 to R131, R136, R146, R151 to R154: a hinge message in order and of the map in force is acted on by the hinge. -/
def Obligations.HingeMessagesAct : Prop :=
  ∀ i h m tw, hingeOf i = some (h, m, tw) → ∀ l p,
    (∀ t u, Acts i
      (fun s => s.hingePkt h m = (l, p) ∧ s.inMap = true ∧ p.dst = s.self ∧ p.sound = true ∧ p.epoch = s.compo.epoch ∧
        epochNewer p.epoch s.compo.epoch = false ∧ (p.seq + 2 ^ 32 - Tab.getD 0 s.fab.seqRx p.src) % 2 ^ 32 = 0 ∧
        (s.takeRx l (· == p)).heardFrom p.src = t ∧
        ({ t with fab := { t.fab with
          seqRx := Tab.put 0 t.fab.seqRx p.src ((Tab.getD 0 s.fab.seqRx p.src + 1) % 2 ^ 32),
          early := t.fab.early.filter fun e => !(e.2.src == p.src && e.2.seq == p.seq) } } : State).onHinge h m tw = u)
      (fun _ => State.runEarly p.src (u.fab.early.length + 1) u)) ∧
    Acts i (fun s => s.hingePkt h m = (l, p) ∧ (s.inMap = false ∨ p.dst ≠ s.self)) id

/-- 03 R93, R96 to R101, R118, 04 R134, R141 to R143, R150, R154, R155, 06 R208: requests, prefixes, pushes and steps. -/
def Obligations.RequestEventsAct : Prop :=
  (∀ c, Acts (.prefixLookup c)
    (fun s => s.fwUp = true ∧ (s.ctx c).st = .admitted ∧ (s.ctx c).prefixSt = .unlooked ∧
      ((s.adopt kPrefixTable).modCtx c fun x => { x with prefixSt := .searching }).indexTable = none)
    (fun s => ((s.adopt kPrefixTable).modCtx c fun x => { x with prefixSt := .searching }).prefixFound c none)) ∧
  (∀ c k r u, Acts (.prefixLookup c)
    (fun s => s.fwUp = true ∧ (s.ctx c).st = .admitted ∧ (s.ctx c).prefixSt = .unlooked ∧
      ((s.adopt kPrefixTable).modCtx c fun x => { x with prefixSt := .searching }) = u ∧ u.indexTable = some k ∧
      (u.table k).cascade = false ∧ u.searchBlocks k (u.promptBlocks (s.ctx c)) = r)
    (fun _ => r.2.prefixFound c r.1)) ∧
  (∀ c, Acts (.prefixFetchComplete c false none)
    (fun s => s.runs = true ∧ (s.ctx c).prefixSt = .fetching ∧ (s.ctx c).st.over = false)
    (fun s => ((s.modCtx c fun x => { x with prefixSt := .inPlace, prefixReused := 0, prefixPushed := true }).bump kPrefixFallbacks).advancePush
      c)) ∧
  (∀ c o, Acts (.prefixFetchComplete c true none)
    (fun s => s.runs = true ∧ (s.ctx c).prefixSt = .fetching ∧ (s.ctx c).st.over = false ∧
      Tab.find? s.prefixes (s.ctx c).prefixObj = some o)
    (fun s => (((List.range (s.layersOf (s.ctx c).model)).foldl
        (fun u l => u.hbmWrite (u.worksetRow (s.ctx c) l 0) (s.objectRows o l (s.ctx c).prefixReused)) s).modCtx c
      fun x => { x with prefixSt := .inPlace, prefixPushed := false }).advancePush c)) ∧
  (∀ c n, Acts (.layerPushStart c n)
    (fun s => s.runs = true ∧ ((s.ctx c).st = .prefill ∨ ((s.ctx c).st = .handoff ∧ (s.ctx c).isDest = false)) ∧ (s.opened c).isSome = true ∧
      (s.ctx c).prefixPushed = true ∧ (s.ctx c).pushing = 0 ∧ (s.ctx c).pushLeft = 0 ∧ n = (s.ctx c).layersPushed ∧
      n < (s.ctx c).layersDone ∧ (s.ctx c).toCompute ≠ 0)
    (fun s => (s.modCtx c fun x => { x with pushing := n + 1 }).pushRows c n (s.ctx c).prefixReused ((s.ctx c).promptLen - 1))) ∧
  (∀ pc qs f n place, Acts (.workItemWrite pc 1 qs f n)
    (fun s => s.fwUp = true ∧ (s.pc pc).live = true ∧ (s.pc pc).serving = true ∧ (s.pc pc).endWith = 0 ∧ (s.pc pc).items.length < 4096 ∧
      qs.length ≤ 8192 ∧ qs.Nodup ∧ (s.pc pc).decode = false ∧ qs ≠ [] ∧ (qs.all fun i => s.mayPrefill pc i f n) = true ∧
      arenaFit (s.pc pc).items (s.itemBytes qs false) = some place)
    (fun s => s.postItem pc 1 qs f n place)) ∧
  (∀ pc qs able u is place, Acts (.workItemWrite pc 2 qs 0 0)
    (fun s => s.fwUp = true ∧ (s.pc pc).live = true ∧ (s.pc pc).serving = true ∧ (s.pc pc).endWith = 0 ∧ (s.pc pc).items.length < 4096 ∧
      qs.length ≤ 8192 ∧ qs.Nodup ∧ (s.pc pc).decode = true ∧ (s.part (pc / 8)).stepAt = none ∧
      ((s.stepSeqs (pc / 8)).filter fun i => !s.stalled i) = able ∧ able.all qs.contains = true ∧ qs.all able.contains = true ∧ qs ≠ [] ∧
      s.backRows qs = (is, u) ∧ is ≠ [] ∧ arenaFit (u.pc pc).items (u.itemBytes is true) = some place)
    (fun _ =>
      let v := is.foldl (fun w i => w.modCtx i fun c => { c with mirrorSent := false }) u
      (v.modPart (pc / 8) fun p => { p with stepAt := some v.now, batch := is }).postItem pc 2 is 0 0 place)) ∧
  (∀ pc w ws, Acts (.prefillLayerDone pc)
    (fun s => s.fwUp = true ∧ (s.pc pc).live = true ∧ (s.pc pc).items = w :: ws ∧ w.kind = 1 ∧ w.base < (s.pc pc).ctr 30 ∧ w.layerCount ≤ 1)
    (fun s => (w.seqs.foldl State.layerDone (s.modPc pc fun x => { x with items := ws })).beginHead pc)) ∧
  (∀ pc w ws, Acts (.prefillLayerDone pc)
    (fun s => s.fwUp = true ∧ (s.pc pc).live = true ∧ (s.pc pc).items = w :: ws ∧ w.kind = 1 ∧ w.base < (s.pc pc).ctr 30 ∧ 1 < w.layerCount)
    (fun s => (w.seqs.foldl State.layerDone (s.modPc pc fun x =>
      { x with items := { w with firstLayer := w.firstLayer + 1, layerCount := w.layerCount - 1, base := w.base + 1 } :: ws })).beginHead pc)) ∧
  (∀ k id w ws t0, Acts (.stepCommit k)
    (fun s => s.fwUp = true ∧ s.servingOf k true = some id ∧ (s.pc id).items = w :: ws ∧ (s.part k).stepAt = some t0 ∧ w.kind = 2 ∧
      w.base < (s.pc id).ctr 30 ∧ ∀ i, s.mirrorOf i = none)
    (fun s =>
      let seqs := w.seqs.zipIdx.filter fun e => (s.part k).batch.contains e.1
      let t := (seqs.foldl (fun t e => t.commitSeq e.1 (s.drawn k e.1 e.2 w)) s).bump kOutputStall ((s.stepSeqs k).filter s.stalled).length
      ((t.modPc id fun x => { x with items := ws }).modPart k
        fun p => { p with steps := ((s.now - t0) / 1600 :: p.steps).take 16 }).boundary k)) ∧
  (∀ c, Acts (.deadlinePass c)
    (fun s => s.fwUp = true ∧ s.missed c = true ∧ (s.ctx c).bound = true ∧ s.committing c = false) (fun s => s.writeMisses c)) ∧
  (∀ c, Acts (.deadlinePass c)
    (fun s => s.fwUp = true ∧ s.missed c = true ∧ ¬((s.ctx c).bound = true ∧ s.committing c = false)) (fun s => s.recordMiss c)) ∧
  (∀ c, Acts (.deadlinePass c) (fun s => ¬(s.fwUp = true ∧ s.missed c = true)) id) ∧
  (∀ c, Happens (.ctxRetainExpiry c)
    (fun s => s.fwUp = true ∧ ((s.ctx c).st = .done ∨ (s.ctx c).st = .ended) ∧ (s.ctx c).overAt + ms (s.ctx c).retainMs ≤ s.now)
    (fun s => s.freeCtxAt c)) ∧
  Happens .fwdRecordCheck (fun s => s.fwUp = true)
    (fun s =>
      let u := (s.adopt kFwdHold).adopt kFwdDrain
      (Tab.keysOf u.latches fun _ x => x.st == .forwarding && x.tState + us (u.kv kFwdHold) ≤ u.now &&
        (x.redirects == 0 || x.lastRedirect + us (u.kv kFwdDrain) ≤ u.now)).foldl State.dropLatch u) ∧
  (∀ tw, Acts (.mirrorScrub tw) (fun s => s.fwUp = true ∧ ((s.adopt kScrubMs).adopt kScrubEnable).kv kScrubEnable = 1)
    (fun s => ((s.adopt kScrubMs).adopt kScrubEnable).compareAll tw)) ∧
  Happens .twinLinkFail (fun s => s.runs = true)
    (fun s => (Tab.keysOf s.latches fun _ x => x.mirrored).foldl (fun u k =>
      if (u.latch k).primary then u.suspendMirror k (u.latch k).ctx else u.setLatch k { u.latch k with mirrorActive := false }) s) ∧
  (∀ tw, Happens (.twinLinkReturn tw) (fun s => s.runs = true) (fun s => s.compareAll tw))

/-- 06 R209, R211, R215, R216: the control descriptors. -/
def Obligations.ControlDescriptorsAct : Prop :=
  ∀ e d,
    Starts (.descNop e d) e d (isOp opNop) (fun a s => (s.begin_ a).2.launch a (s.begin_ a).1 []) ∧
    Starts (.set e d) e d (isOp opSet) (fun a s => s.setReg a fun _ => immOf a.d) ∧
    Starts (.add e d) e d (isOp opAdd) (fun a s => s.setReg a fun r => rsOf a.d r + rtOf a.d 0 r + immOf a.d) ∧
    Starts (.mul e d) e d (isOp opMul) (fun a s => s.setReg a fun r => rsOf a.d r * rtOf a.d (immOf a.d) r) ∧
    Starts (.loop e d) e d (isOp opLoop)
      (fun a s => (s.begin_ a).2.launch a (s.begin_ a).1 [] (rsOf a.d ((s.begin_ a).2.engOf a).regs)) ∧
    Starts (.halt e d) e d (isOp opHalt) (fun a s => (s.begin_ a).2.launch a (s.begin_ a).1 []) ∧
    (∀ a x, Acts (.ldreg e d)
      (fun s => s.startAt e d (isOp opLdreg) = some a ∧ (rsOf a.d (s.engOf a).regs + immOf a.d) % 2 ^ 64 = x ∧ x % 8 = 0 ∧
        spFault (spBytes (s.isDecode a)) [(x, 8)] = none ∧
        ((s.begin_ a).2.race a (s.begin_ a).1 ⟨false, false, [(x, 8)]⟩).spBad a x 8 = false)
      (fun s =>
        let u := (s.begin_ a).2.race a (s.begin_ a).1 ⟨false, false, [(x, 8)]⟩
        ((u.modEng a fun g => { g with regs := g.regs.set (fld a.d 131 128) (u.spNat a x 8) }).touch a (s.begin_ a).1
          [⟨false, false, [(x, 8)]⟩]).launch a (s.begin_ a).1 [])) ∧
    Acts (.ldreg e d) (fun s => s.startAt e d (isOp opLdreg) = none) id

/-- 06 R217 to R226: the data descriptors start their operation where their engine is at them. -/
def Obligations.DataDescriptorsAct : Prop :=
  ∀ e d,
    Starts (.load e d) e d (isOp opLoad) (fun a s => s.startLoad a false) ∧
    Starts (.gather e d) e d (isOp opGather) (fun a s => s.startLoad a true) ∧
    Starts (.store e d) e d (isOp opStore) (fun a s => s.startStore a false) ∧
    Starts (.scatter e d) e d (isOp opScatter) (fun a s => s.startStore a true) ∧
    Starts (.descAtomic e d) e d (isOp opAtomic) (fun a s => s.startAtomic a) ∧
    Starts (.matmul e d) e d (isOp opMatmul) (fun a s => s.matmul a) ∧
    Starts (.ward e d) e d (isVop 0x20) (fun a s => s.ward a) ∧
    ∀ v : Nat × (EngAt → Desc → Instr),
      v ∈ ([(0x01, .vopAdd), (0x02, .vopSub), (0x03, .vopMul), (0x04, .vopFma), (0x05, .vopMax), (0x06, .vopMin), (0x07, .cmpgt),
        (0x08, .select), (0x09, .convert), (0x0A, .exp), (0x0B, .recip), (0x0C, .rsqrt), (0x10, .rowsum), (0x11, .rowmax),
        (0x12, .drain)] : List (Nat × (EngAt → Desc → Instr))) →
      Starts (v.2 e d) e d (isVop v.1) (fun a s => s.vector a)

/-- 06 R232, 10 R328 to R339, 17 R532: slices, switches and the engine queue timeout. -/
def Obligations.RotationEventsAct : Prop :=
  (∀ e c k g, Acts (.engineQueueTimeout e)
    (fun s => s.runs = true ∧ (s.pc e.pc).live = true ∧ (s.pc e.pc).place = .onCores ∧
      ((s.pc e.pc).cores.zipIdx.find? fun c => c.1 == e.core) = some (c, k) ∧ ((s.pc e.pc).core.getD k {}).engines[e.eng]? = some g ∧
      (s.rot (e.pc / 8) (s.pc e.pc).decode).sw = none ∧ g.halted = false ∧
      g.progress + us ((s.adopt kEngineTimeout).kv kEngineTimeout) ≤ s.now ∧ (s.adopt kEngineTimeout).anyFwWait (s.pc e.pc) = false)
    (fun s => (s.adopt kEngineTimeout).resetProg e.pc k e.eng 0x09 g.pos 0)) ∧
  (∀ k d, Happens (.sliceEnd k d)
    (fun s => s.fwUp = true ∧ (s.rot k d).cur ≠ 0 ∧ (s.rot k d).sw = none ∧ (s.rot k d).ended = false ∧
      (s.rot k d).sliceAt + us (s.rot k d).sliceUs ≤ s.now)
    (fun s => (s.setRot k d { s.rot k d with ended := true }).choosePc k d)) ∧
  (∀ k d w, Acts (.yieldRequest k d) (fun s => s.switchOf k d = some w ∧ w.phase = .asking)
    (fun s => (s.modPc (k * 8 + w.out - 1) ProgCtx.aim).modSw k d fun w =>
      { w with phase := .yielding, askedAt := s.now })) ∧
  (∀ k d w, Acts (.contextStopped k d)
    (fun s => s.switchOf k d = some w ∧ w.phase = .yielding ∧ s.allAtYield (s.pc (k * 8 + w.out - 1)) = true)
    (fun s => s.modSw k d fun w => { w with phase := .saving, byYield := true })) ∧
  (∀ k d w, Acts (.contextStopped k d)
    (fun s => s.switchOf k d = some w ∧ w.phase = .stopping ∧ (s.pc (k * 8 + w.out - 1)).quiet = true)
    (fun s => s.modSw k d fun w => { w with phase := .saving, byYield := false })) ∧
  (∀ k d w, Acts (.preemptBoundExpiry k d)
    (fun s => s.switchOf k d = some w ∧ w.phase = .yielding ∧ w.askedAt + us (s.kv kPreemptBound k) ≤ s.now)
    (fun s => ((s.bump kYieldOverruns).modPc (k * 8 + w.out - 1) ProgCtx.unaim).modSw k d fun w => { w with phase := .stopping })) ∧
  (∀ k d w, Acts (.saveComplete k d) (fun s => s.switchOf k d = some w ∧ w.phase = .saving ∧ w.byYield = false ∧ w.inc ≠ 0)
    (fun s =>
      let id := k * 8 + w.out - 1
      let x := s.pc id
      let u := ((s.setPc id (s.saveCores x (x.core.map fun _ => wholeCore)).unaim).bump kYieldFallbacks 0).bump kFullSaves 1 k
      u.setRot k d { u.rot k d with cur := 0, ended := false, sw := some { w with phase := .restoring } })) ∧
  (∀ k d w, Acts (.restoreComplete k d) (fun s => s.switchOf k d = some w ∧ w.phase = .restoring ∧ w.inc ≠ 0) (fun s => s.arrive k d w)) ∧
  (∀ k d, Acts (.yieldRequest k d) (fun s => s.switchOf k d = none) id ∧ Acts (.contextStopped k d) (fun s => s.switchOf k d = none) id ∧
    Acts (.preemptBoundExpiry k d) (fun s => s.switchOf k d = none) id ∧ Acts (.saveComplete k d) (fun s => s.switchOf k d = none) id ∧
    Acts (.restoreComplete k d) (fun s => s.switchOf k d = none) id)

/-- 15 R474 to R485, R490, R496: the Tumbler's cycles, bounds and cascade. -/
def Obligations.TumblerEventsAct : Prop :=
  (∀ d j js, Acts (.tumblerIdleCycle d)
    (fun s => s.runs = true ∧ s.isFenced (14 + d) = false ∧ (s.bump kIdleCycles 1 d).dieJobs d = j :: js)
    (fun s => (s.bump kIdleCycles 1 d).writeCycle j)) ∧
  (∀ d, Acts (.tumblerIdleCycle d)
    (fun s => s.runs = true ∧ s.isFenced (14 + d) = false ∧ (s.bump kIdleCycles 1 d).dieJobs d = []) (fun s => s.bump kIdleCycles 1 d)) ∧
  (∀ c j e m, Acts (.insertTimeout c)
    (fun s => s.runs = true ∧
      (s.tum.jobs.find? fun j => (j.cmd == c + 1 || j.sealCmd == c + 1) && decide (j.due ≤ s.now)) = some j ∧ j.op = .insert e m)
    (fun s => (s.bump kInsertTimeouts).failJob j { refuse sInsertTimeout with r1 := m })) ∧
  (∀ c j, Acts (.insertTimeout c)
    (fun s => s.runs = true ∧
      (s.tum.jobs.find? fun j => (j.cmd == c + 1 || j.sealCmd == c + 1) && decide (j.due ≤ s.now)) = some j ∧
      ((∃ o e n, j.op = .update 0 o e n) ∨ (∃ k, j.op = .delete k) ∨ j.op = .clearAll))
    (fun s => s.failJob j (refuse sTimeout))) ∧
  (∀ tok o, Acts (.cascadeToken tok true)
    (fun s => s.runs = true ∧ tok ≠ 0 ∧ s.cascSize ≠ 0 ∧ tokF tok 6 4 = s.cascPos ∧
      (s.tum.casOut.find? fun o => o.seq == tokF tok 31 16) = some o ∧ (o.cmd ≠ 0 ∨ o.ctx ≠ 0))
    (fun s => { s with tum := { s.tum with casRun := 0 } }.cascDone o (tokHit tok) (tokF tok 10 8) false)) ∧
  (∀ tok, Acts (.cascadeToken tok true)
    (fun s => s.runs = true ∧ tok ≠ 0 ∧ s.cascSize ≠ 0 ∧ tokF tok 6 4 ≠ s.cascPos ∧
      ((s.table (tokF tok 3 0)).active = false ∨ (s.table (tokF tok 3 0)).cascade = false))
    (fun s => { s with tum := { s.tum with sent := s.tum.sent ++ [tok] } })) ∧
  (∀ tok, Acts (.cascadeToken tok false) (fun _ => True) id) ∧
  (∀ n o, Acts (.cascadeTimeout n)
    (fun s => s.runs = true ∧ (s.tum.casOut.find? fun o => o.seq == n && decide (o.due ≤ s.now)) = some o ∧ o.cmd = 0 ∧ o.ctx = 0)
    (fun s => s.cascDone o none 0 true)) ∧
  (∀ n o, Acts (.cascadeTimeout n)
    (fun s => s.runs = true ∧ (s.tum.casOut.find? fun o => o.seq == n && decide (o.due ≤ s.now)) = some o ∧ (o.cmd ≠ 0 ∨ o.ctx ≠ 0) ∧
      (s.bump kCascTimeouts).tum.casRun ≠ 2)
    (fun s =>
      let u := s.bump kCascTimeouts
      { u with tum := { u.tum with casRun := u.tum.casRun + 1 } }.cascDone o none 0 true)) ∧
  Happens .cascadeProbeTimer (fun s => s.runs = true ∧ s.tum.ringDown = true ∧ s.tum.probeAt + ms 1 ≤ s.now)
    (fun s =>
      let u := ({ s with tum := { s.tum with probeAt := s.now } } : State).adopt kCascTimeout
      { u with tum := { u.tum with
        casSeq := (u.tum.casSeq + 1) % 65536
        casOut := u.tum.casOut ++ [{ seq := u.tum.casSeq, due := u.now + us (u.kv kCascTimeout) }]
        sent := u.tum.sent ++ [cascToken 0 u.cascPos u.tum.casSeq none 0 0 allOnes] } })

/-- 16 R523 to R529: the messages and timers of a fabric boot. -/
def Obligations.FabricBootEventsAct : Prop :=
  (∀ l u c e, Happens (.boot l u c e) (fun s => s.mapOn l = true ∧ s.unseen 1 u (c * 65536 + e) = true)
    (fun s =>
      let v := (s.gotMgmt l (.boot u c)).see 1 u (c * 65536 + e)
      (if v.compo.phase = .idle then v.startBoot u c else v).flood (some l) (.boot u c))) ∧
  Happens .linkPhaseEnd
    (fun s => s.fwUp = true ∧ s.compo.phase = .link ∧
      (((List.range 40).any fun l => (s.link l).st == .training) = false ∨ s.compo.phaseAt + ms (s.kv kLinkPhase) ≤ s.now))
    (fun s =>
      let c := s.compo
      let v := (if c.unnumbered then s else (s.see 2 s.idn.uid c.epoch).flood none (.claim s.idn.uid c.claimNode)).floodOwn
      { v with compo := { v.compo with phase := .flood, phaseAt := v.now } }) ∧
  (∀ l u n e, Happens (.claim l u n e) (fun s => s.mapOn l = true ∧ s.unseen 2 u e = true)
    (fun s => ((((s.gotMgmt l (.claim u n)).see 2 u e).flood (some l) (.claim u n)).stir).yieldNumber u n)) ∧
  (∀ l t, Happens (.sliceTable l t) (fun s => s.mapOn l = true ∧ s.unseen 3 t.uid (tabIdent t) = true)
    (fun s =>
      let v := ((s.gotMgmt l (.sliceTable t)).see 3 t.uid (tabIdent t)).flood (some l) (.sliceTable t)
      if v.compo.phase = .idle then v else (v.keepTable t).stir)) ∧
  Acts .floodQuietExpiry (fun s => s.fwUp = true ∧ s.compo.phase = .flood ∧ s.compo.phaseAt + us (s.kv kFloodQuiet) ≤ s.now)
    (fun s =>
      let v := { s.exclude with compo := { s.exclude.compo with phase := .agree, phaseAt := s.exclude.now } }
      if v.proposes then v.propose ((v.newestEpoch + 1) % 65536) else v) ∧
  Acts .floodQuietExpiry
    (fun s => s.fwUp = true ∧ s.compo.phase = .agree ∧ s.compo.waiting = true ∧ s.compo.phaseAt + us (s.kv kFloodQuiet) ≤ s.now)
    (fun s => if s.proposes then s.propose ((s.compo.propEpoch + 1) % 65536) else s) ∧
  (∀ l e u m md dg, Acts (.propose l e u m md dg) (fun s => s.mapOn l = true ∧ s.unseen 5 u e = true)
    (fun s =>
      let v := ((s.gotMgmt l (.propose e u m md dg)).see 5 u e).flood (some l) (.propose e u m md dg)
      if v.fwUp && (v.compo.phase == .flood || v.compo.phase == .agree) then v.judgeProposal l e m dg else v)) ∧
  (∀ l f e c, Acts (.agreeAck l f e c false)
    (fun s => s.mapOn l = true ∧ s.fwUp = true ∧ s.compo.phase = .agree ∧ s.compo.proposed = true ∧ s.compo.propEpoch = e ∧
      s.compo.waiting = false) (fun s =>
        let v := s.gotMgmt l (.ack e c false)
        { v with compo := { v.compo with acks := Tab.set v.compo.acks f c } }.tryAck)) ∧
  (∀ l f e c, Acts (.agreeAck l f e c true)
    (fun s => s.mapOn l = true ∧ s.fwUp = true ∧ s.compo.phase = .agree ∧ s.compo.proposed = true ∧ s.compo.propEpoch = e ∧
      s.compo.waiting = false ∧ (s.gotMgmt l (.ack e c true)).proposes = true) (fun s => (s.gotMgmt l (.ack e c true)).failRound)) ∧
  Acts .agreeTimeout (fun s => s.fwUp = true ∧ s.compo.phase ≠ .idle ∧ s.compo.startAt + ms (s.kv kFbTimeout) ≤ s.now) State.failBoot ∧
  Acts .agreeTimeout
    (fun s => s.fwUp = true ∧ s.compo.phase = .agree ∧ s.compo.waiting = false ∧ s.now < s.compo.startAt + ms (s.kv kFbTimeout) ∧
      s.compo.phaseAt + ms (s.kv kAgreeTimeout) ≤ s.now ∧ s.proposes = true) State.failRound ∧
  (∀ l e dg, Acts (.mapCommit l e dg) (fun s => s.mapOn l = true ∧ s.unseen 7 0 e = true)
    (fun s =>
      let v := ((s.gotMgmt l (.commit e dg)).see 7 0 e).flood (some l) (.commit e dg)
      if !v.fwUp || v.compo.phase = .idle then v
      else if v.compo.unnumbered then v.commitOutside e v.candidates.length
      else if v.compo.phase == .agree && e == v.compo.propEpoch && dg == v.memberDigest then v.commitMap e
      else v))

/-- 12 R404 to R409, 17 R535 to R544: liveness, job faults, fences, restarts and the module's drain. -/
def Obligations.RecoveryEventsAct : Prop :=
  (∀ u v ups, Acts .heartbeatTimer
    (fun s => s.inMap = true ∧ s.rcv.hbAt + us (s.kv kHeartbeat) ≤ s.now ∧
      s.judgeSilence.neighbours.foldl (fun w n => if (w.node n).beat + us (s.kv kHeartbeat) ≤ w.now then w.suspect n else w) s.judgeSilence
        = u ∧ ((List.range 40).filter fun l => (u.link l).st == .up) = ups ∧
      ups.foldl (fun w l => w.mgmtOn l (.heartbeat w.idn.uid w.self w.compo.epoch)) (u.adopt kHeartbeat) = v)
    (fun _ => { v with rcv := { v.rcv with hbAt := v.now, heard := false, upAll := ups } }.sendReports)) ∧
  (∀ l u n e v, Acts (.heartbeat l u n e)
    (fun s => s.linkLive l = true ∧ (s.link l).st.trained = true ∧ s.gotMgmt l (.heartbeat u n e) = v ∧ v.fromMember u n = true ∧
      e = v.compo.epoch)
    (fun _ => (({ v with rcv := { v.rcv with heard := true } }.modNode n fun x => { x with beat := v.now }).heardFrom n).revive n)) ∧
  (∀ l u n t k, Happens (.probe l u n t k) (fun s => s.inMap = true ∧ s.linkLive l = true ∧ t = s.self)
    (fun s => ((s.gotMgmt l (.probe u n t k)).heardFrom n).mgmtTo n (.probeAnswer u n t k))) ∧
  (∀ l u n t k, Happens (.probeAnswer l u n t k) (fun s => s.inMap = true ∧ s.linkLive l = true ∧ u = s.idn.uid ∧ n = s.self)
    (fun s => ((s.gotMgmt l (.probeAnswer u n t k)).heardFrom t).revive t)) ∧
  (∀ n, Acts (.probeInterval n)
    (fun s => s.inMap = true ∧ (s.node n).live = .suspect ∧ (s.node n).probedAt + us (s.kv kHeartbeat) ≤ s.now ∧
      (s.node n).missLimit ≤ (s.node n).missed + 1)
    (fun s => ((s.modNode n fun x => { x with downSeen := true }).flood none (.nodeDown n 0 s.idn.uid)).markDead n 0
      ((s.modNode n fun x => { x with downSeen := true }).flood none (.nodeDown n 0 s.idn.uid)).self)) ∧
  (∀ n, Acts (.probeInterval n)
    (fun s => s.inMap = true ∧ (s.node n).live = .suspect ∧ (s.node n).probedAt + us (s.kv kHeartbeat) ≤ s.now ∧
      (s.node n).missed + 1 < (s.node n).missLimit)
    (fun s => (s.setNode n { s.node n with missed := (s.node n).missed + 1 }).probe n)) ∧
  (∀ l n c r v w, Acts (.nodeDown l n c r)
    (fun s => s.linkLive l = true ∧ (s.link l).st.trained = true ∧ s.gotMgmt l (.nodeDown n c r) = v ∧
      (if !(v.node n).downSeen then (v.modNode n fun x => { x with downSeen := true }).flood (some l) (.nodeDown n c r) else v) = w)
    (fun _ => if n = w.self ∧ w.compo.mapped = true then w.isolate
      else if (w.node n).live = .alive ∨ (w.node n).live = .suspect then w.markDead n c (w.nodeOfUid r) else w)) ∧
  (∀ src j g c t, Happens (.jobFault src j g c t) (fun s => s.inMap = true ∧ s.fwUp = true)
    (fun s => (((s.tookMgmt (.jobFault j g c t)).heardFrom src).mgmtTo src (.jobFaultAck j g)).manageFault j g c t src)) ∧
  (∀ j g c t r, Happens (.teardown j g c t r) (fun s => s.inMap = true ∧ s.fwUp = true)
    (fun s => (s.tookMgmt (.teardown j g c t r)).teardownHere j g c t r)) ∧
  (∀ d, Happens (.dieHeartbeatTimeout d) (fun s => s.runs = true) (fun s => (s.adopt kDieHeartbeat).fenceDie d 0)) ∧
  (∀ c, Happens (.ctlWatchdogExpiry c) (fun s => s.fwUp = true)
    (fun s =>
      let u := (s.adopt kRestartLimit).adopt kWatchdog
      if u.restartBar then u.fatalStop sCoreFault else u.beginRestart)) ∧
  (∀ bc bl, Happens (.controlRestartComplete bc bl) (fun s => s.runs = true ∧ s.rcv.ctlRestart = true)
    (fun s =>
      let u := ({ s with rcv := { s.rcv with ctlRestart := false } } : State).checkRecords bc bl
      (((u.postEvent 0x0F03 0 (pack [(8, u.recentRestarts.length), (8, 0), (32, u.rcv.retried)]) (s.lostCtxs bc bl).length).lateMisses).actLatched))) ∧
  (∀ u v w, Acts .moduleDrainTimeout
    (fun s => s.fwUp = true ∧ s.rcv.modSt = .draining ∧ s.rcv.modClosing = false ∧ s.rcv.modAt ≤ s.now ∧
      s.endReqs (fun _ _ => true) sStateLost = u ∧
      { u with rcv := { u.rcv with modEnded := ((s.ctxsThat fun c => !c.st.over).filter fun i => (u.ctx i).st.over).length,
                                   modClosing := true } } = v ∧
      (Tab.keysOf v.pcs fun _ x => x.live).foldl (fun w id => w.endProg id sCancelled) v = w)
    (fun _ => ((List.range 40).foldl State.disablePort (w.flood none (.nodeDown w.self 2 w.idn.uid))).settleModule)) ∧
  (∀ p t, Acts (.drainRefusedPatternEnd p) (fun s => s.runs = true ∧ Tab.find? s.rcv.refusedPat p = some t ∧ t ≤ s.now)
    (fun s => { s with rcv := { s.rcv with refusedPat := Tab.erase s.rcv.refusedPat p } })) ∧
  (∀ p, Acts (.drainRefusedPatternEnd p) (fun s => s.runs = false ∨ Tab.find? s.rcv.refusedPat p = none) id)

/-- 16 R508, R513 to R515, 02 R584, 04 R142: SPDM, the management bus and the ends of copies. -/
def Obligations.IdentityEventsAct : Prop :=
  (∀ t r, Acts (.spdmRequest t r) (fun s => s.spdmUp t = true ∧ spdmKnown r = true ∧ spdmSigned r = false)
    (fun s => (s.spdmSend t (Config.spdmAnswer r s.measurements s.free)).nextFree)) ∧
  (∀ t r, Acts (.spdmRequest t r)
    (fun s => s.spdmUp t = true ∧ spdmKnown r = true ∧ spdmSigned r = true ∧ s.idn.identityOk = true ∧
      (s.idn.signing = true ∨ s.idn.exhausted = true))
    (fun s => ((s.spdmSend t (Config.spdmAnswer r s.measurements s.free)).setM t (Config.spdmHash r s.measurements s.free)).nextFree)) ∧
  (∀ t r, Acts (.spdmRequest t r) (fun s => s.spdmUp t = false) id) ∧
  (∀ t m v, Acts (.vendorDefinedRequest t 1) (fun s => s.spdmUp t = true ∧ s.spdmM t = some m ∧ s.signWay = (.now, v))
    (fun _ => (v.spdmSend t (padTo 3188 (Config.hssSign v.idn.subtree v.idn.leaf m))).useLeaf)) ∧
  (∀ t, Acts (.vendorDefinedRequest t 1) (fun s => s.spdmUp t = true ∧ s.spdmM t = none) (fun s => s.spdmSend t [])) ∧
  (∀ t m st v, Acts (.vendorDefinedRequest t 1) (fun s => s.spdmUp t = true ∧ s.spdmM t = some m ∧ s.signWay = (.never st, v))
    (fun _ => v.spdmSend t (toLE 2 st))) ∧
  (∀ a, Happens (.entdaa a) (fun s => s.board.pwrok = true ∧ s.idn.i3cAddr = 0 ∧ 8 ≤ a ∧ a ≤ 0x7D)
    (fun s => { s with idn := { s.idn with i3cAddr := a } })) ∧
  Happens .rstdaa (fun s => s.board.pwrok = true) (fun s => { s with idn := { s.idn with i3cAddr := 0 } }) ∧
  Happens .i3cBusReset (fun s => s.board.pwrok = true) (fun s => { s with idn := { s.idn with i3cAddr := 0 } }) ∧
  (∀ b, Happens (.mctpControlMessage b)
    (fun s => s.board.pwrok = true ∧ s.idn.i3cAddr ≠ 0 ∧ (s.rcv.fatal = false ∨ s.idn.boot = .stopped))
    (fun s => s.spdmSend .mctp (Config.mctpAnswer b))) ∧
  (∀ n x f k a b t o, Acts (.objectCopyComplete n x)
    (fun s => s.runs = true ∧ (s.inflight.find? fun f => f.id == n) = some f ∧ f.wait = .copy k a b t o)
    (fun s => (s.copyDone k a b t o).2.finish f (s.copyDone k a b t o).1)) ∧
  (∀ n x f id t, Acts (.objectCopyComplete n x)
    (fun s => s.runs = true ∧ (s.inflight.find? fun f => f.id == n) = some f ∧ f.wait = .fetch id t) (fun s => s.fetched f id t x)) ∧
  (∀ n x f i b o e m, Acts (.objectCopyComplete n x)
    (fun s => s.runs = true ∧ (s.inflight.find? fun f => f.id == n) = some f ∧ f.wait = .sealing i b o e m b ∧
      (s.tum.jobs.any fun j => j.sealCmd == n + 1) = false)
    (fun s => s.sealCopied f i b o e))

/-! ## Rules stated one by one -/

/-- 02 R71. -/
def Obligations.NopCompletesOk : Prop :=
  ∀ (p : Pkt) (s : State),
    (p.fence = true → s.inflightOf p.sq ≠ [] → exec (.nop p) s = .next s) ∧
    (s.mayTake p = true → p.fetchFault = false → p.hrsv = 0 → p.extLen = 0 → p.extAddr = 0 → ∃ t,
      exec (.nop p) s = .next t ∧ OnlyCompletes s t ∧
      t = (s.taken rowNop p).finish (s.newCmd rowNop p) (if p.inl = 0 then { status := sOK } else { status := sBadField }))

/-- 02 R76. -/
def Obligations.ConfigGetReports : Prop :=
  ∀ (p : Pkt) (s : State), s.mayTake p = true → p.fetchFault = false → p.hrsv = 0 → p.extLen = 0 → p.extAddr = 0 → p.v / 2 ^ 64 = 0 →
    ∃ t, exec (.configGet p) s = .next t ∧ OnlyCompletes s t ∧
      t = (s.taken rowConfigGet p).finish (s.newCmd rowConfigGet p)
        (match keyRow? (p.f 31 0) with
         | some k =>
           if s.ixOk (p.f 63 32) k.ix then
             { status := sOK, r0 := (s.taken rowConfigGet p).keyValue k (p.f 63 32) % 2 ^ k.bits,
               r1 := b2n ((s.taken rowConfigGet p).keyPending k (p.f 63 32)) + 2 * b2n k.ro + 256 * (k.ty % 4) }
           else { status := sBadField }
         | none => { status := sBadField })

/-- 03 R117, R65. -/
def Obligations.ReleaseContextFrees : Prop :=
  ∀ (p : Pkt) (s : State), s.mayTake p = true → p.fetchFault = false → p.hrsv = 0 → p.extLen = 0 → p.extAddr = 0 → p.inl = 0 →
    s.compo.uncommitted = false → ∃ t, exec (.releaseContext p) s = .next t ∧
      match s.ctxNamed p.handle with
      | none => t = (s.taken rowReleaseContext p).finish (s.newCmd rowReleaseContext p) { status := sBadField } ∧ OnlyCompletes s t
      | some i =>
        if (s.ctx i).st = .done ∨ (s.ctx i).st = .ended then
          t = ((s.taken rowReleaseContext p).setCtx i { st := .free, gen := nextGen (s.ctx i).gen }).finish (s.newCmd rowReleaseContext p)
            { status := sOK } ∧
          (t.ctx i).st = .free ∧ (t.ctx i).gen = nextGen (s.ctx i).gen ∧ t.ctxNamed p.handle = none ∧ ∀ j, j ≠ i → t.ctx j = s.ctx j
        else
          t = (s.taken rowReleaseContext p).finish (s.newCmd rowReleaseContext p) { status := sConflict, sc := (s.ctx i).st.code } ∧
          OnlyCompletes s t

/-- 03 R82, R83: a handle of 32 bits names the context whose index and generation it holds, unless the context is FREE; and the lowest
FREE context that is not withheld is taken, none only where there is none. -/
def Obligations.ContextsAreNamedAndTaken : Prop :=
  (∀ (s : State) (i : Nat), i < 8192 → (s.ctx i).gen < 65536 → (s.ctx i).st ≠ .free → s.ctxNamed (s.handleFor i) = some i) ∧
  (∀ (s : State) (h i : Nat), s.ctxNamed h = some i → i < 8192 ∧ h = s.handleFor i ∧ (s.ctx i).st ≠ .free) ∧
  ∀ s : State,
    (∀ i, s.freeCtx = some i → i < 8192 ∧ (s.ctx i).st = .free ∧ s.withheld.contains (i / 2048) = false ∧
      ∀ j, j < i → (s.ctx j).st ≠ .free ∨ s.withheld.contains (j / 2048) = true) ∧
    (s.freeCtx = none → ∀ j, j < 8192 → (s.ctx j).st ≠ .free ∨ s.withheld.contains (j / 2048) = true)

/-- 02 R49, R50: a doorbell write that is malformed, has a reserved bit set, gives an index at or above the entry count or names an
absent ring is discarded with RING_ERROR in the event log, and an ACTIVE submission or completion ring enters ERROR, counted once. -/
def Obligations.BadDoorbellsPutARingInError : Prop :=
  ∀ (s : State) (n w : Nat) (v : W64) (ty : Nat) (c : Instr),
    ((ty = 0 ∧ c = .submissionDoorbell n w v) ∨ (ty = 1 ∧ c = .completionDoorbell n w v)) → s.fwUp = true →
    (w ≠ 4 ∨ fld (v.toNat % 2 ^ 32) 31 20 ≠ 0 ∨ s.ringSt ty n = .absent ∨ 2 ^ s.ringLog ty n ≤ fld (v.toNat % 2 ^ 32) 19 0) →
    ∃ t, exec c s = .next t ∧
      (s.ringSt ty n = .active → t.ringSt ty n = .error ∧ t.ctr kRingErrors 0 = s.ctr kRingErrors 0 + 1) ∧
      (s.ringSt ty n ≠ .active → t.ringSt ty n = s.ringSt ty n ∧ t.ctr kRingErrors 0 = s.ctr kRingErrors 0) ∧
      ∃ e ∈ t.rcv.log, e.event = 0x0002 ∧ e.handle = 0 ∧ e.r0 = ty + 256 * (n % 256) + 65536 * (v.toNat % 2 ^ 32) ∧ e.time = s.now

/-- 17 R546: the 64 bytes of a log entry, and what a posted event puts into them. -/
def Obligations.LogEntriesAreLaidOut : Prop :=
  (∀ (s : State) (code handle r0 r1 : Nat), r0 < 2 ^ 64 → r1 < 2 ^ 64 → ∃ e ∈ (s.postEvent code handle r0 r1).rcv.log,
    e = { event := code, seq := e.seq, time := s.now, handle := handle, r0 := r0, r1 := r1 }) ∧
  ∀ e : LogEntry, e.bytes.length = 64 ∧
    bytesAt e.bytes 0 2 = e.event % 2 ^ 16 ∧ bytesAt e.bytes 2 2 = 0 ∧ bytesAt e.bytes 4 4 = e.seq % 2 ^ 32 ∧
    bytesAt e.bytes 8 8 = e.time % 2 ^ 64 ∧ bytesAt e.bytes 16 4 = e.handle % 2 ^ 32 ∧ bytesAt e.bytes 20 12 = 0 ∧
    bytesAt e.bytes 32 8 = e.r0 % 2 ^ 64 ∧ bytesAt e.bytes 40 8 = e.r1 % 2 ^ 64 ∧ bytesAt e.bytes 48 16 = 0

/-- 17 R547: which held entries READ_EVENT_LOG starts from. -/
def Obligations.LogReadsStartWhereAsked : Prop :=
  ∀ (s : State) (first : Nat), s.rcv.logOk → first < 2 ^ 32 →
    let n := s.rcv.log.length
    let oldest := (s.rcv.logSeq + 2 ^ 32 - n) % 2 ^ 32
    let back := (oldest + 2 ^ 32 - first) % 2 ^ 32
    (1 ≤ back ∧ back < 2 ^ 31 → s.logFrom first = s.rcv.log) ∧
    (¬(1 ≤ back ∧ back < 2 ^ 31) → s.logFrom first = s.rcv.log.drop ((first + 2 ^ 32 - oldest) % 2 ^ 32))

/-- 14 R453: the refill of an enabled shaper whose interval has passed. -/
def Obligations.ShapersRefill : Prop :=
  ∀ (l q : Nat) (s : State) (h : Shaper), s.linkLive l = true → ((s.link l).queue q).sh = h → h.on = true → h.nextAt ≤ s.portCycles l →
    ∃ t, exec (.shaperRefill l q) s = .next t ∧
      ((t.link l).queue q).sh =
        (let new := h.pend.getD (h.rate, h.depth, h.interval)
         let acc := h.rem + new.1 * new.2.2
         { h with rate := new.1, depth := new.2.1, interval := new.2.2, pend := none,
                  tokens := min (min h.tokens new.2.1 + acc / 1000) new.2.1, rem := acc % 1000, nextAt := h.nextAt + new.2.2 }) ∧
      (∀ k, k ≠ q → (t.link l).queue k = (s.link l).queue k) ∧ (∀ k, k ≠ l → t.link k = s.link k) ∧
      t = { s with net := { s.net with links := t.net.links } }

/-- 17 R551: the service button of a port, outside a control-core restart and before the module is SAFE. -/
def Obligations.PortButtonsFollowTheState : Prop :=
  ∀ (l : Nat) (s : State), l < 36 → s.fwUp = true → s.linkLive l = true → s.rcv.modSt ≠ .safe →
    exec (.buttonPress (.port l)) s = .next
      (match (s.link l).st with
       | .up => if s.strandedBy l = 0 then s.drainPort l .out else s.refuseDrain l (s.strandedBy l)
       | .out => s.restorePort l
       | .disabled | .failed => s.trainFrom l
       | .down | .training | .unmapped | .draining => s) ∧
    ((s.link l).st = .up → s.strandedBy l ≠ 0 →
      ((s.refuseDrain l (s.strandedBy l)).link l).st = .up ∧
      Tab.find? (s.refuseDrain l (s.strandedBy l)).rcv.refusedPat l = some (s.now + ms 3000))

/-- 02 R45, R46: a permitted BAR2 write changes exactly the bytes it stores, and a read of them gives them back. -/
def Obligations.WindowWritesStoreTheirBytes : Prop :=
  ∀ (off len : Nat) (data : List Byte) (s : State), s.runs = true → data.length = len →
    s.bar2Ok (s.kv kBar2Window * 2 ^ 36 + off) = true → s.kv kBar2Window * 2 ^ 36 + off + len ≤ hbmSize →
    ∃ t, exec (.bar2Access true off len data) s = .next t ∧
      (∀ a, a < s.kv kBar2Window * 2 ^ 36 + off ∨ s.kv kBar2Window * 2 ^ 36 + off + len ≤ a → t.hbmByte a = s.hbmByte a) ∧
      t.hbmRead (s.kv kBar2Window * 2 ^ 36 + off) len = data ∧
      t = { s with hbm := t.hbm, fw := t.fw, fab := { s.fab with hbmPoison := t.fab.hbmPoison } }

/-- 12 R377: what an atomic writes and returns at the home; a poisoned word is returned as `none` and changes nothing. -/
def Obligations.AtomicsReturnTheOldWord : Prop :=
  (∀ old x y : Nat, atomicNew 0 old x y = (old + x) % 2 ^ 64 ∧ atomicNew 1 old x y = x ∧ atomicNew 2 old x y = if old = x then y else old) ∧
  ∀ (s : State) (a code x y : Nat), a % 8 = 0 → code ≤ 2 → x < 2 ^ 64 → y < 2 ^ 64 →
    (s.poisonAt (a / 128) = true → s.doAtomic a code x y = (none, s)) ∧
    (s.poisonAt (a / 128) = false → ∃ t, s.doAtomic a code x y = (some (leNat (s.hbmRead a 8)), t) ∧
      leNat (t.hbmRead a 8) = atomicNew code (leNat (s.hbmRead a 8)) x y ∧
      (∀ b, b < a ∨ a + 8 ≤ b → t.hbmByte b = s.hbmByte b) ∧ t = { s with hbm := t.hbm, fw := t.fw })

end
end

