-- ==== Sys2Proof/Laws/Mem.lean ====
section
/-! SUPPORT. Tables and memories: what a read gives after a write, and that every operation keeps the canonical form. -/

namespace Sys2Proof.Machine

variable {α : Type}

/-! ## Reading -/

theorem Tab.find?_erase_ne (t : Tab α) {a b : Nat} (h : b ≠ a) : Tab.find? (Tab.erase t a) b = Tab.find? t b := by
  induction t with
  | nil => rfl
  | cons e t ih =>
    obtain ⟨k, v⟩ := e
    simp only [Tab.erase]
    split
    · rename_i hk; subst hk; simp only [Tab.find?, ih]; rw [if_neg (Ne.symm h)]
    · simp only [Tab.find?, ih]

theorem Tab.find?_set (t : Tab α) (a b : Nat) (x : α) :
    Tab.find? (Tab.set t a x) b = if b = a then some x else Tab.find? t b := by
  induction t with
  | nil => simp only [Tab.set, Tab.find?, eq_comm (a := b)]
  | cons e t ih =>
    obtain ⟨k, v⟩ := e
    simp only [Tab.set]
    split
    · simp only [Tab.find?, eq_comm (a := b)]
    · split
      · rename_i hk
        subst hk
        simp only [Tab.find?]
        by_cases h : b = a
        · rw [if_pos h, if_pos h.symm]
        · rw [if_neg h, if_neg (Ne.symm h), if_neg (Ne.symm h)]
      · simp only [Tab.find?, ih]
        split
        · rename_i h1 h2
          rw [if_neg (fun e => h1 (e.symm.trans h2.symm))]
        · rfl

theorem Tab.sorted_some {lo : Nat} {t : Tab α} (h : Tab.sorted (some lo) t = true) : Tab.sorted none t = true := by
  cases t with
  | nil => rfl
  | cons e t => obtain ⟨k, v⟩ := e; simp_all [Tab.sorted]

theorem Tab.find?_low {lo a : Nat} {t : Tab α} (h : Tab.sorted (some lo) t = true) (ha : a ≤ lo) : Tab.find? t a = none := by
  induction t generalizing lo with
  | nil => rfl
  | cons e t ih =>
    obtain ⟨k, v⟩ := e
    simp only [Tab.sorted, Bool.and_eq_true, decide_eq_true_eq] at h
    simp only [Tab.find?]
    rw [if_neg (by omega)]
    exact ih h.2 (by omega)

theorem Tab.find?_erase_self (t : Tab α) (a : Nat) : Tab.find? (Tab.erase t a) a = none := by
  induction t with
  | nil => rfl
  | cons e t ih =>
    obtain ⟨k, v⟩ := e
    simp only [Tab.erase]
    split
    · exact ih
    · rename_i hk; simp only [Tab.find?, if_neg hk]; exact ih

/-- A read of the key written gives the value written. -/
@[simp] theorem Tab.getD_put_self [DecidableEq α] (d : α) (t : Tab α) (a : Nat) (x : α) : Tab.getD d (Tab.put d t a x) a = x := by
  unfold Tab.put Tab.getD
  split
  · rename_i hx; rw [Tab.find?_erase_self, Option.getD_none, hx]
  · rw [Tab.find?_set, if_pos rfl, Option.getD_some]

/-- A read of another key gives what it gave before. -/
theorem Tab.getD_put_ne [DecidableEq α] (d : α) (t : Tab α) {a b : Nat} (h : b ≠ a) (x : α) :
    Tab.getD d (Tab.put d t a x) b = Tab.getD d t b := by
  unfold Tab.put Tab.getD
  split
  · rw [Tab.find?_erase_ne t h]
  · rw [Tab.find?_set, if_neg h]

/-- A read after a write. -/
theorem Tab.getD_put [DecidableEq α] (d : α) (t : Tab α) (a b : Nat) (x : α) :
    Tab.getD d (Tab.put d t a x) b = if b = a then x else Tab.getD d t b := by
  split
  · rename_i h; rw [h, Tab.getD_put_self]
  · rename_i h; exact Tab.getD_put_ne d t h x

/-! ## The canonical form -/

theorem Tab.sorted_mono {lo lo' : Nat} {t : Tab α} (h : Tab.sorted (some lo) t = true) (hl : lo' ≤ lo) : Tab.sorted (some lo') t = true := by
  cases t with
  | nil => rfl
  | cons e t =>
    obtain ⟨k, v⟩ := e
    simp only [Tab.sorted, Bool.and_eq_true, decide_eq_true_eq] at h ⊢
    exact ⟨by omega, h.2⟩

theorem Tab.sorted_filter {lo : Option Nat} {t : Tab α} (h : Tab.sorted lo t = true) (p : Nat × α → Bool) :
    Tab.sorted lo (t.filter p) = true := by
  induction t generalizing lo with
  | nil => cases lo <;> rfl
  | cons e t ih =>
    obtain ⟨k, v⟩ := e
    have hk : Tab.sorted (some k) t = true := by cases lo <;> simp_all [Tab.sorted]
    simp only [List.filter]
    split
    · cases lo with
      | none => simpa only [Tab.sorted] using ih hk
      | some lo => simp only [Tab.sorted, Bool.and_eq_true] at h ⊢; exact ⟨h.1, ih hk⟩
    · cases lo with
      | none => exact Tab.sorted_some (ih hk)
      | some lo =>
        simp only [Tab.sorted, Bool.and_eq_true, decide_eq_true_eq] at h
        exact Tab.sorted_mono (ih hk) (by omega)

theorem Tab.erase_sorted {lo : Option Nat} {t : Tab α} (h : Tab.sorted lo t = true) (a : Nat) : Tab.sorted lo (Tab.erase t a) = true := by
  induction t generalizing lo with
  | nil => cases lo <;> rfl
  | cons e t ih =>
    obtain ⟨k, v⟩ := e
    have hk : Tab.sorted (some k) t = true := by cases lo <;> simp_all [Tab.sorted]
    simp only [Tab.erase]
    split
    · cases lo with
      | none => exact Tab.sorted_some (ih hk)
      | some lo =>
        simp only [Tab.sorted, Bool.and_eq_true, decide_eq_true_eq] at h
        exact Tab.sorted_mono (ih hk) (by omega)
    · cases lo with
      | none => simpa only [Tab.sorted] using ih hk
      | some lo => simp only [Tab.sorted, Bool.and_eq_true] at h ⊢; exact ⟨h.1, ih hk⟩

theorem Tab.erase_mem {t : Tab α} {a : Nat} {e : Nat × α} (h : e ∈ Tab.erase t a) : e ∈ t := by
  induction t with
  | nil => cases h
  | cons c t ih =>
    obtain ⟨k, v⟩ := c
    simp only [Tab.erase] at h
    split at h
    · exact List.mem_cons_of_mem _ (ih h)
    · rcases List.mem_cons.mp h with h | h
      · exact List.mem_cons.mpr (.inl h)
      · exact List.mem_cons_of_mem _ (ih h)

theorem Tab.set_sorted {lo : Option Nat} {t : Tab α} (h : Tab.sorted lo t = true) (a : Nat) (x : α)
    (ha : ∀ l, lo = some l → l < a) : Tab.sorted lo (Tab.set t a x) = true := by
  induction t generalizing lo with
  | nil => cases lo with
    | none => rfl
    | some l => simp only [Tab.set, Tab.sorted, Bool.and_true, decide_eq_true_eq]; exact ha l rfl
  | cons e t ih =>
    obtain ⟨k, v⟩ := e
    have hk : Tab.sorted (some k) t = true := by cases lo <;> simp_all [Tab.sorted]
    have hlo : ∀ u : Tab α, Tab.sorted (some a) u = true → Tab.sorted lo ((a, x) :: u) = true := by
      intro u hu
      cases lo with
      | none => simpa only [Tab.sorted] using hu
      | some l => simp only [Tab.sorted, Bool.and_eq_true, decide_eq_true_eq]; exact ⟨ha l rfl, hu⟩
    simp only [Tab.set]
    split
    · rename_i hak
      refine hlo _ ?_
      simp only [Tab.sorted, Bool.and_eq_true, decide_eq_true_eq]
      exact ⟨hak, hk⟩
    · split
      · rename_i hak; subst hak; exact hlo _ hk
      · have := ih hk (fun l hl => by cases hl; omega)
        cases lo with
        | none => simpa only [Tab.sorted] using this
        | some l => simp only [Tab.sorted, Bool.and_eq_true] at h ⊢; exact ⟨h.1, this⟩

theorem Tab.set_mem {t : Tab α} {a : Nat} {x : α} {e : Nat × α} (h : e ∈ Tab.set t a x) : e = (a, x) ∨ e ∈ t := by
  induction t with
  | nil => exact .inl (List.mem_singleton.mp h)
  | cons c t ih =>
    obtain ⟨k, v⟩ := c
    simp only [Tab.set] at h
    split at h
    · rcases List.mem_cons.mp h with h | h
      · exact .inl h
      · exact .inr h
    · split at h
      · rcases List.mem_cons.mp h with h | h
        · exact .inl h
        · exact .inr (List.mem_cons_of_mem _ h)
      · rcases List.mem_cons.mp h with h | h
        · exact .inr (List.mem_cons.mpr (.inl h))
        · rcases ih h with h | h
          · exact .inl h
          · exact .inr (List.mem_cons_of_mem _ h)

/-- A write keeps the canonical form. -/
theorem Tab.put_wf [DecidableEq α] {d : α} {t : Tab α} (h : Tab.wf d t = true) (a : Nat) (x : α) : Tab.wf d (Tab.put d t a x) = true := by
  simp only [Tab.wf, Bool.and_eq_true, List.all_eq_true, decide_eq_true_eq] at h ⊢
  unfold Tab.put
  split
  · exact ⟨Tab.erase_sorted h.1 a, fun e he => h.2 e (Tab.erase_mem he)⟩
  · rename_i hx
    refine ⟨Tab.set_sorted h.1 a x (by simp), fun e he => ?_⟩
    rcases Tab.set_mem he with rfl | he
    · exact hx
    · exact h.2 e he

theorem Tab.filter_wf [DecidableEq α] {d : α} {t : Tab α} (h : Tab.wf d t = true) (p : Nat × α → Bool) : Tab.wf d (t.filter p) = true := by
  simp only [Tab.wf, Bool.and_eq_true, List.all_eq_true, decide_eq_true_eq] at h ⊢
  exact ⟨Tab.sorted_filter h.1 p, fun e he => h.2 e (List.mem_of_mem_filter he)⟩

/-! ## Memories -/

theorem Mem.write_wf {m : Mem} (h : m.wf = true) (a : Nat) (b : Byte) : (m.write a b).wf = true := Tab.put_wf h a b

theorem Mem.writeN_wf {m : Mem} (h : m.wf = true) (a : Nat) (bs : List Byte) : (m.writeN a bs).wf = true := by
  induction bs generalizing m a with
  | nil => exact h
  | cons b bs ih => exact ih (Mem.write_wf h a b) (a + 1)

theorem Mem.filter_wf {m : Mem} (h : m.wf = true) (p : Nat × Byte → Bool) : Mem.wf (m.filter p) = true := Tab.filter_wf h p

theorem Mem.zero_wf {m : Mem} (h : m.wf = true) (a n : Nat) : (m.zero a n).wf = true := Tab.filter_wf h _

/-- A read of the byte written gives it. -/
theorem Mem.read_write_self (m : Mem) (a : Nat) (b : Byte) : (m.write a b).read a = b := Tab.getD_put_self _ m a b

/-- A write leaves every other byte alone. -/
theorem Mem.read_write_ne (m : Mem) {a c : Nat} (h : c ≠ a) (b : Byte) : (m.write a b).read c = m.read c := Tab.getD_put_ne _ _ h b

/-- A write of a run leaves the bytes outside it alone. -/
theorem Mem.read_writeN_out (m : Mem) (a c : Nat) (bs : List Byte) (h : c < a ∨ a + bs.length ≤ c) : (m.writeN a bs).read c = m.read c := by
  induction bs generalizing m a with
  | nil => rfl
  | cons b bs ih =>
    simp only [List.length_cons] at h
    rw [Mem.writeN, ih _ _ (by omega), Mem.read_write_ne _ (by omega)]

/-- A byte of a run written reads as written. -/
theorem Mem.read_writeN_in (m : Mem) (a i : Nat) (bs : List Byte) (h : i < bs.length) :
    (m.writeN a bs).read (a + i) = bs.getD i 0 := by
  induction bs generalizing m a i with
  | nil => cases h
  | cons b bs ih =>
    cases i with
    | zero =>
      change (Mem.writeN (m.write a b) (a + 1) bs).read a = b
      rw [Mem.read_writeN_out _ _ _ _ (by omega), Mem.read_write_self]
    | succ i =>
      have := ih (m.write a b) (a + 1) i (by simpa using h)
      rw [Mem.writeN, show a + (i + 1) = a + 1 + i by omega, this]; rfl

theorem Mem.readN_length (m : Mem) (a n : Nat) : (m.readN a n).length = n := by
  induction n generalizing a with
  | zero => rfl
  | succ n ih => rw [Mem.readN, List.length_cons, ih]

end Sys2Proof.Machine
end

