-- ==== Sys2Proof/Laws/Evolves.lean ====
section
/-! SUPPORT. `Evolves s t`: what every operation of the block keeps, and how it passes through a composed operation. Each
operation has one lemma `<operation>_evolves`, in the files `Laws/Evolves…`. -/

namespace Sys2Proof.Machine

/-- What every operation of the block keeps, SYS_PWROK's edges and the clock's tick apart. -/
structure Evolves (s t : State) : Prop where
  queue : t.pending = s.pending
  clock : t.now = s.now
  power : t.board.pwrok = s.board.pwrok
  fatal : s.rcv.fatal = true → t.rcv.fatal = true
  fenced : ∀ d, s.rcv.fenced.contains d = true → t.rcv.fenced.contains d = true
  log : s.rcv.logOk → t.rcv.logOk
  hostWr : s.hostWr <+: t.hostWr
  msix : s.msix <+: t.msix
  hbm : Mem.wf s.hbm = true → Mem.wf t.hbm = true
  fw : Mem.wf s.fw = true → Mem.wf t.fw = true
  t2 : Mem.wf s.t2 = true → Mem.wf t.t2 = true
  sp : Mem.wf s.sp = true → Mem.wf t.sp = true
  acc : Mem.wf s.acc = true → Mem.wf t.acc = true
  flash : Mem.wf s.idn.flash = true → Mem.wf t.idn.flash = true
  key : t.idn.keyRevoked = s.idn.keyRevoked
  svn : s.idn.svnFused ≤ t.idn.svnFused
  thermo : s.idn.thermo ≤ t.idn.thermo
  leaves : t.idn.thermo = s.idn.thermo → t.idn.subtree = s.idn.subtree ∧ s.idn.leaf ≤ t.idn.leaf
  leaf : (s.idn.signing = true → s.idn.subtree < s.idn.thermo) → (t.idn.signing = true → t.idn.subtree < t.idn.thermo)

theorem Evolves.refl (s : State) : Evolves s s :=
  ⟨rfl, rfl, rfl, id, fun _ => id, id, List.prefix_rfl, List.prefix_rfl, id, id, id, id, id, id, rfl, Nat.le_refl _, Nat.le_refl _, fun _ => ⟨rfl, Nat.le_refl _⟩, id⟩

theorem Evolves.trans {s t u : State} (a : Evolves s t) (b : Evolves t u) : Evolves s u :=
  ⟨b.queue.trans a.queue, b.clock.trans a.clock, b.power.trans a.power, fun h => b.fatal (a.fatal h), fun d h => b.fenced d (a.fenced d h),
   fun h => b.log (a.log h), a.hostWr.trans b.hostWr, a.msix.trans b.msix, fun h => b.hbm (a.hbm h), fun h => b.fw (a.fw h), fun h => b.t2 (a.t2 h),
   fun h => b.sp (a.sp h), fun h => b.acc (a.acc h), fun h => b.flash (a.flash h), b.key.trans a.key, a.svn.trans b.svn, a.thermo.trans b.thermo,
   fun h => have h1 := Nat.le_antisymm b.thermo (h ▸ a.thermo); have h2 := b.leaves h1.symm; have h3 := a.leaves (h1.trans h); ⟨h2.1.trans h3.1, h3.2.trans h2.2⟩,
   fun h => b.leaf (a.leaf h)⟩

theorem Evolves.after {s t u : State} (b : Evolves t u) (a : Evolves s t) : Evolves s u := a.trans b

theorem Evolves.rcv {s : State} {r : Recov} (h1 : s.rcv.fatal = true → r.fatal = true) (h2 : ∀ d, s.rcv.fenced.contains d = true → r.fenced.contains d = true)
    (h3 : s.rcv.logOk → r.logOk) : Evolves s { s with rcv := r } :=
  ⟨rfl, rfl, rfl, h1, h2, h3, List.prefix_rfl, List.prefix_rfl, id, id, id, id, id, id, rfl, Nat.le_refl _, Nat.le_refl _, fun _ => ⟨rfl, Nat.le_refl _⟩, id⟩

theorem Evolves.idn {s : State} {i : Ident16} (h1 : Mem.wf s.idn.flash = true → Mem.wf i.flash = true) (h2 : i.keyRevoked = s.idn.keyRevoked)
    (h3 : s.idn.svnFused ≤ i.svnFused) (h4 : s.idn.thermo ≤ i.thermo)
    (h4a : i.thermo = s.idn.thermo → i.subtree = s.idn.subtree ∧ s.idn.leaf ≤ i.leaf)
    (h5 : (s.idn.signing = true → s.idn.subtree < s.idn.thermo) → (i.signing = true → i.subtree < i.thermo)) : Evolves s { s with idn := i } :=
  ⟨rfl, rfl, rfl, id, fun _ => id, id, List.prefix_rfl, List.prefix_rfl, id, id, id, id, id, h1, h2, h3, h4, h4a, h5⟩

/-- A record update that leaves those fields alone. -/
theorem Evolves.upd {s b : State} {x_islands : Tab Nat} {x_free : Nat} {x_keySet : Tab Nat} {x_keyEff : Tab Nat} {x_ctrs : Tab Nat} {x_host : HostIf} {x_inflight : List Inflight} {x_cmdNext : Nat} {x_pow : Power} {x_board : Board} {x_rcv : Recov} {x_ctxs : Tab Ctx} {x_outHeld : List OutHeld} {x_latches : Tab Latch} {x_withheld : NSet} {x_images : Tab Img} {x_models : Tab Model} {x_deltas : Tab Delta} {x_grammars : Tab Grammar} {x_prefixes : Tab PrefixObj} {x_regions : Tab Region} {x_nextId : Tab Nat} {x_parts : Tab Part} {x_pcs : Tab ProgCtx} {x_spPoison : NSet} {x_accPoison : NSet} {x_stats : Tab Nat} {x_expStats : Tab Nat} {x_t1x : Tab Ext} {x_t1Res : List (Nat × Nat)} {x_t1Map : List (Nat × Nat)} {x_t1Cache : List (Nat × Nat)} {x_t2x : Tab Ext} {x_quota : Tab Nat} {x_usage : Tab Nat} {x_hostT1 : Nat} {x_drives : Tab Drive} {x_frames : List Frame} {x_tierOps : List TierOp} {x_tierNext : Nat} {x_fab : Fab} {x_net : Net} {x_tum : Tumbler} {x_idn : Ident16} {x_compo : Compo}
    (h1 : x_board.pwrok = b.board.pwrok) (h2 : x_rcv.fatal = b.rcv.fatal) (h3 : x_rcv.log = b.rcv.log) (h3a : x_rcv.logSeq = b.rcv.logSeq) (h3b : x_rcv.fenced = b.rcv.fenced) (h4 : x_idn.keyRevoked = b.idn.keyRevoked)
    (h5 : x_idn.svnFused = b.idn.svnFused) (h6 : x_idn.thermo = b.idn.thermo) (h7 : x_idn.subtree = b.idn.subtree) (h8 : x_idn.signing = b.idn.signing)
    (h9 : x_idn.flash = b.idn.flash) (h10 : x_idn.leaf = b.idn.leaf) (h : Evolves s b) :
    Evolves s (State.mk b.pending b.now x_islands x_free x_keySet x_keyEff x_ctrs x_host b.hostWr b.msix x_inflight x_cmdNext x_pow x_board x_rcv x_ctxs x_outHeld x_latches x_withheld x_images x_models x_deltas x_grammars x_prefixes x_regions x_nextId x_parts x_pcs b.sp b.acc x_spPoison x_accPoison x_stats x_expStats b.hbm b.fw b.t2 x_t1x x_t1Res x_t1Map x_t1Cache x_t2x x_quota x_usage x_hostT1 x_drives x_frames x_tierOps x_tierNext x_fab x_net x_tum x_idn x_compo) :=
  h.trans ⟨rfl, rfl, h1, by rw [h2]; exact id, by rw [h3b]; exact fun _ => id, by unfold Recov.logOk; rw [h3, h3a]; exact id, List.prefix_rfl, List.prefix_rfl,
    id, id, id, id, id, by rw [h9]; exact id, h4, by rw [h5], by rw [h6], fun _ => ⟨h7, by rw [h10]⟩, by rw [h6, h7, h8]; exact id⟩
theorem Evolves.foldl {α : Type} {f : State → α → State} {s t : State} (l : List α) (h : Evolves s t) (hf : ∀ u a, Evolves u (f u a)) : Evolves s (l.foldl f t) := by
  induction l generalizing t with
  | nil => exact h
  | cons a l ih => exact ih (h.trans (hf t a))


theorem Evolves.snd {α : Type} {s : State} {p : α × State} {a : α} {t : State} (h : p = (a, t)) (e : Evolves s p.2) : Evolves s t := by subst h; exact e
theorem Evolves.snd2 {α β : Type} {s : State} {p : α × β × State} {a : α} {b : β} {t : State} (h : p = (a, b, t)) (e : Evolves s p.2.2) : Evolves s t := by subst h; exact e
theorem Evolves.snd3 {α β γ : Type} {s : State} {p : α × β × γ × State} {a : α} {b : β} {c : γ} {t : State} (h : p = (a, b, c, t)) (e : Evolves s p.2.2.2) : Evolves s t := by subst h; exact e
theorem Evolves.ite {c : Prop} [Decidable c] {s a b : State} (ha : Evolves s a) (hb : Evolves s b) : Evolves s (if c then a else b) := by
  split
  · exact ha
  · exact hb

/-- The same where a memory or a list of what left the block changes. -/
theorem Evolves.gen {s b : State} {x_hbm x_fw x_t2 x_sp x_acc : Mem} {x_hostWr : List (Nat × List Byte)} {x_msix : List Nat} {x_islands : Tab Nat} {x_free : Nat} {x_keySet : Tab Nat} {x_keyEff : Tab Nat} {x_ctrs : Tab Nat} {x_host : HostIf} {x_inflight : List Inflight} {x_cmdNext : Nat} {x_pow : Power} {x_board : Board} {x_rcv : Recov} {x_ctxs : Tab Ctx} {x_outHeld : List OutHeld} {x_latches : Tab Latch} {x_withheld : NSet} {x_images : Tab Img} {x_models : Tab Model} {x_deltas : Tab Delta} {x_grammars : Tab Grammar} {x_prefixes : Tab PrefixObj} {x_regions : Tab Region} {x_nextId : Tab Nat} {x_parts : Tab Part} {x_pcs : Tab ProgCtx} {x_spPoison : NSet} {x_accPoison : NSet} {x_stats : Tab Nat} {x_expStats : Tab Nat} {x_t1x : Tab Ext} {x_t1Res : List (Nat × Nat)} {x_t1Map : List (Nat × Nat)} {x_t1Cache : List (Nat × Nat)} {x_t2x : Tab Ext} {x_quota : Tab Nat} {x_usage : Tab Nat} {x_hostT1 : Nat} {x_drives : Tab Drive} {x_frames : List Frame} {x_tierOps : List TierOp} {x_tierNext : Nat} {x_fab : Fab} {x_net : Net} {x_tum : Tumbler} {x_idn : Ident16} {x_compo : Compo}
    (h1 : x_board.pwrok = b.board.pwrok) (h2 : x_rcv.fatal = b.rcv.fatal) (h3 : x_rcv.log = b.rcv.log) (h3a : x_rcv.logSeq = b.rcv.logSeq) (h3b : x_rcv.fenced = b.rcv.fenced) (h4 : x_idn.keyRevoked = b.idn.keyRevoked)
    (h5 : x_idn.svnFused = b.idn.svnFused) (h6 : x_idn.thermo = b.idn.thermo) (h7 : x_idn.subtree = b.idn.subtree) (h8 : x_idn.signing = b.idn.signing)
    (h9 : x_idn.flash = b.idn.flash) (h10 : x_idn.leaf = b.idn.leaf) (g1 : Mem.wf b.hbm = true → Mem.wf x_hbm = true) (g2 : Mem.wf b.fw = true → Mem.wf x_fw = true)
    (g3 : Mem.wf b.t2 = true → Mem.wf x_t2 = true) (g4 : Mem.wf b.sp = true → Mem.wf x_sp = true) (g5 : Mem.wf b.acc = true → Mem.wf x_acc = true)
    (g6 : b.hostWr <+: x_hostWr) (g7 : b.msix <+: x_msix) (h : Evolves s b) :
    Evolves s (State.mk b.pending b.now x_islands x_free x_keySet x_keyEff x_ctrs x_host x_hostWr x_msix x_inflight x_cmdNext x_pow x_board x_rcv x_ctxs x_outHeld x_latches x_withheld x_images x_models x_deltas x_grammars x_prefixes x_regions x_nextId x_parts x_pcs x_sp x_acc x_spPoison x_accPoison x_stats x_expStats x_hbm x_fw x_t2 x_t1x x_t1Res x_t1Map x_t1Cache x_t2x x_quota x_usage x_hostT1 x_drives x_frames x_tierOps x_tierNext x_fab x_net x_tum x_idn x_compo) :=
  h.trans ⟨rfl, rfl, h1, by rw [h2]; exact id, by rw [h3b]; exact fun _ => id, by unfold Recov.logOk; rw [h3, h3a]; exact id, g6, g7,
    g1, g2, g3, g4, g5, by rw [h9]; exact id, h4, by rw [h5], by rw [h6], fun _ => ⟨h7, by rw [h10]⟩, by rw [h6, h7, h8]; exact id⟩

theorem Evolves.foldl_fst {α β : Type} {f : State × β → α → State × β} (hf : ∀ r a, Evolves r.1 (f r a).1) (l : List α) {s : State} {r : State × β}
    (h : Evolves s r.1) : Evolves s (l.foldl f r).1 := by
  induction l generalizing r with
  | nil => exact h
  | cons a l ih => exact ih (h.trans (hf r a))

theorem Evolves.foldl_snd {α β : Type} {f : β × State → α → β × State} (hf : ∀ r a, Evolves r.2 (f r a).2) (l : List α) {s : State} {r : β × State}
    (h : Evolves s r.2) : Evolves s (l.foldl f r).2 := by
  induction l generalizing r with
  | nil => exact h
  | cons a l ih => exact ih (h.trans (hf r a))

theorem Flow.foldl_evolves {α : Type} {g : Flow → α → Flow} {s : State} {l : List α} {f : Flow} (hg : ∀ f a, Evolves f.s (g f a).s)
    (h : Evolves s f.s) : Evolves s (l.foldl g f).s := by
  induction l generalizing f with
  | nil => exact h
  | cons a l ih => exact ih (h.trans (hg f a))

theorem NSet.contains_add {t : NSet} {d : Nat} (h : List.contains t d = true) (a : Nat) : List.contains (NSet.add t a) d = true := by
  induction t with
  | nil => cases h
  | cons k t ih =>
    simp only [List.contains_cons, Bool.or_eq_true, NSet.add] at h ⊢
    split
    · simp only [List.contains_cons, Bool.or_eq_true]; exact .inr h
    · split
      · simpa only [List.contains_cons, Bool.or_eq_true] using h
      · simp only [List.contains_cons, Bool.or_eq_true]; exact h.imp id ih
theorem splice_wf {m : Mem} (h : m.wf = true) (lo n : Nat) (new : Mem) : (splice m lo n new).wf = true := by
  unfold splice
  have : ∀ (l : List (Nat × Byte)) (k : Mem), k.wf = true → Mem.wf (l.foldl (fun m e => Mem.write m e.1 e.2) k) = true := by
    intro l
    induction l with
    | nil => exact fun _ h => h
    | cons e l ih => exact fun k hk => ih _ (Mem.write_wf hk _ _)
  exact this _ _ (Mem.zero_wf h lo n)

/-- The state of a command's answer, completed or waiting. -/
def Done.state : Done → State
  | .done _ s => s
  | .wait _ _ _ s => s

/-- A command's answer keeps what every operation keeps. -/
def DoneKept (s : State) (d : Done) : Prop := Evolves s d.state

/-- An outcome that is a next state keeps what every operation keeps. -/
def Kept (s : State) (r : Host.Outcome State Fault Refusal) : Prop := ∀ t, r = .next t → Evolves s t

theorem DoneKept.done {s t : State} {a : Ans} (h : Evolves s t) : DoneKept s (.done a t) := h
theorem DoneKept.wait {s t : State} {w : Wait} {c : Bool} {b : Option Nat} (h : Evolves s t) : DoneKept s (.wait w c b t) := h
theorem DoneKept.after {s t : State} {d : Done} (b : DoneKept t d) (a : Evolves s t) : DoneKept s d := a.trans b
theorem DoneKept.ite {c : Prop} [Decidable c] {s : State} {a b : Done} (ha : DoneKept s a) (hb : DoneKept s b) : DoneKept s (if c then a else b) := by
  split
  · exact ha
  · exact hb

theorem Kept.next {s t : State} (h : Evolves s t) : Kept s (.next t) := fun _ e => by cases e; exact h
theorem Kept.fault {s : State} {f : Fault} : Kept s (.fault f) := fun _ e => by cases e
theorem Kept.refused {s : State} {f : Refusal} : Kept s (.refused f) := fun _ e => by cases e
theorem Kept.after {s t : State} {r : Host.Outcome State Fault Refusal} (b : Kept t r) (a : Evolves s t) : Kept s r := fun _ e => a.trans (b _ e)
theorem Kept.ite {c : Prop} [Decidable c] {s : State} {a b : Host.Outcome State Fault Refusal} (ha : Kept s a) (hb : Kept s b) : Kept s (if c then a else b) := by
  split
  · exact ha
  · exact hb

theorem firstFail_none {l : List (Bool × Ans)} (h : firstFail l = none) : ∀ e ∈ l, e.1 = false := by
  induction l with
  | nil => exact fun _ h => nomatch h
  | cons c cs ih =>
    obtain ⟨b, a⟩ := c
    unfold firstFail at h
    cases b with
    | true => cases h
    | false => exact fun e he => (List.mem_cons.mp he).elim (fun h => by rw [h]) (ih h e)

theorem CmdRow.check_of_verdict {r : CmdRow} {p : Pkt} {s : State} (h : r.verdict p s = none) : r.check p s = none := by
  unfold CmdRow.verdict at h
  split at h
  · cases h
  · split at h
    · split at h <;> cases h
    · assumption

end Sys2Proof.Machine
end

