-- ==== Sys2Proof/Laws/EvolvesKeys.lean ====
section
/-! SUPPORT. What the operations of Keys, Post, Mf, Ext, Net, Req keep (`Laws/Evolves.lean`). -/

namespace Sys2Proof.Machine

theorem State.adopt_evolves {s : State} {key : Nat} {ix : optParam Nat 0} : Evolves s (s.adopt key ix) := by
  unfold State.adopt
  with_reducible refine .upd rfl rfl rfl rfl rfl rfl rfl rfl rfl rfl rfl rfl ?_
  exact .refl _

theorem State.setKey_evolves {s : State} {key : Nat} {ix : Nat} {v : Nat} {later : Bool} : Evolves s (s.setKey key ix v later) := by
  unfold State.setKey
  dsimp only
  refine .ite ?_ ?_
  · with_reducible refine .upd rfl rfl rfl rfl rfl rfl rfl rfl rfl rfl rfl rfl ?_
    exact .refl _
  · with_reducible refine .upd rfl rfl rfl rfl rfl rfl rfl rfl rfl rfl rfl rfl ?_
    exact .refl _

theorem State.bump_evolves {s : State} {key : Nat} {n : optParam Nat 1} {ix : optParam Nat 0} : Evolves s (s.bump key n ix) := by
  unfold State.bump
  with_reducible refine .upd rfl rfl rfl rfl rfl rfl rfl rfl rfl rfl rfl rfl ?_
  exact .refl _

theorem State.setCtr_evolves {s : State} {key : Nat} {v : Nat} {ix : optParam Nat 0} : Evolves s (s.setCtr key v ix) := by
  unfold State.setCtr
  with_reducible refine .upd rfl rfl rfl rfl rfl rfl rfl rfl rfl rfl rfl rfl ?_
  exact .refl _

theorem State.signalVector_evolves {s : State} {v : Nat} : Evolves s (s.signalVector v) := by
  unfold State.signalVector
  dsimp only
  refine .ite ?_ ?_
  · refine .gen rfl rfl rfl rfl rfl rfl rfl rfl rfl rfl rfl rfl id id id id id List.prefix_rfl (List.prefix_append _ _) ?_
    exact .refl _
  · with_reducible refine .upd rfl rfl rfl rfl rfl rfl rfl rfl rfl rfl rfl rfl ?_
    exact .refl _

theorem State.setSq_evolves {s : State} {n : Nat} {r : SubRing} : Evolves s (s.setSq n r) := by
  unfold State.setSq
  dsimp only
  with_reducible refine .upd rfl rfl rfl rfl rfl rfl rfl rfl rfl rfl rfl rfl ?_
  exact .refl _

theorem State.setCq_evolves {s : State} {n : Nat} {r : DevRing} : Evolves s (s.setCq n r) := by
  unfold State.setCq
  dsimp only
  with_reducible refine .upd rfl rfl rfl rfl rfl rfl rfl rfl rfl rfl rfl rfl ?_
  exact .refl _

theorem State.setOq_evolves {s : State} {n : Nat} {r : DevRing} : Evolves s (s.setOq n r) := by
  unfold State.setOq
  dsimp only
  with_reducible refine .upd rfl rfl rfl rfl rfl rfl rfl rfl rfl rfl rfl rfl ?_
  exact .refl _

theorem State.hostWrite_evolves {s : State} {a : Nat} {bs : List Byte} : Evolves s (s.hostWrite a bs) := by
  unfold State.hostWrite
  refine .gen rfl rfl rfl rfl rfl rfl rfl rfl rfl rfl rfl rfl id id id id id (List.prefix_append _ _) List.prefix_rfl ?_
  exact .refl _

theorem State.hostWrites_evolves {s : State} {ws : List (Nat × List Byte)} : Evolves s (s.hostWrites ws) := by
  unfold State.hostWrites
  refine .foldl _ ?_ (fun _ _ => ?_)
  · exact .refl _
  · exact .after State.hostWrite_evolves (.refl _)

theorem State.cqPost_evolves {s : State} {c : Nat} {entry : Bool → Nat} {irq : Bool} : Evolves s (s.cqPost c entry irq) := by
  unfold State.cqPost
  dsimp only
  exact .ite (.ite (.after State.signalVector_evolves (.after State.setCq_evolves (.after State.hostWrite_evolves (.refl _)))) (.after State.setCq_evolves (.after State.hostWrite_evolves (.refl _)))) (.refl _)

theorem State.logEvent_evolves {s : State} {code : Nat} {handle : Nat} {r0 : Nat} {r1 : Nat} : Evolves s (s.logEvent code handle r0 r1) := by
  unfold State.logEvent
  refine .rcv id (fun _ => id) ?_
  rintro ⟨h1, h2, h3⟩
  refine ⟨?_, ?_, ?_⟩
  · dsimp only
    rw [List.length_drop, List.length_append, List.length_singleton]; omega
  · exact Nat.mod_lt _ (by norm_num)
  · intro i e he
    dsimp only at he ⊢
    rw [List.getElem?_drop, List.getElem?_append] at he
    rw [List.length_drop]
    simp only [List.length_append, List.length_singleton] at he ⊢
    split at he
    · have := h3 _ _ he; omega
    · rw [List.getElem?_singleton] at he
      split at he
      · cases he; dsimp only; omega
      · cases he

theorem State.putEvent_evolves {s : State} {code : Nat} {handle : Nat} {r0 : Nat} {r1 : Nat} : Evolves s (s.putEvent code handle r0 r1) := by
  unfold State.putEvent
  dsimp only
  refine .after State.cqPost_evolves ?_
  with_reducible refine .upd rfl rfl rfl rfl rfl rfl rfl rfl rfl rfl rfl rfl ?_
  exact .refl _

theorem State.flushLost_evolves {s : State} : Evolves s s.flushLost := by
  unfold State.flushLost
  dsimp only
  refine .ite (.after State.putEvent_evolves (.after State.logEvent_evolves ?_)) (.refl _)
  with_reducible refine .upd rfl rfl rfl rfl rfl rfl rfl rfl rfl rfl rfl rfl ?_
  exact .refl _

theorem State.postEvent_evolves {s : State} {code : Nat} {handle : Nat} {r0 : Nat} {r1 : Nat} : Evolves s (s.postEvent code handle r0 r1) := by
  unfold State.postEvent
  dsimp only
  refine .ite (.ite ?_ ?_) (.after State.logEvent_evolves (.refl _))
  · refine .ite (.after State.putEvent_evolves (.after State.logEvent_evolves (.after State.flushLost_evolves (.after State.adopt_evolves (.refl _))))) (.after State.bump_evolves ?_)
    with_reducible refine .upd rfl rfl rfl rfl rfl rfl rfl rfl rfl rfl rfl rfl ?_
    exact .after State.logEvent_evolves (.after State.flushLost_evolves (.after State.adopt_evolves (.refl _)))
  · with_reducible refine .upd rfl rfl rfl rfl rfl rfl rfl rfl rfl rfl rfl rfl ?_
    exact .after State.logEvent_evolves (.after State.adopt_evolves (.refl _))

theorem State.dropRing_evolves {s : State} {ty : Nat} {n : Nat} : Evolves s (s.dropRing ty n) := by
  unfold State.dropRing
  exact .ite (.after State.setSq_evolves (.refl _)) (.ite (.after State.setCq_evolves (.refl _)) (.after State.setOq_evolves (.refl _)))

theorem State.postCompletion_evolves {s : State} {f : Inflight} {a : Ans} : Evolves s (s.postCompletion f a) := by
  unfold State.postCompletion
  dsimp only
  exact .ite (.after State.cqPost_evolves (.ite (.refl _) (.after State.hostWrites_evolves (.refl _)))) (.refl _)

theorem State.finish1_evolves {s : State} {f : Inflight} {a : Ans} : Evolves s (s.finish1 f a) := by
  unfold State.finish1
  dsimp only
  with_reducible refine .upd rfl rfl rfl rfl rfl rfl rfl rfl rfl rfl rfl rfl ?_
  exact .after State.postCompletion_evolves (.refl _)

theorem State.settleDeletes_evolves {s : State} : Evolves s s.settleDeletes := by
  unfold State.settleDeletes
  refine .foldl _ ?_ (fun _ _ => ?_)
  · exact .refl _
  · split
    · exact .ite (.after State.finish1_evolves (.after State.dropRing_evolves (.refl _))) (.refl _)
    · exact .refl _

theorem State.finish_evolves {s : State} {f : Inflight} {a : Ans} : Evolves s (s.finish f a) := by
  unfold State.finish
  exact .after State.settleDeletes_evolves (.after State.finish1_evolves (.refl _))

theorem State.finishId_evolves {s : State} {id : Nat} {a : Ans} : Evolves s (s.finishId id a) := by
  unfold State.finishId
  split
  · exact .after State.finish_evolves (.refl _)
  · exact .refl _

theorem State.finishAll_evolves {s : State} {p : Wait → Bool} {a : Ans} : Evolves s (s.finishAll p a) := by
  unfold State.finishAll
  refine .foldl _ ?_ (fun _ _ => ?_)
  · exact .refl _
  · exact .after State.finish_evolves (.refl _)

theorem State.setWait_evolves {s : State} {id : Nat} {w : Wait} : Evolves s (s.setWait id w) := by
  unfold State.setWait
  with_reducible refine .upd rfl rfl rfl rfl rfl rfl rfl rfl rfl rfl rfl rfl ?_
  exact .refl _

theorem State.commitCmd_evolves {s : State} {id : Nat} : Evolves s (s.commitCmd id) := by
  unfold State.commitCmd
  with_reducible refine .upd rfl rfl rfl rfl rfl rfl rfl rfl rfl rfl rfl rfl ?_
  exact .refl _

theorem State.oqPost_evolves {s : State} {n : Nat} {handle : Nat} {cookie : Nat} {e : OutEnt} : Evolves s (s.oqPost n handle cookie e) := by
  unfold State.oqPost
  dsimp only
  exact .ite (.after State.signalVector_evolves (.after State.setOq_evolves (.after State.hostWrite_evolves (.refl _)))) (.after State.setOq_evolves (.after State.hostWrite_evolves (.refl _)))

theorem State.nextFree_evolves {s : State} : Evolves s s.nextFree := by
  unfold State.nextFree
  with_reducible refine .upd rfl rfl rfl rfl rfl rfl rfl rfl rfl rfl rfl rfl ?_
  exact .refl _

theorem State.setDrive_evolves {s : State} {d : Nat} {x : Drive} : Evolves s (s.setDrive d x) := by
  unfold State.setDrive
  with_reducible refine .upd rfl rfl rfl rfl rfl rfl rfl rfl rfl rfl rfl rfl ?_
  exact .refl _

theorem State.setExt_evolves {s : State} {tier : Nat} {e : Nat} {x : Ext} : Evolves s (s.setExt tier e x) := by
  unfold State.setExt
  refine .ite ?_ ?_
  · with_reducible refine .upd rfl rfl rfl rfl rfl rfl rfl rfl rfl rfl rfl rfl ?_
    exact .refl _
  · with_reducible refine .upd rfl rfl rfl rfl rfl rfl rfl rfl rfl rfl rfl rfl ?_
    exact .refl _

theorem State.modExts_evolves {s : State} {tier : Nat} {e : Nat} {n : Nat} {f : Ext → Ext} : Evolves s (s.modExts tier e n f) := by
  unfold State.modExts
  refine .foldl _ ?_ (fun _ _ => ?_)
  · exact .refl _
  · exact .after State.setExt_evolves (.refl _)

theorem State.charge_evolves {s : State} {t : Nat} {tier : Nat} {n : Nat} : Evolves s (s.charge t tier n) := by
  unfold State.charge
  with_reducible refine .upd rfl rfl rfl rfl rfl rfl rfl rfl rfl rfl rfl rfl ?_
  exact .refl _

theorem State.uncharge_evolves {s : State} {t : Nat} {tier : Nat} {n : Nat} : Evolves s (s.uncharge t tier n) := by
  unfold State.uncharge
  with_reducible refine .upd rfl rfl rfl rfl rfl rfl rfl rfl rfl rfl rfl rfl ?_
  exact .refl _

theorem State.dropIndex_evolves {s : State} {o : PrefixObj} : Evolves s (s.dropIndex o) := by
  unfold State.dropIndex
  dsimp only
  refine .ite (.refl _) ?_
  with_reducible refine .upd rfl rfl rfl rfl rfl rfl rfl rfl rfl rfl rfl rfl ?_
  exact .refl _

theorem State.freePrefix_evolves {s : State} {o : PrefixObj} : Evolves s (s.freePrefix o) := by
  unfold State.freePrefix
  dsimp only
  refine .after State.dropIndex_evolves (.after State.bump_evolves (.after State.uncharge_evolves (.after State.modExts_evolves ?_)))
  refine .gen rfl rfl rfl rfl rfl rfl rfl rfl rfl rfl rfl rfl (fun h => Mem.zero_wf h _ _) id id id id List.prefix_rfl List.prefix_rfl ?_
  exact .refl _

theorem State.reclaim_evolves {ok : State → Bool} {x1 : Option Nat} {a : Nat} {x3 : State} : Evolves x3 (State.reclaim ok x1 a x3) := by
  induction a generalizing x3 with
  | zero => exact .refl _
  | succ n ih =>
    unfold State.reclaim
    split
    · exact .refl _
    · split
      · exact .after ih State.freePrefix_evolves
      · exact .refl _

theorem State.reclaimFor_evolves {s : State} {t : Nat} {n : Nat} : Evolves s (s.reclaimFor t n) := by
  unfold State.reclaimFor
  exact .after State.reclaim_evolves (.refl _)

theorem State.choose_evolves {s : State} {m : Nat} : Evolves s (s.choose m).2 := by
  unfold State.choose
  split
  · dsimp only
    exact .refl _
  · dsimp only
    exact .after State.nextFree_evolves (.refl _)

theorem State.findRun_evolves {s : State} {n : Nat} {x2 : optParam (Option Nat) none} : Evolves s (s.findRun n x2).2 := by
  unfold State.findRun
  dsimp only
  exact .after State.choose_evolves (.ite (.refl _) (.after State.reclaim_evolves (.refl _)))

theorem State.takeExts_evolves {s : State} {tier : Nat} {e : Nat} {n : Nat} {st : ExtSt} {who : Grantee} : Evolves s (s.takeExts tier e n st who) := by
  unfold State.takeExts
  dsimp only
  refine .ite ?_ (.after State.modExts_evolves (.refl _))
  with_reducible refine .upd rfl rfl rfl rfl rfl rfl rfl rfl rfl rfl rfl rfl ?_
  exact .after State.modExts_evolves (.refl _)

theorem State.unchargeExt_evolves {s : State} {tier : Nat} {w : Grantee} : Evolves s (s.unchargeExt tier w) := by
  unfold State.unchargeExt
  split
  · with_reducible refine .upd rfl rfl rfl rfl rfl rfl rfl rfl rfl rfl rfl rfl ?_
    exact .refl _
  · split
    · exact .after State.uncharge_evolves (.refl _)
    · exact .refl _

theorem State.dropFrames_evolves {s : State} {e : Nat} : Evolves s (s.dropFrames e) := by
  unfold State.dropFrames
  with_reducible refine .upd rfl rfl rfl rfl rfl rfl rfl rfl rfl rfl rfl rfl ?_
  exact .refl _

theorem State.scrubExt_evolves {s : State} {tier : Nat} {e : Nat} : Evolves s (s.scrubExt tier e) := by
  unfold State.scrubExt
  dsimp only
  exact .ite (.after State.dropFrames_evolves (.after State.setExt_evolves (.refl _))) (.after State.setExt_evolves (.refl _))

theorem State.stopRing_evolves {s : State} {tier : Nat} {e : Nat} : Evolves s (s.stopRing tier e) := by
  unfold State.stopRing
  dsimp only
  refine .ite (.after State.postEvent_evolves ?_) (.refl _)
  with_reducible refine .upd rfl rfl rfl rfl rfl rfl rfl rfl rfl rfl rfl rfl ?_
  exact .refl _

theorem State.releaseExt_evolves {s : State} {tier : Nat} {e : Nat} : Evolves s (s.releaseExt tier e) := by
  unfold State.releaseExt
  dsimp only
  split
  · exact .after State.scrubExt_evolves (.after State.unchargeExt_evolves (.refl _))
  · exact .after State.scrubExt_evolves (.after State.unchargeExt_evolves (.refl _))
  · exact .after State.setExt_evolves (.refl _)
  · exact .after State.setExt_evolves (.after State.unchargeExt_evolves (.refl _))
  · exact .refl _

theorem State.releaseExts_evolves {s : State} {tier : Nat} {e : Nat} {n : Nat} : Evolves s (s.releaseExts tier e n) := by
  unfold State.releaseExts
  refine .foldl _ ?_ (fun _ _ => ?_)
  · exact .refl _
  · exact .after State.releaseExt_evolves (.refl _)

theorem State.releaseObject_evolves {s : State} {tenant : Nat} {first : Nat} {n : Nat} : Evolves s (s.releaseObject tenant first n) := by
  unfold State.releaseObject
  refine .after State.uncharge_evolves (.foldl _ ?_ (fun _ _ => ?_))
  · exact .refl _
  · exact .after State.scrubExt_evolves (.refl _)

theorem State.hbmPut_evolves {s : State} {a : Nat} {b : Byte} : Evolves s (s.hbmPut a b) := by
  unfold State.hbmPut
  refine .ite ?_ ?_
  · refine .gen rfl rfl rfl rfl rfl rfl rfl rfl rfl rfl rfl rfl id (fun h => Mem.write_wf h _ _) id id id List.prefix_rfl List.prefix_rfl ?_
    exact .refl _
  · refine .gen rfl rfl rfl rfl rfl rfl rfl rfl rfl rfl rfl rfl (fun h => Mem.write_wf h _ _) id id id id List.prefix_rfl List.prefix_rfl ?_
    exact .refl _

theorem State.hbmWrite_evolves {s : State} {a : Nat} {x2 : List Byte} : Evolves s (s.hbmWrite a x2) := by
  induction x2 generalizing s a with
  | nil => exact .refl _
  | cons b bs ih => exact .after ih State.hbmPut_evolves

theorem State.linePoison_evolves {s : State} {line : Nat} {p : Bool} : Evolves s (s.linePoison line p) := by
  unfold State.linePoison
  dsimp only
  with_reducible refine .upd rfl rfl rfl rfl rfl rfl rfl rfl rfl rfl rfl rfl ?_
  exact .refl _

theorem State.settleRevokes_evolves {s : State} : Evolves s s.settleRevokes := by
  unfold State.settleRevokes
  refine .foldl _ ?_ (fun _ _ => ?_)
  · exact .refl _
  · split
    · exact .ite (.after State.finish_evolves (.refl _)) (.refl _)
    · exact .refl _

theorem State.setLink_evolves {s : State} {l : Nat} {x : Link} : Evolves s (s.setLink l x) := by
  unfold State.setLink
  dsimp only
  with_reducible refine .upd rfl rfl rfl rfl rfl rfl rfl rfl rfl rfl rfl rfl ?_
  exact .refl _

theorem State.modLink_evolves {s : State} {l : Nat} {f : Link → Link} : Evolves s (s.modLink l f) := by
  unfold State.modLink
  exact .after State.setLink_evolves (.refl _)

theorem State.setNode_evolves {s : State} {n : Nat} {x : Node} : Evolves s (s.setNode n x) := by
  unfold State.setNode
  dsimp only
  with_reducible refine .upd rfl rfl rfl rfl rfl rfl rfl rfl rfl rfl rfl rfl ?_
  exact .refl _

theorem State.modNode_evolves {s : State} {n : Nat} {f : Node → Node} : Evolves s (s.modNode n f) := by
  unfold State.modNode
  exact .after State.setNode_evolves (.refl _)

theorem State.unroute_evolves {s : State} {l : Nat} : Evolves s (s.unroute l) := by
  unfold State.unroute
  dsimp only
  with_reducible refine .upd rfl rfl rfl rfl rfl rfl rfl rfl rfl rfl rfl rfl ?_
  exact .after State.modLink_evolves (.refl _)

theorem State.setPort_evolves {s : State} {l : Nat} {st : PortSt} : Evolves s (s.setPort l st) := by
  unfold State.setPort
  dsimp only
  exact .ite (.refl _) (.after State.postEvent_evolves (.after State.modLink_evolves (.ite (.after State.unroute_evolves (.refl _)) (.refl _))))

theorem State.setJobTd_evolves {s : State} {j : Nat} {x : JobTd} : Evolves s (s.setJobTd j x) := by
  unfold State.setJobTd
  dsimp only
  with_reducible refine .upd rfl rfl rfl rfl rfl rfl rfl rfl rfl rfl rfl rfl ?_
  exact .refl _

theorem State.joinQueue_evolves {s : State} {l : Nat} {p : FPkt} : Evolves s (s.joinQueue l p) := by
  unfold State.joinQueue
  dsimp only
  exact .after State.setLink_evolves (.refl _)

theorem State.enqueue_evolves {s : State} {l : Nat} {p : FPkt} : Evolves s (s.enqueue l p) := by
  unfold State.enqueue
  dsimp only
  exact .ite (.after State.joinQueue_evolves (.refl _)) (.after State.setLink_evolves (.refl _))

theorem State.unhold_evolves {l : Nat} {a : Nat} {x2 : State} : Evolves x2 (State.unhold l a x2) := by
  induction a generalizing x2 with
  | zero => exact .refl _
  | succ n ih =>
    unfold State.unhold
    dsimp only
    split
    · split
      · exact .after ih (.after State.joinQueue_evolves State.setLink_evolves)
      · exact .refl _
    · exact .refl _

theorem State.sendPkt_evolves {s : State} {p : FPkt} : Evolves s (s.sendPkt p) := by
  unfold State.sendPkt
  split
  · exact .after State.enqueue_evolves (.refl _)
  · exact .after State.bump_evolves (.refl _)

theorem State.mgmtOn_evolves {s : State} {l : Nat} {m : MMsg} : Evolves s (s.mgmtOn l m) := by
  unfold State.mgmtOn
  exact .after State.enqueue_evolves (.refl _)

theorem State.mgmtTo_evolves {s : State} {dst : Nat} {m : MMsg} : Evolves s (s.mgmtTo dst m) := by
  unfold State.mgmtTo
  exact .after State.sendPkt_evolves (.refl _)

theorem State.flood_evolves {s : State} {but : Option Nat} {m : MMsg} : Evolves s (s.flood but m) := by
  unfold State.flood
  refine .foldl _ ?_ (fun _ _ => ?_)
  · exact .refl _
  · exact .ite (.after State.mgmtOn_evolves (.refl _)) (.refl _)

theorem State.takeRx_evolves {s : State} {l : Nat} {f : FPkt → Bool} : Evolves s (s.takeRx l f) := by
  unfold State.takeRx
  dsimp only
  split
  · exact .refl _
  · exact .after State.setLink_evolves (.refl _)

theorem State.takeRxAny_evolves {s : State} {f : FPkt → Bool} : Evolves s (s.takeRxAny f) := by
  unfold State.takeRxAny
  split
  · exact .after State.takeRx_evolves (.refl _)
  · exact .refl _

theorem State.heardFrom_evolves {s : State} {n : Nat} : Evolves s (s.heardFrom n) := by
  unfold State.heardFrom
  exact .ite (.refl _) (.after State.modNode_evolves (.refl _))

theorem State.issue_evolves {s : State} {t : Txn} : Evolves s (s.issue t) := by
  unfold State.issue
  dsimp only
  refine .ite ?_ ?_
  · with_reducible refine .upd rfl rfl rfl rfl rfl rfl rfl rfl rfl rfl rfl rfl ?_
    exact .refl _
  · refine .after State.sendPkt_evolves ?_
    with_reducible refine .upd rfl rfl rfl rfl rfl rfl rfl rfl rfl rfl rfl rfl ?_
    exact .refl _

theorem State.request_evolves {s : State} {who : TxnFor} {dst : Nat} {ptype : Nat} {cls : Nat} {code : Nat} {offset : Nat} {job : Nat} {pay : Payload} {poison : optParam Bool false} : Evolves s (s.request who dst ptype cls code offset job pay poison) := by
  unfold State.request
  exact .after State.issue_evolves (.refl _)

theorem State.oneWay_evolves {s : State} {dst : Nat} {cls : Nat} {h : HHdr} {m : HMsg} : Evolves s (s.oneWay dst cls h m) := by
  unfold State.oneWay
  dsimp only
  refine .after State.sendPkt_evolves ?_
  with_reducible refine .upd rfl rfl rfl rfl rfl rfl rfl rfl rfl rfl rfl rfl ?_
  exact .refl _

theorem State.unstall_evolves {s : State} {dst : Nat} : Evolves s (s.unstall dst) := by
  unfold State.unstall
  dsimp only
  split
  · refine .after State.issue_evolves ?_
    with_reducible refine .upd rfl rfl rfl rfl rfl rfl rfl rfl rfl rfl rfl rfl ?_
    exact .refl _
  · exact .refl _

theorem State.dropTxn_evolves {s : State} {t : Txn} : Evolves s (s.dropTxn t) := by
  unfold State.dropTxn
  dsimp only
  refine .after State.unstall_evolves ?_
  with_reducible refine .upd rfl rfl rfl rfl rfl rfl rfl rfl rfl rfl rfl rfl ?_
  exact .refl _

theorem State.dropTxns_evolves {s : State} {f : Txn → Bool} : Evolves s (s.dropTxns f) := by
  unfold State.dropTxns
  refine .foldl _ ?_ fun _ _ => State.unstall_evolves
  with_reducible refine .upd rfl rfl rfl rfl rfl rfl rfl rfl rfl rfl rfl rfl ?_
  exact .refl _

theorem State.respond_evolves {s : State} {p : FPkt} {ptype : Nat} {code : Nat} {pay : List Byte} {poison : optParam Bool false} {sld : optParam Bool false} : Evolves s (s.respond p ptype code pay poison sld) := by
  unfold State.respond
  exact .after State.sendPkt_evolves (.refl _)

theorem State.setCtx_evolves {s : State} {i : Nat} {c : Ctx} : Evolves s (s.setCtx i c) := by
  unfold State.setCtx
  with_reducible refine .upd rfl rfl rfl rfl rfl rfl rfl rfl rfl rfl rfl rfl ?_
  exact .refl _

theorem State.modCtx_evolves {s : State} {i : Nat} {f : Ctx → Ctx} : Evolves s (s.modCtx i f) := by
  unfold State.modCtx
  exact .after State.setCtx_evolves (.refl _)

theorem State.enter_evolves {s : State} {i : Nat} {st : CtxSt} : Evolves s (s.enter i st) := by
  unfold State.enter
  dsimp only
  exact .after State.setCtx_evolves (.refl _)

theorem State.freeCtxAt_evolves {s : State} {i : Nat} : Evolves s (s.freeCtxAt i) := by
  unfold State.freeCtxAt
  exact .after State.setCtx_evolves (.refl _)

theorem State.setLatch_evolves {s : State} {k : Nat} {x : Latch} : Evolves s (s.setLatch k x) := by
  unfold State.setLatch
  dsimp only
  with_reducible refine .upd rfl rfl rfl rfl rfl rfl rfl rfl rfl rfl rfl rfl ?_
  exact .refl _

theorem State.modLatch_evolves {s : State} {k : Nat} {f : Latch → Latch} : Evolves s (s.modLatch k f) := by
  unfold State.modLatch
  exact .after State.setLatch_evolves (.refl _)

theorem State.dropLatch_evolves {s : State} {k : Nat} : Evolves s (s.dropLatch k) := by
  unfold State.dropLatch
  refine .after State.dropTxns_evolves ?_
  with_reducible refine .upd rfl rfl rfl rfl rfl rfl rfl rfl rfl rfl rfl rfl ?_
  exact .refl _

theorem State.takeLatch_evolves {s : State} : ∀ (a : Nat) (t : State), s.takeLatch = some (a, t) → Evolves s t := by
  intro a t h
  unfold State.takeLatch at h
  split at h
  · cases h; exact .refl _
  · split at h
    · cases h; exact State.dropLatch_evolves
    · cases h

theorem State.hingeSend_evolves {s : State} {k : Nat} {m : HMsg} : Evolves s (s.hingeSend k m) := by
  unfold State.hingeSend
  dsimp only
  exact .ite (.refl _) (.after State.request_evolves (.refl _))

theorem State.hingeTell_evolves {s : State} {k : Nat} {m : HMsg} : Evolves s (s.hingeTell k m) := by
  unfold State.hingeTell
  dsimp only
  exact .ite (.refl _) (.after State.oneWay_evolves (.refl _))

theorem State.delivered_evolves {s : State} {o : OutHeld} : Evolves s (s.delivered o) := by
  unfold State.delivered
  exact .ite (.after State.modCtx_evolves (.refl _)) (.refl _)

theorem State.pushOut_evolves {s : State} {i : Nat} {e : OutEnt} : Evolves s (s.pushOut i e) := by
  unfold State.pushOut
  dsimp only
  refine .ite (.refl _) (.ite ?_ (.after State.delivered_evolves (.after State.oqPost_evolves (.refl _))))
  with_reducible refine .upd rfl rfl rfl rfl rfl rfl rfl rfl rfl rfl rfl rfl ?_
  exact .refl _

theorem State.retireDelta_evolves {s : State} {id : Nat} {ver : Nat} : Evolves s (s.retireDelta id ver) := by
  unfold State.retireDelta
  dsimp only
  split
  · exact .refl _
  · split
    · exact .refl _
    · refine .ite (.refl _) (.after State.postEvent_evolves (.after State.releaseObject_evolves ?_))
      with_reducible refine .upd rfl rfl rfl rfl rfl rfl rfl rfl rfl rfl rfl rfl ?_
      exact .refl _

theorem State.releaseRegion_evolves {s : State} {i : Nat} : Evolves s (s.releaseRegion i) := by
  unfold State.releaseRegion
  dsimp only
  split
  · exact .refl _
  · with_reducible refine .upd rfl rfl rfl rfl rfl rfl rfl rfl rfl rfl rfl rfl ?_
    refine .foldl _ ?_ (fun _ _ => ?_)
    · exact .after State.uncharge_evolves (.ite (.after State.releaseExts_evolves (.refl _)) (.refl _))
    · exact .after State.releaseExt_evolves (.refl _)

theorem State.releaseCtx_evolves {s : State} {i : Nat} : Evolves s (s.releaseCtx i) := by
  unfold State.releaseCtx
  dsimp only
  refine .ite (.refl _) (.after State.settleRevokes_evolves (.ite ?_ ?_))
  · refine .after State.dropTxns_evolves ?_
    with_reducible refine .upd rfl rfl rfl rfl rfl rfl rfl rfl rfl rfl rfl rfl ?_
    exact .after State.modCtx_evolves (.after State.releaseExts_evolves (.after State.releaseRegion_evolves (.refl _)))
  · refine .after State.retireDelta_evolves (.after State.dropTxns_evolves ?_)
    with_reducible refine .upd rfl rfl rfl rfl rfl rfl rfl rfl rfl rfl rfl rfl ?_
    exact .after State.modCtx_evolves (.after State.releaseExts_evolves (.after State.releaseRegion_evolves (.refl _)))

theorem State.finishCtxCmds_evolves {s : State} {i : Nat} : Evolves s (s.finishCtxCmds i) := by
  unfold State.finishCtxCmds
  dsimp only
  refine .foldl _ ?_ (fun _ _ => ?_)
  · exact .refl _
  · split
    · exact .ite (.after State.finish_evolves (.refl _)) (.refl _)
    · exact .ite (.after State.finish_evolves (.refl _)) (.refl _)
    · exact .ite (.after State.finish_evolves (.refl _)) (.refl _)
    · exact .ite (.after State.finish_evolves (.refl _)) (.refl _)
    · exact .refl _

theorem State.freeTwin_evolves {s : State} {k : Nat} {status : Nat} : Evolves s (s.freeTwin k status) := by
  unfold State.freeTwin
  dsimp only
  exact .ite (.after State.oneWay_evolves (.refl _)) (.refl _)

theorem State.settleDrain_evolves {s : State} {i : Nat} : Evolves s (s.settleDrain i) := by
  unfold State.settleDrain
  dsimp only
  refine .ite (.after State.finishCtxCmds_evolves ?_) (.refl _)
  split
  · exact .after State.dropLatch_evolves (.after State.freeTwin_evolves (.after State.enter_evolves (.after State.releaseCtx_evolves (.refl _))))
  · exact .after State.enter_evolves (.after State.releaseCtx_evolves (.refl _))

theorem State.writeHeld_evolves {s : State} {i : Nat} : Evolves s (s.writeHeld i) := by
  unfold State.writeHeld
  dsimp only
  split
  · exact .refl _
  · refine .ite ?_ ?_
    · refine .after State.settleDrain_evolves ?_
      with_reducible refine .upd rfl rfl rfl rfl rfl rfl rfl rfl rfl rfl rfl rfl ?_
      exact .refl _
    · refine .ite (.refl _) (.after State.settleDrain_evolves (.after State.delivered_evolves (.after State.oqPost_evolves ?_)))
      with_reducible refine .upd rfl rfl rfl rfl rfl rfl rfl rfl rfl rfl rfl rfl ?_
      exact .refl _

theorem State.discardHeld_evolves {s : State} {n : Nat} : Evolves s (s.discardHeld n) := by
  unfold State.discardHeld
  dsimp only
  refine .foldl _ ?_ (fun _ _ => ?_)
  · with_reducible refine .upd rfl rfl rfl rfl rfl rfl rfl rfl rfl rfl rfl rfl ?_
    exact .refl _
  · exact .after State.settleDrain_evolves (.refl _)

theorem State.failDest_evolves {s : State} {i : Nat} {status : Nat} {tell : Bool} : Evolves s (s.failDest i status tell) := by
  unfold State.failDest
  dsimp only
  refine .ite ?_ ?_
  · refine .after State.postEvent_evolves (.after State.freeCtxAt_evolves (.after State.releaseCtx_evolves ?_))
    split
    · exact .after State.dropLatch_evolves (.ite (.after State.hingeTell_evolves (.refl _)) (.refl _))
    · exact .refl _
  · refine .after State.finishId_evolves (.after State.postEvent_evolves (.after State.freeCtxAt_evolves (.after State.releaseCtx_evolves ?_)))
    split
    · exact .after State.dropLatch_evolves (.ite (.after State.hingeTell_evolves (.refl _)) (.refl _))
    · exact .refl _

theorem State.endLatch_evolves {s : State} {i : Nat} {status : Nat} : Evolves s (s.endLatch i status) := by
  unfold State.endLatch
  dsimp only
  split
  · exact .refl _
  · exact .ite (.ite (.after State.setLatch_evolves (.after State.dropTxns_evolves (.after State.freeTwin_evolves (.refl _)))) (.after State.hingeSend_evolves (.after State.setLatch_evolves (.after State.dropTxns_evolves (.after State.freeTwin_evolves (.refl _)))))) (.after State.dropLatch_evolves (.after State.freeTwin_evolves (.refl _)))

theorem State.endReq_evolves {s : State} {i : Nat} {status : Nat} : Evolves s (s.endReq i status) := by
  unfold State.endReq
  dsimp only
  refine .ite (.refl _) (.ite (.after State.failDest_evolves (.refl _)) (.after State.finishCtxCmds_evolves (.ite (.after State.pushOut_evolves ?_) (.after State.postEvent_evolves (.after State.releaseCtx_evolves (.after State.endLatch_evolves (.after State.enter_evolves (.after State.modCtx_evolves (.refl _)))))))))
  with_reducible refine .upd rfl rfl rfl rfl rfl rfl rfl rfl rfl rfl rfl rfl ?_
  exact .after State.releaseCtx_evolves (.after State.endLatch_evolves (.after State.enter_evolves (.after State.modCtx_evolves (.refl _))))

theorem State.endReqs_evolves {s : State} {p : Nat → Ctx → Bool} {status : Nat} : Evolves s (s.endReqs p status) := by
  unfold State.endReqs
  refine .foldl _ ?_ (fun _ _ => ?_)
  · exact .refl _
  · exact .after State.endReq_evolves (.refl _)

end Sys2Proof.Machine
end

