-- ==== Sys2Proof/Laws/EvolvesCaps.lean ====
section
/-! SUPPORT. What the operations of Caps, Clock, Cmd, Power, Tier keep (`Laws/Evolves.lean`). -/

namespace Sys2Proof.Machine

theorem State.capChanged_evolves {s : State} {views : List (Option Nat)} : Evolves s (s.capChanged views) := by
  unfold State.capChanged
  dsimp only
  refine .foldl _ ?_ (fun _ _ => ?_)
  · exact .refl _
  · split
    · refine .gen rfl rfl rfl rfl rfl rfl rfl rfl rfl rfl rfl rfl id (fun h => Mem.writeN_wf h _ _) id id id List.prefix_rfl List.prefix_rfl ?_
      exact .refl _
    · with_reducible refine .upd rfl rfl rfl rfl rfl rfl rfl rfl rfl rfl rfl rfl ?_
      exact .refl _

theorem State.runFor_evolves {s : State} {key : Nat} {c : Bool} : Evolves s (s.runFor key c) := by
  unfold State.runFor
  exact .ite (.after State.bump_evolves (.refl _)) (.refl _)

theorem State.takeFrom_evolves {s : State} {n : Nat} : Evolves s (s.takeFrom n) := by
  unfold State.takeFrom
  dsimp only
  refine .ite (.after State.adopt_evolves (.after State.setSq_evolves (.refl _))) ?_
  with_reducible refine .upd rfl rfl rfl rfl rfl rfl rfl rfl rfl rfl rfl rfl ?_
  exact .after State.adopt_evolves (.after State.setSq_evolves (.refl _))

theorem hostCommand_evolves : ∀ {r : CmdRow} {p : Pkt} {s : State}, (∀ id s, r.verdict p s = none → DoneKept s (r.act p id s)) → Evolves s (hostCommand r p s) := by
  intro r p s h
  unfold hostCommand
  split
  · dsimp only
    split
    · refine .after State.finish_evolves ?_
      with_reducible refine .upd rfl rfl rfl rfl rfl rfl rfl rfl rfl rfl rfl rfl ?_
      exact .after State.takeFrom_evolves (.refl _)
    · split
      · refine .after State.finish_evolves ?_
        with_reducible refine .upd rfl rfl rfl rfl rfl rfl rfl rfl rfl rfl rfl rfl ?_
        exact .after State.takeFrom_evolves (.refl _)
      · rename_i hv
        have := h (s.newCmd r p).id _ hv
        split
        · rename_i e
          rw [e] at this
          refine .after State.finish_evolves (.after this ?_)
          with_reducible refine .upd rfl rfl rfl rfl rfl rfl rfl rfl rfl rfl rfl rfl ?_
          exact .after State.takeFrom_evolves (.refl _)
        · rename_i e
          rw [e] at this
          refine .after State.settleRevokes_evolves (.after State.settleDeletes_evolves ?_)
          with_reducible refine .upd rfl rfl rfl rfl rfl rfl rfl rfl rfl rfl rfl rfl ?_
          refine .after this ?_
          with_reducible refine .upd rfl rfl rfl rfl rfl rfl rfl rfl rfl rfl rfl rfl ?_
          exact .after State.takeFrom_evolves (.refl _)
  · exact .refl _

theorem State.fatalStop_evolves {s : State} {code : Nat} : Evolves s (s.fatalStop code) := by
  unfold State.fatalStop
  refine .after (t := (List.range 40).foldl (fun s l => s.setPort l .down) s) ?_ (.foldl _ (.refl _) fun _ _ => State.setPort_evolves)
  generalize (List.range 40).foldl (fun s l => s.setPort l .down) s = u
  exact ⟨rfl, rfl, rfl, fun _ => rfl, fun _ => id, id, List.prefix_rfl, List.prefix_rfl, id, id, id, id, id, id, rfl, Nat.le_refl _, Nat.le_refl _, fun _ => ⟨rfl, Nat.le_refl _⟩, id⟩

theorem State.startTrans_evolves {s : State} {mode : Nat} : Evolves s (s.startTrans mode) := by
  unfold State.startTrans
  dsimp only
  with_reducible refine .upd rfl rfl rfl rfl rfl rfl rfl rfl rfl rfl rfl rfl ?_
  exact .refl _

theorem State.endTrans_evolves {s : State} {t : Trans} : Evolves s (s.endTrans t) := by
  unfold State.endTrans
  dsimp only
  refine .after State.finishAll_evolves (.ite ?_ ?_)
  · refine .after State.capChanged_evolves ?_
    with_reducible refine .upd rfl rfl rfl rfl rfl rfl rfl rfl rfl rfl rfl rfl ?_
    exact .refl _
  · with_reducible refine .upd rfl rfl rfl rfl rfl rfl rfl rfl rfl rfl rfl rfl ?_
    exact .refl _

theorem State.forceMode_evolves {s : State} {mode : Nat} : Evolves s (s.forceMode mode) := by
  unfold State.forceMode
  dsimp only
  refine .after State.finishAll_evolves ?_
  with_reducible refine .upd rfl rfl rfl rfl rfl rfl rfl rfl rfl rfl rfl rfl ?_
  exact .refl _

theorem State.dieReading_evolves {s : State} {die : Nat} {t : Nat} : Evolves s (s.dieReading die t) := by
  unfold State.dieReading
  dsimp only
  refine .ite ?_ ?_
  · with_reducible refine .upd rfl rfl rfl rfl rfl rfl rfl rfl rfl rfl rfl rfl ?_
    exact .refl _
  · with_reducible refine .upd rfl rfl rfl rfl rfl rfl rfl rfl rfl rfl rfl rfl ?_
    refine .ite ?_ ?_
    · with_reducible refine .upd rfl rfl rfl rfl rfl rfl rfl rfl rfl rfl rfl rfl ?_
      exact .refl _
    · refine .after State.postEvent_evolves ?_
      with_reducible refine .upd rfl rfl rfl rfl rfl rfl rfl rfl rfl rfl rfl rfl ?_
      exact .refl _

theorem State.stackReading_evolves {s : State} {h : Nat} {t : Nat} : Evolves s (s.stackReading h t) := by
  unfold State.stackReading
  dsimp only
  refine .ite ?_ ?_
  · with_reducible refine .upd rfl rfl rfl rfl rfl rfl rfl rfl rfl rfl rfl rfl ?_
    exact .refl _
  · refine .after State.postEvent_evolves ?_
    with_reducible refine .upd rfl rfl rfl rfl rfl rfl rfl rfl rfl rfl rfl rfl ?_
    exact .refl _

theorem State.overtemp_evolves {s : State} : Evolves s s.overtemp := by
  unfold State.overtemp
  dsimp only
  with_reducible refine .upd rfl rfl rfl rfl rfl rfl rfl rfl rfl rfl rfl rfl ?_
  exact .after State.fatalStop_evolves (.refl _)

theorem State.transWindow_evolves {s : State} {m : PowerMeas} : Evolves s (s.transWindow m) := by
  unfold State.transWindow
  dsimp only
  split
  · refine .ite (.after State.endTrans_evolves (.refl _)) ?_
    with_reducible refine .upd rfl rfl rfl rfl rfl rfl rfl rfl rfl rfl rfl rfl ?_
    exact .refl _
  · exact .ite (.after State.startTrans_evolves (.after State.adopt_evolves (.refl _))) (.refl _)

theorem State.windowEnd_evolves {s : State} {m : PowerMeas} : Evolves s (s.windowEnd m) := by
  unfold State.windowEnd
  dsimp only
  refine .ite ?_ ?_
  · refine .after State.overtemp_evolves (.after State.adopt_evolves ?_)
    with_reducible refine .upd rfl rfl rfl rfl rfl rfl rfl rfl rfl rfl rfl rfl ?_
    refine .foldl _ ?_ (fun _ _ => ?_)
    · refine .foldl _ ?_ (fun _ _ => ?_)
      · with_reducible refine .upd rfl rfl rfl rfl rfl rfl rfl rfl rfl rfl rfl rfl ?_
        exact .after State.adopt_evolves (.after State.transWindow_evolves (.refl _))
      · exact .after State.dieReading_evolves (.refl _)
    · exact .after State.stackReading_evolves (.refl _)
  · refine .after State.adopt_evolves ?_
    with_reducible refine .upd rfl rfl rfl rfl rfl rfl rfl rfl rfl rfl rfl rfl ?_
    refine .foldl _ ?_ (fun _ _ => ?_)
    · refine .foldl _ ?_ (fun _ _ => ?_)
      · with_reducible refine .upd rfl rfl rfl rfl rfl rfl rfl rfl rfl rfl rfl rfl ?_
        exact .after State.adopt_evolves (.after State.transWindow_evolves (.refl _))
      · exact .after State.dieReading_evolves (.refl _)
    · exact .after State.stackReading_evolves (.refl _)

theorem execPowerWindow_evolves {m : PowerMeas} {s : State} : Kept s (execPowerWindow m s) := by
  unfold execPowerWindow
  exact .ite (.next (.after State.windowEnd_evolves (.refl _))) (.next (.refl _))

theorem execDieOvertempTrip_evolves {_die : Nat} {temp : Nat} {s : State} : Kept s (execDieOvertempTrip _die temp s) := by
  unfold execDieOvertempTrip
  exact .ite (.next (.after State.overtemp_evolves (.refl _))) (.next (.refl _))

theorem execProchotAssert_evolves {s : State} : Kept s (execProchotAssert s) := by
  unfold execProchotAssert
  dsimp only
  refine .ite (.next ?_) (.next (.refl _))
  with_reducible refine .upd rfl rfl rfl rfl rfl rfl rfl rfl rfl rfl rfl rfl ?_
  exact .refl _

theorem execProchotDeassert_evolves {s : State} : Kept s (execProchotDeassert s) := by
  unfold execProchotDeassert
  dsimp only
  refine .ite (.next ?_) (.next (.refl _))
  with_reducible refine .upd rfl rfl rfl rfl rfl rfl rfl rfl rfl rfl rfl rfl ?_
  exact .refl _

theorem State.railFault_evolves {s : State} {r : Nat} {status : Nat} {sense : Nat} : Evolves s (s.railFault r status sense) := by
  unfold State.railFault
  exact .after State.fatalStop_evolves (.after State.bump_evolves (.after State.postEvent_evolves (.refl _)))

theorem execPmbusPoll_evolves {rail : Nat} {vout : Nat} {iout : Nat} {s : State} : Kept s (execPmbusPoll rail vout iout s) := by
  unfold execPmbusPoll
  dsimp only
  refine .ite (.next (.refl _)) (.ite ?_ ?_)
  · refine .next ?_
    with_reducible refine .upd rfl rfl rfl rfl rfl rfl rfl rfl rfl rfl rfl rfl ?_
    exact .refl _
  · split
    · refine .next ?_
      with_reducible refine .upd rfl rfl rfl rfl rfl rfl rfl rfl rfl rfl rfl rfl ?_
      exact .refl _
    · refine .ite ?_ ?_
      · refine .next (.after State.railFault_evolves ?_)
        with_reducible refine .upd rfl rfl rfl rfl rfl rfl rfl rfl rfl rfl rfl rfl ?_
        exact .refl _
      · refine .next ?_
        with_reducible refine .upd rfl rfl rfl rfl rfl rfl rfl rfl rfl rfl rfl rfl ?_
        exact .refl _

theorem execPmbAlert_evolves {status : List (BitVec 16)} {sense : List Nat} {s : State} : Kept s (execPmbAlert status sense s) := by
  unfold execPmbAlert
  refine .ite (.next (.refl _)) ?_
  split
  · exact .next (.after State.railFault_evolves (.refl _))
  · exact .next (.refl _)

theorem execTimingMonitorReport_evolves {cdNeed : Nat} {fdNeed : Nat} {s : State} : Kept s (execTimingMonitorReport cdNeed fdNeed s) := by
  unfold execTimingMonitorReport
  dsimp only
  refine .ite (.next (.refl _)) (.next ?_)
  with_reducible refine .upd rfl rfl rfl rfl rfl rfl rfl rfl rfl rfl rfl rfl ?_
  exact .refl _

theorem rowSetPowerMode_evolves {p : Pkt} {id : Nat} {s : State} (_hv : rowSetPowerMode.verdict p s = none) : DoneKept s (rowSetPowerMode.act p id s) := by
  unfold rowSetPowerMode
  dsimp only
  exact .ite (.done (.refl _)) (.wait (.after State.startTrans_evolves (.refl _)))

theorem execSetPowerMode_evolves {p : Pkt} {s : State} : Kept s (execSetPowerMode p s) := by
  unfold execSetPowerMode
  refine .next (.after (hostCommand_evolves ?_) (.refl _))
  intros
  exact rowSetPowerMode_evolves ‹_›

theorem rowGetCapabilities_evolves {p : Pkt} {id : Nat} {s : State} (_hv : rowGetCapabilities.verdict p s = none) : DoneKept s (rowGetCapabilities.act p id s) := by
  unfold rowGetCapabilities
  dsimp only
  exact .done (.refl _)

theorem execGetCapabilities_evolves {p : Pkt} {s : State} : Kept s (execGetCapabilities p s) := by
  unfold execGetCapabilities
  refine .next (.after (hostCommand_evolves ?_) (.refl _))
  intros
  exact rowGetCapabilities_evolves ‹_›

theorem rowSampleCounters_evolves {p : Pkt} {id : Nat} {s : State} (_hv : rowSampleCounters.verdict p s = none) : DoneKept s (rowSampleCounters.act p id s) := by
  unfold rowSampleCounters
  dsimp only
  exact .done (.refl _)

theorem execSampleCounters_evolves {p : Pkt} {s : State} : Kept s (execSampleCounters p s) := by
  unfold execSampleCounters
  refine .next (.after (hostCommand_evolves ?_) (.refl _))
  intros
  exact rowSampleCounters_evolves ‹_›

theorem State.issueTier_evolves {s : State} {d : Nat} {off : Nat} {len : Nat} {why : TierFor} {wants : optParam (List FPkt) []} : Evolves s (s.issueTier d off len why wants) := by
  unfold State.issueTier
  with_reducible refine .upd rfl rfl rfl rfl rfl rfl rfl rfl rfl rfl rfl rfl ?_
  exact .refl _

theorem State.setLevel_evolves {s : State} {l : Nat} : Evolves s (s.setLevel l) := by
  have h : Evolves s (if l = 3 then
      ((List.range 8).filter fun d => (({ s with pow := { s.pow with level := l } } : State).drive d).st == .active).foldl
        (fun s d => s.issueTier d 0 0 .flushOff)
        { s with pow := { s.pow with level := l }, board := { s.board with offReady := true } }
      else { s with pow := { s.pow with level := l } }) := by
    refine .ite ?_ ?_
    · refine .foldl _ ?_ fun _ _ => State.issueTier_evolves
      with_reducible refine .upd rfl rfl rfl rfl rfl rfl rfl rfl rfl rfl rfl rfl ?_
      exact .refl _
    · with_reducible refine .upd rfl rfl rfl rfl rfl rfl rfl rfl rfl rfl rfl rfl ?_
      exact .refl _
  unfold State.setLevel
  dsimp only
  split
  · refine .ite ?_ h
    refine .after State.forceMode_evolves ?_
    with_reducible refine .upd rfl rfl rfl rfl rfl rfl rfl rfl rfl rfl rfl rfl ?_
    exact h
  · exact h

theorem rowEnterLowPower_evolves {p : Pkt} {id : Nat} {s : State} (_hv : rowEnterLowPower.verdict p s = none) : DoneKept s (rowEnterLowPower.act p id s) := by
  unfold rowEnterLowPower
  dsimp only
  exact .ite (.done (.refl _)) (.ite (.wait (.refl _)) (.done (.after State.setLevel_evolves (.refl _))))

theorem execEnterLowPower_evolves {p : Pkt} {s : State} : Kept s (execEnterLowPower p s) := by
  unfold execEnterLowPower
  refine .next (.after (hostCommand_evolves ?_) (.refl _))
  intros
  exact rowEnterLowPower_evolves ‹_›

theorem execSelfRefreshExit_evolves {s : State} : Kept s (execSelfRefreshExit s) := by
  unfold execSelfRefreshExit
  split
  · exact .ite (.next (.after State.finish_evolves (.after State.setLevel_evolves (.refl _)))) (.next (.refl _))
  · exact .next (.refl _)

theorem State.dropTier_evolves {s : State} {id : Nat} : Evolves s (s.dropTier id) := by
  unfold State.dropTier
  with_reducible refine .upd rfl rfl rfl rfl rfl rfl rfl rfl rfl rfl rfl rfl ?_
  exact .refl _

theorem State.retryTier_evolves {s : State} {o : TierOp} : Evolves s (s.retryTier o) := by
  unfold State.retryTier
  with_reducible refine .upd rfl rfl rfl rfl rfl rfl rfl rfl rfl rfl rfl rfl ?_
  exact .refl _

theorem State.dropTiers_evolves {s : State} {f : TierFor → Bool} : Evolves s (s.dropTiers f) := by
  unfold State.dropTiers
  with_reducible refine .upd rfl rfl rfl rfl rfl rfl rfl rfl rfl rfl rfl rfl ?_
  exact .refl _

theorem State.touchFrame_evolves {s : State} {f : Frame} : Evolves s (s.touchFrame f) := by
  unfold State.touchFrame
  with_reducible refine .upd rfl rfl rfl rfl rfl rfl rfl rfl rfl rfl rfl rfl ?_
  exact .refl _

theorem State.takeFrame_evolves {s : State} {e : Nat} : Evolves s (s.takeFrame e) := by
  unfold State.takeFrame
  split
  · exact .after State.touchFrame_evolves (.refl _)
  · refine .ite ?_ ?_
    · with_reducible refine .upd rfl rfl rfl rfl rfl rfl rfl rfl rfl rfl rfl rfl ?_
      exact .refl _
    · split
      · exact .after State.touchFrame_evolves (.refl _)
      · exact .refl _

theorem State.trimFrames_evolves {s : State} : Evolves s s.trimFrames := by
  unfold State.trimFrames
  dsimp only
  refine .ite (.refl _) ?_
  with_reducible refine .upd rfl rfl rfl rfl rfl rfl rfl rfl rfl rfl rfl rfl ?_
  exact .refl _

theorem State.readSector_evolves {s : State} {off : Nat} : Evolves s (s.readSector off).2 := by
  unfold State.readSector
  dsimp only
  split
  · dsimp only
    exact .refl _
  · split
    · dsimp only
      exact .after State.bump_evolves (.after State.touchFrame_evolves (.refl _))
    · split
      · dsimp only
        exact .after State.bump_evolves (.refl _)
      · dsimp only
        refine .foldl _ ?_ (fun _ _ => ?_)
        · exact .after State.takeFrame_evolves (.after State.adopt_evolves (.after State.bump_evolves (.refl _)))
        · exact .after State.issueTier_evolves (.refl _)

theorem State.sectorIn_evolves {s : State} {off : Nat} : Evolves s (s.sectorIn off) := by
  unfold State.sectorIn
  with_reducible refine .upd rfl rfl rfl rfl rfl rfl rfl rfl rfl rfl rfl rfl ?_
  exact .refl _

theorem State.tierFault_evolves {s : State} {image : Nat} {d : Nat} {status : Nat} {off : Nat} : Evolves s (s.tierFault image d status off) := by
  unfold State.tierFault
  exact .after State.postEvent_evolves (.refl _)

theorem State.spread_evolves {s : State} {who : Grantee} {a : List Nat} {x3 : Nat} : ∀ (a_1 : List (Nat × Nat)) (t : State), s.spread who a x3 = some (a_1, t) → Evolves s t := by
  induction a generalizing s x3 with
  | nil => intro a t h; cases h; exact .refl _
  | cons r rs ih =>
    intro l t h
    unfold State.spread at h
    split at h
    · cases h
    · dsimp only at h
      split at h
      · cases h
      · split at h
        · cases h
        · rename_i h2
          cases h
          exact .after (ih _ _ h2) (.after State.takeExts_evolves State.choose_evolves)

theorem State.setRegion_evolves {s : State} {r : Region} : Evolves s (s.setRegion r) := by
  unfold State.setRegion
  with_reducible refine .upd rfl rfl rfl rfl rfl rfl rfl rfl rfl rfl rfl rfl ?_
  exact .refl _

theorem State.undoDemotion_evolves {s : State} {i : Nat} : Evolves s (s.undoDemotion i) := by
  unfold State.undoDemotion
  dsimp only
  split
  · exact .refl _
  · refine .after State.settleRevokes_evolves (.after State.dropTiers_evolves (.after State.modCtx_evolves (.after State.setRegion_evolves (.foldl _ ?_ (fun _ _ => ?_)))))
    · exact .refl _
    · exact .after State.releaseExt_evolves (.refl _)

theorem State.demoteFailed_evolves {s : State} {i : Nat} {status : Nat} : Evolves s (s.demoteFailed i status) := by
  unfold State.demoteFailed
  exact .after State.postEvent_evolves (.after State.bump_evolves (.after State.modCtx_evolves (.refl _)))

theorem State.startDemotion_evolves {s : State} {i : Nat} : Evolves s (s.startDemotion i) := by
  unfold State.startDemotion
  dsimp only
  split
  · exact .refl _
  · refine .ite (.after State.demoteFailed_evolves (.refl _)) ?_
    split
    · exact .after State.demoteFailed_evolves (.refl _)
    · refine .foldl _ ?_ (fun _ _ => ?_)
      · exact .after State.modCtx_evolves (.after State.setRegion_evolves (.after State.charge_evolves (.after (State.spread_evolves _ _ ‹_›) (.refl _))))
      · exact .after State.issueTier_evolves (.refl _)

theorem execDemoteCheck_evolves {s : State} : Kept s (execDemoteCheck s) := by
  unfold execDemoteCheck
  dsimp only
  refine .ite (.next (.refl _)) (.ite (.next (.foldl _ ?_ (fun _ _ => ?_))) (.next (.after State.adopt_evolves (.after State.adopt_evolves (.refl _)))))
  · exact .after State.adopt_evolves (.after State.adopt_evolves (.refl _))
  · exact .ite (.after State.startDemotion_evolves (.refl _)) (.refl _)

theorem execDemotionCommit_evolves {ctx : Nat} {s : State} : Kept s (execDemotionCommit ctx s) := by
  unfold execDemotionCommit
  dsimp only
  split
  · exact .next (.refl _)
  · refine .ite (.next (.after State.bump_evolves (.after State.modCtx_evolves (.after State.setRegion_evolves (.foldl _ ?_ (fun _ _ => ?_)))))) (.next (.refl _))
    · exact .refl _
    · exact .ite (.after State.setExt_evolves (.refl _)) (.after State.scrubExt_evolves (.refl _))

theorem State.seekRun_evolves {s : State} {i : Nat} : Evolves s (s.seekRun i) := by
  unfold State.seekRun
  dsimp only
  split
  · exact .refl _
  · refine .ite (.refl _) ?_
    split
    · exact .after (Evolves.snd ‹State.findRun _ _ _ = _› State.findRun_evolves) (.refl _)
    · refine .foldl _ ?_ (fun _ _ => ?_)
      · exact .after State.setRegion_evolves (.after State.takeExts_evolves (.after (Evolves.snd ‹State.findRun _ _ _ = _› State.findRun_evolves) (.refl _)))
      · exact .after State.issueTier_evolves (.refl _)

theorem State.startRecall_evolves {s : State} {i : Nat} : Evolves s (s.startRecall i) := by
  unfold State.startRecall
  dsimp only
  exact .ite (.refl _) (.after State.seekRun_evolves (.after State.modCtx_evolves (.refl _)))

theorem State.tryDecode_evolves {s : State} {i : Nat} : Evolves s (s.tryDecode i) := by
  unfold State.tryDecode
  dsimp only
  exact .ite (.refl _) (.ite (.after State.startRecall_evolves (.refl _)) (.after State.finishAll_evolves (.after State.enter_evolves (.ite (.after State.undoDemotion_evolves (.refl _)) (.refl _)))))

theorem execRecallCommit_evolves {ctx : Nat} {s : State} : Kept s (execRecallCommit ctx s) := by
  unfold execRecallCommit
  dsimp only
  refine .ite (.next (.refl _)) ?_
  split
  · exact .next (.after State.seekRun_evolves (.refl _))
  · refine .ite (.next (.after State.tryDecode_evolves (.after State.bump_evolves (.after State.modCtx_evolves (.after State.settleRevokes_evolves (.after State.setRegion_evolves (.foldl _ ?_ (fun _ _ => ?_)))))))) (.next (.after State.seekRun_evolves (.refl _)))
    · exact .after State.seekRun_evolves (.refl _)
    · exact .after State.releaseExt_evolves (.refl _)

theorem State.lostRecall_evolves {s : State} {i : Nat} : Evolves s (s.lostRecall i) := by
  unfold State.lostRecall
  dsimp only
  refine .after State.endReq_evolves (.foldl _ ?_ (fun _ _ => ?_))
  · exact .refl _
  · exact .ite (.after State.setDrive_evolves (.refl _)) (.refl _)

theorem execRecallTimeout_evolves {ctx : Nat} {s : State} : Kept s (execRecallTimeout ctx s) := by
  unfold execRecallTimeout
  dsimp only
  exact .ite (.next (.after State.lostRecall_evolves (.refl _))) (.next (.refl _))

theorem State.failFill_evolves {s : State} {f : Inflight} {first : Nat} {count : Nat} {status : Nat} : Evolves s (s.failFill f first count status) := by
  unfold State.failFill
  dsimp only
  exact .after State.finish_evolves (.after State.dropTiers_evolves (.after State.modExts_evolves (.refl _)))

theorem State.commitFill_evolves {s : State} {f : Inflight} {who : Grantee} {tenant : Nat} {first : Nat} {count : Nat} : Evolves s (s.commitFill f who tenant first count) := by
  unfold State.commitFill
  exact .ite (.after State.finish_evolves (.after State.charge_evolves (.after State.takeExts_evolves (.refl _)))) (.after State.failFill_evolves (.refl _))

theorem State.answerWants_evolves {s : State} {o : TierOp} {ok : Bool} : Evolves s (s.answerWants o ok) := by
  unfold State.answerWants
  dsimp only
  refine .foldl _ ?_ (fun _ _ => ?_)
  · exact .refl _
  · exact .after State.respond_evolves (.refl _)

theorem State.flushAfter_evolves {s : State} {f : TierFor → Bool} {flush : TierFor} {bays : List Nat} : Evolves s (s.flushAfter f flush bays) := by
  unfold State.flushAfter
  refine .ite (.foldl _ ?_ (fun _ _ => ?_)) (.refl _)
  · exact .refl _
  · exact .after State.issueTier_evolves (.refl _)

theorem State.tierDone_evolves {s : State} {o : TierOp} {data : List Byte} : Evolves s (s.tierDone o data) := by
  unfold State.tierDone
  dsimp only
  split
  · refine .after State.answerWants_evolves (.after State.sectorIn_evolves (.ite ?_ (.after State.dropTier_evolves (.refl _))))
    refine .gen rfl rfl rfl rfl rfl rfl rfl rfl rfl rfl rfl rfl id id (fun h => Mem.writeN_wf h _ _) id id List.prefix_rfl List.prefix_rfl ?_
    exact .after State.dropTier_evolves (.refl _)
  · refine .after State.answerWants_evolves (.ite ?_ (.after State.dropTier_evolves (.refl _)))
    refine .gen rfl rfl rfl rfl rfl rfl rfl rfl rfl rfl rfl rfl id id (fun h => Mem.writeN_wf h _ _) id id List.prefix_rfl List.prefix_rfl ?_
    exact .after State.dropTier_evolves (.refl _)
  · refine .after State.flushAfter_evolves ?_
    refine Evolves.trans (t := s.dropTier o.id) State.dropTier_evolves ?_
    generalize s.dropTier o.id = u
    refine .gen rfl rfl rfl rfl rfl rfl rfl rfl rfl rfl rfl rfl id id (fun h => Mem.writeN_wf h _ _) id id List.prefix_rfl List.prefix_rfl ?_
    exact .refl _
  · split
    · exact .after State.commitFill_evolves (.after State.dropTier_evolves (.refl _))
    · exact .after State.dropTier_evolves (.refl _)
  · refine .after State.flushAfter_evolves ?_
    refine Evolves.trans (t := s.dropTier o.id) State.dropTier_evolves ?_
    generalize s.dropTier o.id = u
    refine .gen rfl rfl rfl rfl rfl rfl rfl rfl rfl rfl rfl rfl id id (fun h => Mem.writeN_wf h _ _) id id List.prefix_rfl List.prefix_rfl ?_
    exact .refl _
  · exact .after State.dropTier_evolves (.refl _)
  · exact .after State.dropTier_evolves (.refl _)
  · refine .after State.takeExts_evolves (.after State.hbmWrite_evolves (.ite ?_ (.after State.dropTier_evolves (.refl _))))
    refine .gen rfl rfl rfl rfl rfl rfl rfl rfl rfl rfl rfl rfl id id (fun h => Mem.writeN_wf h _ _) id id List.prefix_rfl List.prefix_rfl ?_
    exact .after State.dropTier_evolves (.refl _)

theorem State.tierLost_evolves {s : State} {o : TierOp} {status : Nat} : Evolves s (s.tierLost o status) := by
  unfold State.tierLost
  dsimp only
  split
  · exact .after State.tierFault_evolves (.after State.answerWants_evolves (.after State.dropTier_evolves (.refl _)))
  · exact .after State.endReq_evolves (.after State.answerWants_evolves (.after State.dropTier_evolves (.refl _)))
  · split
    · exact .after State.failFill_evolves (.after State.dropTier_evolves (.refl _))
    · exact .after State.dropTier_evolves (.refl _)
  · split
    · exact .after State.failFill_evolves (.after State.dropTier_evolves (.refl _))
    · exact .after State.dropTier_evolves (.refl _)
  · exact .after State.demoteFailed_evolves (.after State.undoDemotion_evolves (.after State.dropTier_evolves (.refl _)))
  · exact .after State.demoteFailed_evolves (.after State.undoDemotion_evolves (.after State.dropTier_evolves (.refl _)))
  · exact .after State.dropTier_evolves (.refl _)
  · exact .after State.lostRecall_evolves (.after State.dropTier_evolves (.refl _))

theorem State.setBay_evolves {s : State} {d : Nat} {st : DriveSt} {lost : Nat} : Evolves s (s.setBay d st lost) := by
  unfold State.setBay
  dsimp only
  exact .ite (.after State.finishAll_evolves (.after State.postEvent_evolves (.after State.setDrive_evolves (.refl _)))) (.after State.postEvent_evolves (.after State.setDrive_evolves (.refl _)))

theorem State.bayLeaves_evolves {s : State} {d : Nat} {st : DriveSt} : Evolves s (s.bayLeaves d st) := by
  unfold State.bayLeaves
  dsimp only
  refine .foldl _ ?_ (fun _ _ => ?_)
  · refine .foldl _ ?_ (fun _ _ => ?_)
    · exact .after State.setBay_evolves (.refl _)
    · exact .after State.setExt_evolves (.after State.dropFrames_evolves (.refl _))
  · exact .ite (.after State.tierLost_evolves (.refl _)) (.refl _)

theorem State.drainBay_evolves {s : State} {d : Nat} : Evolves s (s.drainBay d) := by
  unfold State.drainBay
  dsimp only
  refine .foldl _ ?_ (fun _ _ => ?_)
  · exact .after State.bayLeaves_evolves (.after State.setDrive_evolves (.refl _))
  · exact .after State.startRecall_evolves (.refl _)

theorem State.failBay_evolves {s : State} {d : Nat} : Evolves s (s.failBay d) := by
  unfold State.failBay
  refine .foldl _ ?_ (fun _ _ => ?_)
  · exact .after State.bayLeaves_evolves (.refl _)
  · exact .after State.endReq_evolves (.refl _)

theorem State.activateBay_evolves {s : State} {d : Nat} : Evolves s (s.activateBay d) := by
  unfold State.activateBay
  dsimp only
  refine .after State.finishAll_evolves (.after State.setBay_evolves (.after State.setDrive_evolves ?_))
  refine .gen rfl rfl rfl rfl rfl rfl rfl rfl rfl rfl rfl rfl id id (fun h => Mem.zero_wf h _ _) id id List.prefix_rfl List.prefix_rfl ?_
  refine .foldl _ ?_ (fun _ _ => ?_)
  · exact .refl _
  · exact .after State.unchargeExt_evolves (.refl _)

theorem State.powerBay_evolves {s : State} {d : Nat} : Evolves s (s.powerBay d) := by
  unfold State.powerBay
  dsimp only
  exact .after State.setDrive_evolves (.refl _)

theorem execDrivePresenceChange_evolves {d : Nat} {present : Bool} {capacity : Nat} {s : State} : Kept s (execDrivePresenceChange d present capacity s) := by
  unfold execDrivePresenceChange
  dsimp only
  refine .ite (.next (.after State.setDrive_evolves (.refl _))) (.ite (.next (.refl _)) (.ite (.next (.ite (.after State.powerBay_evolves (.after State.setDrive_evolves (.refl _))) (.after State.setDrive_evolves (.refl _)))) ?_))
  split
  · exact .next (.after State.failBay_evolves (.after State.setDrive_evolves (.refl _)))
  · exact .next (.after State.setBay_evolves (.after State.failBay_evolves (.after State.setDrive_evolves (.refl _))))
  · exact .next (.after State.setBay_evolves (.after State.setDrive_evolves (.refl _)))
  · exact .next (.after State.setBay_evolves (.after State.setDrive_evolves (.refl _)))
  · exact .next (.after State.setDrive_evolves (.refl _))

theorem execDriveFailure_evolves {d : Nat} {s : State} : Kept s (execDriveFailure d s) := by
  unfold execDriveFailure
  dsimp only
  exact .ite (.next (.after State.failBay_evolves (.refl _))) (.next (.refl _))

theorem execDriveTrained_evolves {d : Nat} {ok : Bool} {s : State} : Kept s (execDriveTrained d ok s) := by
  unfold execDriveTrained
  dsimp only
  exact .ite (.ite (.next (.after State.activateBay_evolves (.refl _))) (.next (.after State.setBay_evolves (.after State.setDrive_evolves (.refl _))))) (.next (.refl _))

theorem execDriveDrainComplete_evolves {d : Nat} {s : State} : Kept s (execDriveDrainComplete d s) := by
  unfold execDriveDrainComplete
  exact .ite (.next (.after State.finishAll_evolves (.after State.setBay_evolves (.refl _)))) (.next (.refl _))

theorem State.revokeEnded_evolves {s : State} {cmd : Nat} : Evolves s (s.revokeEnded cmd) := by
  unfold State.revokeEnded
  with_reducible refine .upd rfl rfl rfl rfl rfl rfl rfl rfl rfl rfl rfl rfl ?_
  exact .refl _

theorem execExtentDrainEnd_evolves {tier : Nat} {ext : Nat} {s : State} : Kept s (execExtentDrainEnd tier ext s) := by
  unfold execExtentDrainEnd
  dsimp only
  exact .ite (.next (.after State.settleRevokes_evolves (.after State.releaseExt_evolves (.refl _)))) (.next (.refl _))

theorem execExtentDrainTimeout_evolves {tier : Nat} {ext : Nat} {s : State} : Kept s (execExtentDrainTimeout tier ext s) := by
  unfold execExtentDrainTimeout
  dsimp only
  refine .ite ?_ (.next (.refl _))
  split
  · exact .next (.after State.settleRevokes_evolves (.after State.endReq_evolves (.after State.revokeEnded_evolves (.refl _))))
  · refine .next (.after State.settleRevokes_evolves (.after State.releaseExt_evolves (.foldl _ ?_ (fun _ _ => ?_))))
    · exact .refl _
    · exact .after State.tierLost_evolves (.refl _)

theorem execScrubComplete_evolves {tier : Nat} {ext : Nat} {s : State} : Kept s (execScrubComplete tier ext s) := by
  unfold execScrubComplete
  dsimp only
  refine .ite (.next (.foldl _ ?_ (fun _ _ => ?_))) (.next (.refl _))
  · refine .after State.settleRevokes_evolves (.ite ?_ ?_)
    · refine .gen rfl rfl rfl rfl rfl rfl rfl rfl rfl rfl rfl rfl id id (fun h => Mem.zero_wf h _ _) id id List.prefix_rfl List.prefix_rfl ?_
      exact .after State.setExt_evolves (.refl _)
    · refine .gen rfl rfl rfl rfl rfl rfl rfl rfl rfl rfl rfl rfl (fun h => Mem.zero_wf h _ _) id id id id List.prefix_rfl List.prefix_rfl ?_
      exact .after State.setExt_evolves (.refl _)
  · exact .after State.seekRun_evolves (.refl _)

theorem actGrant_evolves {p : Pkt} {id : Nat} {s : State} : DoneKept s (actGrant p id s) := by
  unfold actGrant
  dsimp only
  refine .ite ?_ ?_
  · split
    · exact .done (.after (Evolves.snd ‹State.findRun _ _ _ = _› State.findRun_evolves) (.ite (.after State.adopt_evolves (.refl _)) (.after State.reclaimFor_evolves (.refl _))))
    · refine .done (.ite ?_ (.after State.charge_evolves (.after State.takeExts_evolves (.after (Evolves.snd ‹State.findRun _ _ _ = _› State.findRun_evolves) (.ite (.after State.adopt_evolves (.refl _)) (.after State.reclaimFor_evolves (.refl _)))))))
      with_reducible refine .upd rfl rfl rfl rfl rfl rfl rfl rfl rfl rfl rfl rfl ?_
      exact .after State.takeExts_evolves (.after (Evolves.snd ‹State.findRun _ _ _ = _› State.findRun_evolves) (.ite (.after State.adopt_evolves (.refl _)) (.after State.reclaimFor_evolves (.refl _))))
  · split
    · exact .done (.refl _)
    · split
      · exact .done (.refl _)
      · refine .wait (.foldl _ ?_ (fun _ _ => ?_))
        · exact .after State.takeExts_evolves (.after State.choose_evolves (.refl _))
        · exact .after State.issueTier_evolves (.refl _)

theorem rowGrantExtent_evolves {p : Pkt} {id : Nat} {s : State} (_hv : rowGrantExtent.verdict p s = none) : DoneKept s (rowGrantExtent.act p id s) := by
  unfold rowGrantExtent
  dsimp only
  exact .after actGrant_evolves (.refl _)

theorem execGrantExtent_evolves {p : Pkt} {s : State} : Kept s (execGrantExtent p s) := by
  unfold execGrantExtent
  refine .next (.after (hostCommand_evolves ?_) (.refl _))
  intros
  exact rowGrantExtent_evolves ‹_›

theorem State.revokeOne_evolves {s : State} {tier : Nat} {e : Nat} {id : Nat} : Evolves s (s.revokeOne tier e id) := by
  unfold State.revokeOne
  dsimp only
  split
  · exact .after State.stopRing_evolves (.after State.setExt_evolves (.refl _))
  · exact .after State.releaseExt_evolves (.refl _)
  · exact .refl _

theorem actRevoke_evolves {p : Pkt} {id : Nat} {s : State} : DoneKept s (actRevoke p id s) := by
  unfold actRevoke
  dsimp only
  refine .ite (.done (.refl _)) (.wait (.foldl _ ?_ (fun _ _ => ?_)))
  · exact .refl _
  · exact .after State.revokeOne_evolves (.refl _)

theorem rowRevokeExtent_evolves {p : Pkt} {id : Nat} {s : State} (_hv : rowRevokeExtent.verdict p s = none) : DoneKept s (rowRevokeExtent.act p id s) := by
  unfold rowRevokeExtent
  dsimp only
  exact .after actRevoke_evolves (.refl _)

theorem execRevokeExtent_evolves {p : Pkt} {s : State} : Kept s (execRevokeExtent p s) := by
  unfold execRevokeExtent
  refine .next (.after (hostCommand_evolves ?_) (.refl _))
  intros
  exact rowRevokeExtent_evolves ‹_›

theorem rowSetQuota_evolves {p : Pkt} {id : Nat} {s : State} (_hv : rowSetQuota.verdict p s = none) : DoneKept s (rowSetQuota.act p id s) := by
  unfold rowSetQuota
  dsimp only
  refine .ite (.done (.refl _)) (.done ?_)
  with_reducible refine .upd rfl rfl rfl rfl rfl rfl rfl rfl rfl rfl rfl rfl ?_
  exact .refl _

theorem execSetQuota_evolves {p : Pkt} {s : State} : Kept s (execSetQuota p s) := by
  unfold execSetQuota
  refine .next (.after (hostCommand_evolves ?_) (.refl _))
  intros
  exact rowSetQuota_evolves ‹_›

theorem rowQueryQuota_evolves {p : Pkt} {id : Nat} {s : State} (_hv : rowQueryQuota.verdict p s = none) : DoneKept s (rowQueryQuota.act p id s) := by
  unfold rowQueryQuota
  dsimp only
  exact .done (.refl _)

theorem execQueryQuota_evolves {p : Pkt} {s : State} : Kept s (execQueryQuota p s) := by
  unfold execQueryQuota
  refine .next (.after (hostCommand_evolves ?_) (.refl _))
  intros
  exact rowQueryQuota_evolves ‹_›

end Sys2Proof.Machine
end

