-- ==== Sys2Proof/Laws/EvolvesObjs.lean ====
section
/-! SUPPORT. What the operations of Objs, Requests, Prog, Jobs keep (`Laws/Evolves.lean`). -/

namespace Sys2Proof.Machine

theorem State.tookId_evolves {s : State} {k : Nat} : Evolves s (s.tookId k) := by
  unfold State.tookId
  with_reducible refine .upd rfl rfl rfl rfl rfl rfl rfl rfl rfl rfl rfl rfl ?_
  exact .refl _

theorem State.register_evolves {s : State} {k : ObjKind} {obj : Nat} {tenant : Nat} {size : Nat} {first : Nat} : Evolves s (s.register k obj tenant size first).2 := by
  unfold State.register
  dsimp only
  split
  · dsimp only
    with_reducible refine .upd rfl rfl rfl rfl rfl rfl rfl rfl rfl rfl rfl rfl ?_
    exact .after State.tookId_evolves (.refl _)
  · dsimp only
    with_reducible refine .upd rfl rfl rfl rfl rfl rfl rfl rfl rfl rfl rfl rfl ?_
    exact .after State.tookId_evolves (.refl _)
  · dsimp only
    with_reducible refine .upd rfl rfl rfl rfl rfl rfl rfl rfl rfl rfl rfl rfl ?_
    exact .after State.tookId_evolves (.refl _)
  · dsimp only
    with_reducible refine .upd rfl rfl rfl rfl rfl rfl rfl rfl rfl rfl rfl rfl ?_
    exact .after State.tookId_evolves (.refl _)
  · split
    · dsimp only
      exact .refl _
    · dsimp only
      refine .after State.retireDelta_evolves ?_
      with_reducible refine .upd rfl rfl rfl rfl rfl rfl rfl rfl rfl rfl rfl rfl ?_
      exact .refl _

theorem State.copyDone_evolves {s : State} {k : ObjKind} {src : Nat} {size : Nat} {tenant : Nat} {obj : Nat} : Evolves s (s.copyDone k src size tenant obj).2 := by
  unfold State.copyDone
  dsimp only
  split
  · dsimp only
    exact .refl _
  · split
    · dsimp only
      exact .refl _
    · split
      · dsimp only
        exact .refl _
      · split
        · dsimp only
          exact .refl _
        · split
          · dsimp only
            exact .refl _
          · exact .after State.register_evolves (.after State.hbmWrite_evolves (.after State.charge_evolves (.after State.takeExts_evolves (.after (Evolves.snd ‹State.findRun _ _ _ = _› State.findRun_evolves) (.after State.reclaimFor_evolves (.refl _))))))

theorem rowLoadImage_evolves {p : Pkt} {id : Nat} {s : State} (_hv : rowLoadImage.verdict p s = none) : DoneKept s (rowLoadImage.act p id s) := by
  unfold rowLoadImage
  dsimp only
  exact .wait (.refl _)

theorem execLoadImage_evolves {p : Pkt} {s : State} : Kept s (execLoadImage p s) := by
  unfold execLoadImage
  refine .next (.after (hostCommand_evolves ?_) (.refl _))
  intros
  exact rowLoadImage_evolves ‹_›

theorem rowLoadModel_evolves {p : Pkt} {id : Nat} {s : State} (_hv : rowLoadModel.verdict p s = none) : DoneKept s (rowLoadModel.act p id s) := by
  unfold rowLoadModel
  dsimp only
  exact .wait (.refl _)

theorem execLoadModel_evolves {p : Pkt} {s : State} : Kept s (execLoadModel p s) := by
  unfold execLoadModel
  refine .next (.after (hostCommand_evolves ?_) (.refl _))
  intros
  exact rowLoadModel_evolves ‹_›

theorem rowLoadDelta_evolves {p : Pkt} {id : Nat} {s : State} (_hv : rowLoadDelta.verdict p s = none) : DoneKept s (rowLoadDelta.act p id s) := by
  unfold rowLoadDelta
  dsimp only
  exact .wait (.refl _)

theorem execLoadDelta_evolves {p : Pkt} {s : State} : Kept s (execLoadDelta p s) := by
  unfold execLoadDelta
  refine .next (.after (hostCommand_evolves ?_) (.refl _))
  intros
  exact rowLoadDelta_evolves ‹_›

theorem rowReplaceDelta_evolves {p : Pkt} {id : Nat} {s : State} (_hv : rowReplaceDelta.verdict p s = none) : DoneKept s (rowReplaceDelta.act p id s) := by
  unfold rowReplaceDelta
  dsimp only
  exact .wait (.refl _)

theorem execReplaceDelta_evolves {p : Pkt} {s : State} : Kept s (execReplaceDelta p s) := by
  unfold execReplaceDelta
  refine .next (.after (hostCommand_evolves ?_) (.refl _))
  intros
  exact rowReplaceDelta_evolves ‹_›

theorem rowLoadGrammar_evolves {p : Pkt} {id : Nat} {s : State} (_hv : rowLoadGrammar.verdict p s = none) : DoneKept s (rowLoadGrammar.act p id s) := by
  unfold rowLoadGrammar
  dsimp only
  exact .wait (.refl _)

theorem execLoadGrammar_evolves {p : Pkt} {s : State} : Kept s (execLoadGrammar p s) := by
  unfold execLoadGrammar
  refine .next (.after (hostCommand_evolves ?_) (.refl _))
  intros
  exact rowLoadGrammar_evolves ‹_›

theorem rowUnloadImage_evolves {p : Pkt} {id : Nat} {s : State} (_hv : rowUnloadImage.verdict p s = none) : DoneKept s (rowUnloadImage.act p id s) := by
  unfold rowUnloadImage
  dsimp only
  split
  · exact .done (.refl _)
  · refine .done (.after State.releaseObject_evolves ?_)
    with_reducible refine .upd rfl rfl rfl rfl rfl rfl rfl rfl rfl rfl rfl rfl ?_
    exact .refl _

theorem execUnloadImage_evolves {p : Pkt} {s : State} : Kept s (execUnloadImage p s) := by
  unfold execUnloadImage
  refine .next (.after (hostCommand_evolves ?_) (.refl _))
  intros
  exact rowUnloadImage_evolves ‹_›

theorem rowUnloadModel_evolves {p : Pkt} {id : Nat} {s : State} (_hv : rowUnloadModel.verdict p s = none) : DoneKept s (rowUnloadModel.act p id s) := by
  unfold rowUnloadModel
  dsimp only
  split
  · exact .done (.refl _)
  · refine .done (.after State.releaseObject_evolves ?_)
    with_reducible refine .upd rfl rfl rfl rfl rfl rfl rfl rfl rfl rfl rfl rfl ?_
    exact .refl _

theorem execUnloadModel_evolves {p : Pkt} {s : State} : Kept s (execUnloadModel p s) := by
  unfold execUnloadModel
  refine .next (.after (hostCommand_evolves ?_) (.refl _))
  intros
  exact rowUnloadModel_evolves ‹_›

theorem rowUnloadDelta_evolves {p : Pkt} {id : Nat} {s : State} (_hv : rowUnloadDelta.verdict p s = none) : DoneKept s (rowUnloadDelta.act p id s) := by
  unfold rowUnloadDelta
  dsimp only
  split
  · exact .done (.refl _)
  · refine .done (.foldl _ ?_ (fun _ _ => ?_))
    · with_reducible refine .upd rfl rfl rfl rfl rfl rfl rfl rfl rfl rfl rfl rfl ?_
      exact .refl _
    · exact .after State.releaseObject_evolves (.refl _)

theorem execUnloadDelta_evolves {p : Pkt} {s : State} : Kept s (execUnloadDelta p s) := by
  unfold execUnloadDelta
  refine .next (.after (hostCommand_evolves ?_) (.refl _))
  intros
  exact rowUnloadDelta_evolves ‹_›

theorem rowUnloadGrammar_evolves {p : Pkt} {id : Nat} {s : State} (_hv : rowUnloadGrammar.verdict p s = none) : DoneKept s (rowUnloadGrammar.act p id s) := by
  unfold rowUnloadGrammar
  dsimp only
  split
  · exact .done (.refl _)
  · refine .done (.after State.releaseObject_evolves ?_)
    with_reducible refine .upd rfl rfl rfl rfl rfl rfl rfl rfl rfl rfl rfl rfl ?_
    exact .refl _

theorem execUnloadGrammar_evolves {p : Pkt} {s : State} : Kept s (execUnloadGrammar p s) := by
  unfold execUnloadGrammar
  refine .next (.after (hostCommand_evolves ?_) (.refl _))
  intros
  exact rowUnloadGrammar_evolves ‹_›

theorem State.freeVals_evolves {s : State} {n : Nat} : Evolves s (s.freeVals n).2 := by
  unfold State.freeVals
  dsimp only
  with_reducible refine .upd rfl rfl rfl rfl rfl rfl rfl rfl rfl rfl rfl rfl ?_
  exact .refl _

theorem State.bumpStat_evolves {s : State} {core : Nat} {field : Nat} {n : Nat} : Evolves s (s.bumpStat core field n) := by
  unfold State.bumpStat
  with_reducible refine .upd rfl rfl rfl rfl rfl rfl rfl rfl rfl rfl rfl rfl ?_
  exact .refl _

theorem rowReadCoreStats_evolves {p : Pkt} {id : Nat} {s : State} (_hv : rowReadCoreStats.verdict p s = none) : DoneKept s (rowReadCoreStats.act p id s) := by
  unfold rowReadCoreStats
  dsimp only
  exact .done (.after State.freeVals_evolves (.refl _))

theorem execReadCoreStats_evolves {p : Pkt} {s : State} : Kept s (execReadCoreStats p s) := by
  unfold execReadCoreStats
  refine .next (.after (hostCommand_evolves ?_) (.refl _))
  intros
  exact rowReadCoreStats_evolves ‹_›

theorem rowReadAttnCounters_evolves {p : Pkt} {id : Nat} {s : State} (_hv : rowReadAttnCounters.verdict p s = none) : DoneKept s (rowReadAttnCounters.act p id s) := by
  unfold rowReadAttnCounters
  dsimp only
  exact .done (.refl _)

theorem execReadAttnCounters_evolves {p : Pkt} {s : State} : Kept s (execReadAttnCounters p s) := by
  unfold execReadAttnCounters
  refine .next (.after (hostCommand_evolves ?_) (.refl _))
  intros
  exact rowReadAttnCounters_evolves ‹_›

theorem State.bumpExp_evolves {s : State} {core : Nat} {me : Nat} {field : Nat} {n : Nat} : Evolves s (s.bumpExp core me field n) := by
  unfold State.bumpExp
  with_reducible refine .upd rfl rfl rfl rfl rfl rfl rfl rfl rfl rfl rfl rfl ?_
  exact .refl _

theorem rowReadExpanderStats_evolves {p : Pkt} {id : Nat} {s : State} (_hv : rowReadExpanderStats.verdict p s = none) : DoneKept s (rowReadExpanderStats.act p id s) := by
  unfold rowReadExpanderStats
  dsimp only
  exact .done (.after State.freeVals_evolves (.refl _))

theorem execReadExpanderStats_evolves {p : Pkt} {s : State} : Kept s (execReadExpanderStats p s) := by
  unfold execReadExpanderStats
  refine .next (.after (hostCommand_evolves ?_) (.refl _))
  intros
  exact rowReadExpanderStats_evolves ‹_›

theorem State.place_evolves {s : State} {i : Nat} {decode : Bool} : Evolves s (s.place i decode) := by
  unfold State.place
  split
  · exact .after State.modCtx_evolves (.refl _)
  · exact .refl _

theorem State.takeWorkset_evolves {s : State} {i : Nat} {n : Nat} : ∀ (t : State), s.takeWorkset i n = some t → Evolves s t := by
  intro t h
  unfold State.takeWorkset at h
  split at h
  · cases h; exact .refl _
  · dsimp only at h
    split at h
    · cases h
    · cases h
      exact .after State.modCtx_evolves (.after State.charge_evolves (.after State.takeExts_evolves (.after (Evolves.snd ‹State.findRun _ _ _ = _› State.findRun_evolves) (.after State.reclaimFor_evolves (.refl _)))))

theorem State.admitAt_evolves : ∀ {s t : State} {i k : Nat} {c : Ctx}, Evolves s t → DoneKept s (s.admitAt t i k c) := by
  intro s t i k c h
  unfold State.admitAt
  split
  · exact .done (.refl _)
  · rename_i hw
    refine .done ?_
    exact .after State.bump_evolves (.after State.place_evolves (.after State.setLatch_evolves (.after (State.takeWorkset_evolves _ hw) (.after State.setCtx_evolves h))))

theorem actAdmit_evolves {p : Pkt} {_id : Nat} {s : State} : DoneKept s (actAdmit p _id s) := by
  unfold actAdmit
  split
  · rename_i ht
    exact State.admitAt_evolves (State.takeLatch_evolves _ _ ht)
  · exact .done (.refl _)

theorem rowAdmitRequest_evolves {p : Pkt} {id : Nat} {s : State} (_hv : rowAdmitRequest.verdict p s = none) : DoneKept s (rowAdmitRequest.act p id s) := by
  unfold rowAdmitRequest
  dsimp only
  exact .after actAdmit_evolves (.refl _)

theorem execAdmitRequest_evolves {p : Pkt} {s : State} : Kept s (execAdmitRequest p s) := by
  unfold execAdmitRequest
  refine .next (.after (hostCommand_evolves ?_) (.refl _))
  intros
  exact rowAdmitRequest_evolves ‹_›

theorem actCancel_evolves {p : Pkt} {_id : Nat} {s : State} : DoneKept s (actCancel p _id s) := by
  unfold actCancel
  dsimp only
  split
  · exact .done (.refl _)
  · split
    · exact .ite (.wait (.after State.modCtx_evolves (.refl _))) (.done (.after State.endReq_evolves (.refl _)))
    · exact .wait (.refl _)
    · exact .done (.refl _)
    · exact .done (.refl _)
    · exact .done (.refl _)
    · exact .done (.after State.endReq_evolves (.refl _))
    · exact .done (.after State.endReq_evolves (.refl _))
    · exact .done (.after State.endReq_evolves (.refl _))
    · exact .done (.after State.endReq_evolves (.refl _))

theorem rowCancel_evolves {p : Pkt} {id : Nat} {s : State} (_hv : rowCancel.verdict p s = none) : DoneKept s (rowCancel.act p id s) := by
  unfold rowCancel
  dsimp only
  exact .after actCancel_evolves (.refl _)

theorem execCancel_evolves {p : Pkt} {s : State} : Kept s (execCancel p s) := by
  unfold execCancel
  refine .next (.after (hostCommand_evolves ?_) (.refl _))
  intros
  exact rowCancel_evolves ‹_›

theorem State.pauseNow_evolves {s : State} {i : Nat} : Evolves s (s.pauseNow i) := by
  unfold State.pauseNow
  exact .after State.finishAll_evolves (.after State.enter_evolves (.after State.modCtx_evolves (.refl _)))

theorem State.applyPauses_evolves {s : State} {part : Nat} : Evolves s (s.applyPauses part) := by
  unfold State.applyPauses
  refine .foldl _ ?_ (fun _ _ => ?_)
  · exact .refl _
  · exact .ite (.after State.pauseNow_evolves (.refl _)) (.after State.finishAll_evolves (.after State.modCtx_evolves (.refl _)))

theorem actPause_evolves {p : Pkt} {_id : Nat} {s : State} : DoneKept s (actPause p _id s) := by
  unfold actPause
  dsimp only
  split
  · exact .done (.refl _)
  · exact .ite (.ite (.done (.refl _)) (.done (.after State.modCtx_evolves (.refl _)))) (.ite (.wait (.after State.modCtx_evolves (.refl _))) (.done (.after State.pauseNow_evolves (.refl _))))

theorem rowPause_evolves {p : Pkt} {id : Nat} {s : State} (_hv : rowPause.verdict p s = none) : DoneKept s (rowPause.act p id s) := by
  unfold rowPause
  dsimp only
  exact .after actPause_evolves (.refl _)

theorem execPause_evolves {p : Pkt} {s : State} : Kept s (execPause p s) := by
  unfold execPause
  refine .next (.after (hostCommand_evolves ?_) (.refl _))
  intros
  exact rowPause_evolves ‹_›

theorem actResume_evolves {p : Pkt} {_id : Nat} {s : State} : DoneKept s (actResume p _id s) := by
  unfold actResume
  dsimp only
  split
  · exact .done (.refl _)
  · exact .ite (.wait (.after State.tryDecode_evolves (.after State.modCtx_evolves (.refl _)))) (.done (.after State.tryDecode_evolves (.after State.modCtx_evolves (.refl _))))

theorem rowResume_evolves {p : Pkt} {id : Nat} {s : State} (_hv : rowResume.verdict p s = none) : DoneKept s (rowResume.act p id s) := by
  unfold rowResume
  dsimp only
  exact .after actResume_evolves (.refl _)

theorem execResume_evolves {p : Pkt} {s : State} : Kept s (execResume p s) := by
  unfold execResume
  refine .next (.after (hostCommand_evolves ?_) (.refl _))
  intros
  exact rowResume_evolves ‹_›

theorem rowQueryRequest_evolves {p : Pkt} {id : Nat} {s : State} (_hv : rowQueryRequest.verdict p s = none) : DoneKept s (rowQueryRequest.act p id s) := by
  unfold rowQueryRequest
  dsimp only
  split
  · exact .done (.refl _)
  · exact .done (.refl _)

theorem execQueryRequest_evolves {p : Pkt} {s : State} : Kept s (execQueryRequest p s) := by
  unfold execQueryRequest
  refine .next (.after (hostCommand_evolves ?_) (.refl _))
  intros
  exact rowQueryRequest_evolves ‹_›

theorem rowReleaseContext_evolves {p : Pkt} {id : Nat} {s : State} (_hv : rowReleaseContext.verdict p s = none) : DoneKept s (rowReleaseContext.act p id s) := by
  unfold rowReleaseContext
  dsimp only
  split
  · exact .done (.refl _)
  · exact .done (.after State.freeCtxAt_evolves (.refl _))

theorem execReleaseContext_evolves {p : Pkt} {s : State} : Kept s (execReleaseContext p s) := by
  unfold execReleaseContext
  refine .next (.after (hostCommand_evolves ?_) (.refl _))
  intros
  exact rowReleaseContext_evolves ‹_›

theorem execCtxRetainExpiry_evolves {ctx : Nat} {s : State} : Kept s (execCtxRetainExpiry ctx s) := by
  unfold execCtxRetainExpiry
  dsimp only
  exact .ite (.next (.after State.freeCtxAt_evolves (.refl _))) (.next (.refl _))

theorem State.recordMiss_evolves {s : State} {i : Nat} : Evolves s (s.recordMiss i) := by
  unfold State.recordMiss
  exact .after State.modCtx_evolves (.refl _)

theorem State.writeMiss_evolves {s : State} {i : Nat} {first : Bool} {pos : Nat} : Evolves s (s.writeMiss i first pos) := by
  unfold State.writeMiss
  dsimp only
  exact .after State.pushOut_evolves (.ite (.after State.modCtx_evolves (.refl _)) (.after State.bump_evolves (.after State.modCtx_evolves (.refl _))))

theorem State.writeMisses_evolves {s : State} {i : Nat} : Evolves s (s.writeMisses i) := by
  unfold State.writeMisses
  dsimp only
  refine .foldl _ ?_ (fun _ _ => ?_)
  · exact .ite (.after State.writeMiss_evolves (.after State.modCtx_evolves (.ite (.after State.recordMiss_evolves (.refl _)) (.refl _)))) (.after State.modCtx_evolves (.ite (.after State.recordMiss_evolves (.refl _)) (.refl _)))
  · exact .after State.writeMiss_evolves (.refl _)

theorem execDeadlinePass_evolves {ctx : Nat} {s : State} : Kept s (execDeadlinePass ctx s) := by
  unfold execDeadlinePass
  exact .ite (.ite (.next (.after State.writeMisses_evolves (.refl _))) (.next (.after State.recordMiss_evolves (.refl _)))) (.next (.refl _))

theorem State.setPart_evolves {s : State} {k : Nat} {x : Part} : Evolves s (s.setPart k x) := by
  unfold State.setPart
  with_reducible refine .upd rfl rfl rfl rfl rfl rfl rfl rfl rfl rfl rfl rfl ?_
  exact .refl _

theorem State.modPart_evolves {s : State} {k : Nat} {f : Part → Part} : Evolves s (s.modPart k f) := by
  unfold State.modPart
  exact .after State.setPart_evolves (.refl _)

theorem State.setPc_evolves {s : State} {id : Nat} {x : ProgCtx} : Evolves s (s.setPc id x) := by
  unfold State.setPc
  with_reducible refine .upd rfl rfl rfl rfl rfl rfl rfl rfl rfl rfl rfl rfl ?_
  exact .refl _

theorem State.modPc_evolves {s : State} {id : Nat} {f : ProgCtx → ProgCtx} : Evolves s (s.modPc id f) := by
  unfold State.modPc
  exact .after State.setPc_evolves (.refl _)

theorem State.setRot_evolves {s : State} {k : Nat} {decode : Bool} {r : Rot} : Evolves s (s.setRot k decode r) := by
  unfold State.setRot
  exact .after State.modPart_evolves (.refl _)

theorem State.recompute_evolves {s : State} {k : Nat} : Evolves s (s.recompute k) := by
  unfold State.recompute
  dsimp only
  exact .ite (.refl _) (.after State.capChanged_evolves (.after State.modPart_evolves (.refl _)))

theorem State.fwWrite_evolves {s : State} {place : Nat} {bs : List Byte} : Evolves s (s.fwWrite place bs) := by
  unfold State.fwWrite
  refine .gen rfl rfl rfl rfl rfl rfl rfl rfl rfl rfl rfl rfl id (fun h => Mem.writeN_wf h _ _) id id id List.prefix_rfl List.prefix_rfl ?_
  exact .refl _

theorem State.pushItem_evolves {s : State} {id : Nat} {w : WorkItem} {seqList : Nat} : Evolves s (s.pushItem id w seqList) := by
  unfold State.pushItem
  dsimp only
  exact .after State.setPc_evolves (.after State.fwWrite_evolves (.refl _))

theorem State.postStop_evolves {s : State} {id : Nat} {status : Nat} : Evolves s (s.postStop id status) := by
  unfold State.postStop
  exact .after State.modPc_evolves (.after State.pushItem_evolves (.refl _))

theorem State.choosePc_evolves {s : State} {k : Nat} {decode : Bool} : Evolves s (s.choosePc k decode) := by
  unfold State.choosePc
  dsimp only
  exact .ite (.refl _) (.ite (.ite (.after State.setRot_evolves (.after State.adopt_evolves (.refl _))) (.refl _)) (.after State.setRot_evolves (.after State.adopt_evolves (.refl _))))

theorem State.finishPart_evolves {s : State} {k : Nat} : Evolves s (s.finishPart k) := by
  unfold State.finishPart
  dsimp only
  exact .ite (.after State.finishAll_evolves (.after State.capChanged_evolves (.after State.fwWrite_evolves (.after State.uncharge_evolves (.after State.setPart_evolves (.refl _)))))) (.refl _)

theorem State.finishUnbinds_evolves {s : State} {k : Nat} : Evolves s (s.finishUnbinds k) := by
  unfold State.finishUnbinds
  refine .foldl _ ?_ (fun _ _ => ?_)
  · exact .refl _
  · split
    · exact .ite (.after State.finish_evolves (.refl _)) (.refl _)
    · exact .refl _

theorem State.orphan_evolves {s : State} {id : Nat} : Evolves s (s.orphan id) := by
  unfold State.orphan
  dsimp only
  refine .after State.dropTxns_evolves ?_
  with_reducible refine .upd rfl rfl rfl rfl rfl rfl rfl rfl rfl rfl rfl rfl ?_
  exact .refl _

theorem State.endProg_evolves {s : State} {id : Nat} {status : Nat} : Evolves s (s.endProg id status) := by
  unfold State.endProg
  dsimp only
  refine .ite (.refl _) (.after State.choosePc_evolves (.after State.finishPart_evolves (.after State.finishUnbinds_evolves (.ite ?_ ?_))))
  · refine .after State.applyPauses_evolves (.after State.modPart_evolves (.after State.postEvent_evolves (.after State.setRot_evolves (.after State.orphan_evolves ?_))))
    with_reducible refine .upd rfl rfl rfl rfl rfl rfl rfl rfl rfl rfl rfl rfl ?_
    exact .refl _
  · refine .after State.postEvent_evolves (.after State.setRot_evolves (.after State.orphan_evolves ?_))
    with_reducible refine .upd rfl rfl rfl rfl rfl rfl rfl rfl rfl rfl rfl rfl ?_
    exact .refl _

theorem State.endPlaced_evolves {s : State} {id : Nat} {status : Nat} : Evolves s (s.endPlaced id status) := by
  unfold State.endPlaced
  dsimp only
  exact .ite (.after State.endReqs_evolves (.refl _)) (.refl _)

theorem State.resetProg_evolves {s : State} {id : Nat} {rank : Nat} {eng : Nat} {code : Nat} {index : Nat} {ea : Nat} : Evolves s (s.resetProg id rank eng code index ea) := by
  unfold State.resetProg
  dsimp only
  exact .after State.endProg_evolves (.after State.postEvent_evolves (.after State.bump_evolves (.after State.endPlaced_evolves (.refl _))))

theorem State.settleHalt_evolves {s : State} {id : Nat} : Evolves s (s.settleHalt id) := by
  unfold State.settleHalt
  dsimp only
  exact .ite (.after State.endProg_evolves (.refl _)) (.refl _)

theorem State.cancelProg_evolves {s : State} {id : Nat} : Evolves s (s.cancelProg id) := by
  unfold State.cancelProg
  dsimp only
  exact .ite (.after State.postStop_evolves (.refl _)) (.after State.endProg_evolves (.refl _))

theorem State.clearPartKeys_evolves {s : State} {k : Nat} : Evolves s (s.clearPartKeys k) := by
  unfold State.clearPartKeys
  dsimp only
  with_reducible refine .upd rfl rfl rfl rfl rfl rfl rfl rfl rfl rfl rfl rfl ?_
  exact .refl _

theorem actCreatePart_evolves {p : Pkt} {_id : Nat} {s : State} : DoneKept s (actCreatePart p _id s) := by
  unfold actCreatePart
  dsimp only
  exact .done (.after State.capChanged_evolves (.after State.fwWrite_evolves (.after State.charge_evolves (.after State.setPart_evolves (.after State.setKey_evolves (.after State.setKey_evolves (.after State.clearPartKeys_evolves (.refl _))))))))

theorem rowCreatePartition_evolves {p : Pkt} {id : Nat} {s : State} (_hv : rowCreatePartition.verdict p s = none) : DoneKept s (rowCreatePartition.act p id s) := by
  unfold rowCreatePartition
  dsimp only
  exact .after actCreatePart_evolves (.refl _)

theorem execCreatePartition_evolves {p : Pkt} {s : State} : Kept s (execCreatePartition p s) := by
  unfold execCreatePartition
  refine .next (.after (hostCommand_evolves ?_) (.refl _))
  intros
  exact rowCreatePartition_evolves ‹_›

theorem rowDestroyPartition_evolves {p : Pkt} {id : Nat} {s : State} (_hv : rowDestroyPartition.verdict p s = none) : DoneKept s (rowDestroyPartition.act p id s) := by
  unfold rowDestroyPartition
  dsimp only
  refine .ite (.done (.refl _)) (.ite ?_ ?_)
  · refine .done (.after State.finishPart_evolves (.foldl _ ?_ (fun _ _ => ?_)))
    · exact .after State.modPart_evolves (.refl _)
    · exact .after State.cancelProg_evolves (.refl _)
  · refine .wait (.foldl _ ?_ (fun _ _ => ?_))
    · exact .after State.modPart_evolves (.refl _)
    · exact .after State.cancelProg_evolves (.refl _)

theorem execDestroyPartition_evolves {p : Pkt} {s : State} : Kept s (execDestroyPartition p s) := by
  unfold execDestroyPartition
  refine .next (.after (hostCommand_evolves ?_) (.refl _))
  intros
  exact rowDestroyPartition_evolves ‹_›

theorem rowBindImage_evolves {p : Pkt} {id : Nat} {s : State} (_hv : rowBindImage.verdict p s = none) : DoneKept s (rowBindImage.act p id s) := by
  unfold rowBindImage
  dsimp only
  exact .ite (.done (.refl _)) (.done (.after State.recompute_evolves (.after State.modPart_evolves (.refl _))))

theorem execBindImage_evolves {p : Pkt} {s : State} : Kept s (execBindImage p s) := by
  unfold execBindImage
  refine .next (.after (hostCommand_evolves ?_) (.refl _))
  intros
  exact rowBindImage_evolves ‹_›

theorem rowUnbindImage_evolves {p : Pkt} {id : Nat} {s : State} (_hv : rowUnbindImage.verdict p s = none) : DoneKept s (rowUnbindImage.act p id s) := by
  unfold rowUnbindImage
  dsimp only
  refine .ite (.done (.refl _)) (.ite ?_ ?_)
  · refine .wait (.foldl _ ?_ (fun _ _ => ?_))
    · exact .after State.recompute_evolves (.after State.modPart_evolves (.refl _))
    · exact .after State.cancelProg_evolves (.refl _)
  · refine .done (.foldl _ ?_ (fun _ _ => ?_))
    · exact .after State.recompute_evolves (.after State.modPart_evolves (.refl _))
    · exact .after State.cancelProg_evolves (.refl _)

theorem execUnbindImage_evolves {p : Pkt} {s : State} : Kept s (execUnbindImage p s) := by
  unfold execUnbindImage
  refine .next (.after (hostCommand_evolves ?_) (.refl _))
  intros
  exact rowUnbindImage_evolves ‹_›

theorem State.placeWaiting_evolves {s : State} : Evolves s s.placeWaiting := by
  unfold State.placeWaiting
  refine .foldl _ ?_ (fun _ _ => ?_)
  · exact .refl _
  · exact .after State.place_evolves (.refl _)

theorem actLaunch_evolves {p : Pkt} {_id : Nat} {s : State} : DoneKept s (actLaunch p _id s) := by
  unfold actLaunch
  dsimp only
  split
  · exact .done (.refl _)
  · exact .done (.after State.choosePc_evolves (.ite (.after State.placeWaiting_evolves (.after State.fwWrite_evolves (.after State.setPc_evolves (.refl _)))) (.after State.fwWrite_evolves (.after State.setPc_evolves (.refl _)))))

theorem rowLaunchProgram_evolves {p : Pkt} {id : Nat} {s : State} (_hv : rowLaunchProgram.verdict p s = none) : DoneKept s (rowLaunchProgram.act p id s) := by
  unfold rowLaunchProgram
  dsimp only
  exact .after actLaunch_evolves (.refl _)

theorem execLaunchProgram_evolves {p : Pkt} {s : State} : Kept s (execLaunchProgram p s) := by
  unfold execLaunchProgram
  refine .next (.after (hostCommand_evolves ?_) (.refl _))
  intros
  exact rowLaunchProgram_evolves ‹_›

theorem execEngineQueueTimeout_evolves {e : EngAt} {s : State} : Kept s (execEngineQueueTimeout e s) := by
  unfold execEngineQueueTimeout
  dsimp only
  refine .ite (.next (.refl _)) ?_
  split
  · exact .next (.refl _)
  · split
    · exact .next (.refl _)
    · exact .ite (.next (.after State.resetProg_evolves (.after State.adopt_evolves (.refl _)))) (.next (.after State.adopt_evolves (.refl _)))

theorem State.closeSessions_evolves {s : State} {p : Nat → Sess → Bool} {status : Nat} : Evolves s (s.closeSessions p status) := by
  unfold State.closeSessions
  dsimp only
  refine .foldl _ ?_ (fun _ _ => ?_)
  · refine .after State.dropTxns_evolves ?_
    with_reducible refine .upd rfl rfl rfl rfl rfl rfl rfl rfl rfl rfl rfl rfl ?_
    exact .refl _
  · exact .after State.finishId_evolves (.refl _)

theorem State.dropJobExts_evolves {s : State} {j : Nat} : Evolves s (s.dropJobExts j) := by
  unfold State.dropJobExts
  dsimp only
  refine .after State.settleRevokes_evolves (.foldl _ ?_ (fun _ _ => ?_))
  · refine .foldl _ ?_ (fun _ _ => ?_)
    · exact .refl _
    · exact .after State.releaseExt_evolves (.refl _)
  · exact .after State.releaseExt_evolves (.refl _)

theorem State.endJob_evolves {s : State} {j : Nat} : Evolves s (s.endJob j) := by
  unfold State.endJob
  dsimp only
  refine .after State.closeSessions_evolves ?_
  with_reducible refine .upd rfl rfl rfl rfl rfl rfl rfl rfl rfl rfl rfl rfl ?_
  refine .after State.dropJobExts_evolves (.foldl _ ?_ (fun _ _ => ?_))
  · exact .after State.endReqs_evolves (.refl _)
  · exact .after State.endProg_evolves (.refl _)

theorem State.teardownHere_evolves {s : State} {j : Nat} {g : Nat} {cause : Nat} {target : Nat} {reporter : Nat} : Evolves s (s.teardownHere j g cause target reporter) := by
  unfold State.teardownHere
  dsimp only
  exact .ite (.refl _) (.after State.setJobTd_evolves (.after State.postEvent_evolves (.after State.bump_evolves (.after State.endJob_evolves (.after State.setJobTd_evolves (.refl _))))))

theorem State.manageFault_evolves {s : State} {j : Nat} {g : Nat} {cause : Nat} {target : Nat} {reporter : Nat} : Evolves s (s.manageFault j g cause target reporter) := by
  unfold State.manageFault
  dsimp only
  refine .ite (.refl _) (.after State.teardownHere_evolves (.foldl _ ?_ (fun _ _ => ?_)))
  · exact .refl _
  · exact .after State.mgmtTo_evolves (.refl _)

theorem State.sendReport_evolves {s : State} {j : Nat} : Evolves s (s.sendReport j) := by
  unfold State.sendReport
  split
  · exact .ite (.after State.manageFault_evolves (.refl _)) (.after State.mgmtTo_evolves (.refl _))
  · exact .refl _

theorem State.detectFault_evolves {s : State} {j : Nat} {cause : Nat} {target : Nat} : Evolves s (s.detectFault j cause target) := by
  unfold State.detectFault
  dsimp only
  exact .after State.sendReport_evolves (.after State.endJob_evolves (.after State.setJobTd_evolves (.refl _)))

theorem State.rawFault_evolves {s : State} {j : Nat} {cause : Nat} {target : Nat} : Evolves s (s.rawFault j cause target) := by
  unfold State.rawFault
  exact .after State.detectFault_evolves (.after State.bump_evolves (.refl _))

end Sys2Proof.Machine
end

