-- ==== Sys2Proof/Laws/EvolvesAccess.lean ====
section
/-! SUPPORT. What the operations of Access, Tumbler, Hinge, HingeIn keep (`Laws/Evolves.lean`). -/

namespace Sys2Proof.Machine

theorem State.putLine_evolves {s : State} {line : Nat} {mask : Nat} {data : List Byte} {poison : Bool} : Evolves s (s.putLine line mask data poison) := by
  unfold State.putLine
  dsimp only
  refine .ite ?_ ?_
  · refine .after State.linePoison_evolves (.foldl _ ?_ (fun _ _ => ?_))
    · exact .refl _
    · exact .ite (.after State.hbmPut_evolves (.refl _)) (.refl _)
  · refine .ite ?_ ?_
    · refine .after State.linePoison_evolves (.foldl _ ?_ (fun _ _ => ?_))
      · exact .refl _
      · exact .ite (.after State.hbmPut_evolves (.refl _)) (.refl _)
    · refine .foldl _ ?_ (fun _ _ => ?_)
      · exact .refl _
      · exact .ite (.after State.hbmPut_evolves (.refl _)) (.refl _)

theorem State.mirrorLine_evolves {s : State} {line : Nat} {mask : Nat} {data : List Byte} {poison : Bool} : Evolves s (s.mirrorLine line mask data poison) := by
  unfold State.mirrorLine
  dsimp only
  split
  · split
    · exact .ite (.after State.request_evolves (.refl _)) (.refl _)
    · exact .refl _
  · exact .refl _

theorem State.doAtomic_evolves {s : State} {a : Nat} {code : Nat} {x : Nat} {y : Nat} : Evolves s (s.doAtomic a code x y).2 := by
  unfold State.doAtomic
  dsimp only
  split
  · dsimp only
    exact .refl _
  · dsimp only
    exact .after State.hbmWrite_evolves (.refl _)

theorem State.setTable_evolves {s : State} {k : Nat} {x : Table} : Evolves s (s.setTable k x) := by
  unfold State.setTable
  dsimp only
  with_reducible refine .upd rfl rfl rfl rfl rfl rfl rfl rfl rfl rfl rfl rfl ?_
  exact .refl _

theorem State.searchOne_evolves {s : State} {k : Nat} {shadow : Bool} {key : Nat} {mask : Nat} : Evolves s (s.searchOne k shadow key mask).2 := by
  unfold State.searchOne
  dsimp only
  exact .after State.bump_evolves (.refl _)

theorem State.endJobT_evolves {s : State} {j : TJob} : Evolves s (s.endJobT j) := by
  unfold State.endJobT
  dsimp only
  with_reducible refine .upd rfl rfl rfl rfl rfl rfl rfl rfl rfl rfl rfl rfl ?_
  exact .refl _

theorem State.setOp_evolves {s : State} {j : TJob} {op : TWrite} : Evolves s (s.setOp j op) := by
  unfold State.setOp
  dsimp only
  with_reducible refine .upd rfl rfl rfl rfl rfl rfl rfl rfl rfl rfl rfl rfl ?_
  exact .refl _

theorem State.doneJob_evolves {s : State} {j : TJob} {a : Ans} : Evolves s (s.doneJob j a) := by
  unfold State.doneJob
  dsimp only
  refine .ite (.after State.finishId_evolves (.after State.endJobT_evolves (.refl _))) (.ite (.after State.endJobT_evolves (.refl _)) ?_)
  split
  · exact .ite (.after State.finishId_evolves (.after State.endJobT_evolves (.refl _))) (.after State.setWait_evolves (.after State.endJobT_evolves (.refl _)))
  · exact .after State.endJobT_evolves (.refl _)

theorem State.unseal_evolves {s : State} {cmd : Nat} {status : Nat} : Evolves s (s.unseal cmd status) := by
  unfold State.unseal
  dsimp only
  split
  · refine .after State.finishId_evolves ?_
    split
    · refine .after State.releaseObject_evolves ?_
      with_reducible refine .upd rfl rfl rfl rfl rfl rfl rfl rfl rfl rfl rfl rfl ?_
      exact .refl _
    · with_reducible refine .upd rfl rfl rfl rfl rfl rfl rfl rfl rfl rfl rfl rfl ?_
      exact .refl _
  · exact .refl _

theorem State.failJob_evolves {s : State} {j : TJob} {a : Ans} : Evolves s (s.failJob j a) := by
  unfold State.failJob
  exact .ite (.after State.unseal_evolves (.refl _)) (.after State.doneJob_evolves (.refl _))

theorem State.commitJob_evolves {s : State} {j : TJob} : Evolves s (s.commitJob j) := by
  unfold State.commitJob
  exact .ite (.refl _) (.after State.commitCmd_evolves (.refl _))

theorem State.insertCycle_evolves {s : State} {j : TJob} {x : Table} {e : TEntry} {moves : Nat} : Evolves s (s.insertCycle j x e moves) := by
  unfold State.insertCycle
  dsimp only
  split
  · exact .after State.doneJob_evolves (.refl _)
  · split
    · exact .after State.failJob_evolves (.refl _)
    · exact .after State.doneJob_evolves (.after State.setTable_evolves (.refl _))
    · exact .after State.setOp_evolves (.after State.bump_evolves (.after State.setTable_evolves (.refl _)))

theorem State.updateCycle_evolves {s : State} {j : TJob} {x : Table} {stage : Nat} {old : Nat} {e : TEntry} {slot : Nat} : Evolves s (s.updateCycle j x stage old e slot) := by
  unfold State.updateCycle
  dsimp only
  refine .ite ?_ (.ite (.after State.setOp_evolves (.refl _)) (.after State.doneJob_evolves (.after State.setTable_evolves (.refl _))))
  split
  · exact .after State.failJob_evolves (.refl _)
  · exact .ite (.after State.failJob_evolves (.refl _)) (.after State.setOp_evolves (.after State.commitJob_evolves (.after State.setTable_evolves (.refl _))))

theorem State.writeCycle_evolves {s : State} {j : TJob} : Evolves s (s.writeCycle j) := by
  unfold State.writeCycle
  dsimp only
  refine .ite (.after State.failJob_evolves (.refl _)) ?_
  split
  · exact .after State.insertCycle_evolves (.refl _)
  · exact .after State.updateCycle_evolves (.refl _)
  · split
    · exact .after State.doneJob_evolves (.after State.setTable_evolves (.refl _))
    · exact .after State.doneJob_evolves (.refl _)
  · exact .after State.doneJob_evolves (.after State.setTable_evolves (.refl _))
  · exact .after State.doneJob_evolves (.after State.setTable_evolves (.refl _))
  · exact .after State.doneJob_evolves (.after State.setTable_evolves (.refl _))

theorem execTumblerIdleCycle_evolves {die : Nat} {s : State} : Kept s (execTumblerIdleCycle die s) := by
  unfold execTumblerIdleCycle
  dsimp only
  refine .ite (.next (.refl _)) ?_
  split
  · exact .next (.after State.writeCycle_evolves (.after State.bump_evolves (.refl _)))
  · exact .next (.after State.bump_evolves (.refl _))

theorem execInsertTimeout_evolves {cmd : Nat} {s : State} : Kept s (execInsertTimeout cmd s) := by
  unfold execInsertTimeout
  dsimp only
  split
  · exact .next (.refl _)
  · refine .ite (.next (.refl _)) ?_
    split
    · exact .next (.after State.failJob_evolves (.after State.bump_evolves (.refl _)))
    · exact .ite (.next (.after State.failJob_evolves (.refl _))) (.next (.refl _))
    · exact .next (.after State.failJob_evolves (.refl _))
    · exact .next (.after State.failJob_evolves (.refl _))
    · exact .next (.refl _)
    · exact .next (.refl _)

theorem State.queueJob_evolves {s : State} {cmd : Nat} {table : Nat} {shadow : Bool} {op : TWrite} : Evolves s (s.queueJob cmd table shadow op) := by
  unfold State.queueJob
  dsimp only
  with_reducible refine .upd rfl rfl rfl rfl rfl rfl rfl rfl rfl rfl rfl rfl ?_
  exact .refl _

theorem rowCreateTable_evolves {p : Pkt} {id : Nat} {s : State} (_hv : rowCreateTable.verdict p s = none) : DoneKept s (rowCreateTable.act p id s) := by
  unfold rowCreateTable
  dsimp only
  split
  · exact .done (.refl _)
  · exact .done (.after State.setTable_evolves (.after State.choose_evolves (.refl _)))

theorem execCreateTable_evolves {p : Pkt} {s : State} : Kept s (execCreateTable p s) := by
  unfold execCreateTable
  refine .next (.after (hostCommand_evolves ?_) (.refl _))
  intros
  exact rowCreateTable_evolves ‹_›

theorem rowDestroyTable_evolves {p : Pkt} {id : Nat} {s : State} (_hv : rowDestroyTable.verdict p s = none) : DoneKept s (rowDestroyTable.act p id s) := by
  unfold rowDestroyTable
  dsimp only
  exact .ite (.done (.refl _)) (.wait (.after State.queueJob_evolves (.after State.adopt_evolves (.refl _))))

theorem execDestroyTable_evolves {p : Pkt} {s : State} : Kept s (execDestroyTable p s) := by
  unfold execDestroyTable
  refine .next (.after (hostCommand_evolves ?_) (.refl _))
  intros
  exact rowDestroyTable_evolves ‹_›

theorem rowSwapShadow_evolves {p : Pkt} {id : Nat} {s : State} (_hv : rowSwapShadow.verdict p s = none) : DoneKept s (rowSwapShadow.act p id s) := by
  unfold rowSwapShadow
  dsimp only
  exact .wait (.after State.queueJob_evolves (.after State.adopt_evolves (.refl _)))

theorem execSwapShadow_evolves {p : Pkt} {s : State} : Kept s (execSwapShadow p s) := by
  unfold execSwapShadow
  refine .next (.after (hostCommand_evolves ?_) (.refl _))
  intros
  exact rowSwapShadow_evolves ‹_›

theorem rowInsertEntry_evolves {p : Pkt} {id : Nat} {s : State} (_hv : rowInsertEntry.verdict p s = none) : DoneKept s (rowInsertEntry.act p id s) := by
  unfold rowInsertEntry
  dsimp only
  exact .wait (.after State.queueJob_evolves (.after State.adopt_evolves (.refl _)))

theorem execInsertEntry_evolves {p : Pkt} {s : State} : Kept s (execInsertEntry p s) := by
  unfold execInsertEntry
  refine .next (.after (hostCommand_evolves ?_) (.refl _))
  intros
  exact rowInsertEntry_evolves ‹_›

theorem rowUpdateEntry_evolves {p : Pkt} {id : Nat} {s : State} (_hv : rowUpdateEntry.verdict p s = none) : DoneKept s (rowUpdateEntry.act p id s) := by
  unfold rowUpdateEntry
  dsimp only
  exact .wait (.after State.queueJob_evolves (.after State.adopt_evolves (.refl _)))

theorem execUpdateEntry_evolves {p : Pkt} {s : State} : Kept s (execUpdateEntry p s) := by
  unfold execUpdateEntry
  refine .next (.after (hostCommand_evolves ?_) (.refl _))
  intros
  exact rowUpdateEntry_evolves ‹_›

theorem rowDeleteEntry_evolves {p : Pkt} {id : Nat} {s : State} (_hv : rowDeleteEntry.verdict p s = none) : DoneKept s (rowDeleteEntry.act p id s) := by
  unfold rowDeleteEntry
  dsimp only
  exact .wait (.after State.queueJob_evolves (.after State.adopt_evolves (.refl _)))

theorem execDeleteEntry_evolves {p : Pkt} {s : State} : Kept s (execDeleteEntry p s) := by
  unfold execDeleteEntry
  refine .next (.after (hostCommand_evolves ?_) (.refl _))
  intros
  exact rowDeleteEntry_evolves ‹_›

theorem State.cascSearch_evolves {s : State} {k : Nat} {cmd : Nat} {ctx : Nat} {ix : Nat} {key : Nat} {mask : Nat} : Evolves s (s.cascSearch k cmd ctx ix key mask) := by
  unfold State.cascSearch
  dsimp only
  with_reducible refine .upd rfl rfl rfl rfl rfl rfl rfl rfl rfl rfl rfl rfl ?_
  exact .after State.adopt_evolves (.after State.searchOne_evolves (.refl _))

theorem rowSearch_evolves {p : Pkt} {id : Nat} {s : State} (_hv : rowSearch.verdict p s = none) : DoneKept s (rowSearch.act p id s) := by
  unfold rowSearch
  refine .ite (.ite (.done (.refl _)) (.wait ?_)) (.done (Evolves.foldl_snd (fun r i => ?_) _ (.refl _)))
  · refine .foldl _ ?_ (fun _ _ => ?_)
    · exact .refl _
    · exact .after State.cascSearch_evolves (.refl _)
  · dsimp only
    exact .after State.searchOne_evolves (.refl _)

theorem execSearch_evolves {p : Pkt} {s : State} : Kept s (execSearch p s) := by
  unfold execSearch
  refine .next (.after (hostCommand_evolves ?_) (.refl _))
  intros
  exact rowSearch_evolves ‹_›

theorem State.loseTable_evolves {s : State} {k : Nat} {cause : Nat} : Evolves s (s.loseTable k cause) := by
  unfold State.loseTable
  dsimp only
  refine .ite (.refl _) (.after State.postEvent_evolves (.after State.setTable_evolves (.foldl _ ?_ (fun _ _ => ?_))))
  · exact .refl _
  · exact .after State.failJob_evolves (.refl _)

theorem State.openTo_evolves {s : State} {i : Nat} {node : Nat} {attempt : Nat} : Evolves s (s.openTo i node attempt) := by
  unfold State.openTo
  dsimp only
  split
  · exact .refl _
  · exact .after State.hingeSend_evolves (.after State.setLatch_evolves (.after State.modCtx_evolves (.after State.dropTxns_evolves (.refl _))))

theorem State.attemptFail_evolves {s : State} {i : Nat} {status : Nat} : Evolves s (s.attemptFail i status) := by
  unfold State.attemptFail
  dsimp only
  split
  · exact .refl _
  · refine .ite ?_ ?_
    · refine .after State.endReq_evolves (.foldl _ ?_ (fun _ _ => ?_))
      · exact .after State.adopt_evolves (.after State.modCtx_evolves (.after State.setLatch_evolves (.after State.dropTxns_evolves (.refl _))))
      · exact .after State.adopt_evolves (.refl _)
    · split
      · refine .after State.endReq_evolves (.foldl _ ?_ (fun _ _ => ?_))
        · exact .after State.adopt_evolves (.after State.modCtx_evolves (.after State.setLatch_evolves (.after State.dropTxns_evolves (.refl _))))
        · exact .after State.adopt_evolves (.refl _)
      · refine .after State.openTo_evolves (.after State.postEvent_evolves (.after State.bump_evolves (.after State.modCtx_evolves (.foldl _ ?_ (fun _ _ => ?_)))))
        · exact .after State.adopt_evolves (.after State.modCtx_evolves (.after State.setLatch_evolves (.after State.dropTxns_evolves (.refl _))))
        · exact .after State.adopt_evolves (.refl _)

theorem State.firstAttempt_evolves {s : State} {i : Nat} : Evolves s (s.firstAttempt i) := by
  unfold State.firstAttempt
  dsimp only
  split
  · exact .after State.modCtx_evolves (.refl _)
  · exact .ite (.after State.attemptFail_evolves (.after State.modLatch_evolves (.after State.modCtx_evolves (.refl _)))) (.after State.openTo_evolves (.after State.modLatch_evolves (.after State.modCtx_evolves (.refl _))))

theorem State.writeLines_evolves {s : State} {who : TxnFor} {node : Nat} {cls : Nat} {job : Nat} {off : Nat} {len : Nat} {src : Nat} : Evolves s (s.writeLines who node cls job off len src) := by
  unfold State.writeLines
  dsimp only
  refine .ite (.refl _) (.foldl _ ?_ (fun _ _ => ?_))
  · exact .refl _
  · exact .after State.request_evolves (.refl _)

theorem State.pushRows_evolves {s : State} {i : Nat} {l : Nat} {p : Nat} {q : Nat} : Evolves s (s.pushRows i l p q) := by
  unfold State.pushRows
  dsimp only
  split
  · exact .refl _
  · exact .after State.writeLines_evolves (.after State.modCtx_evolves (.refl _))

theorem State.startPrepare_evolves {s : State} {i : Nat} : Evolves s (s.startPrepare i) := by
  unfold State.startPrepare
  dsimp only
  split
  · exact .refl _
  · exact .after State.hingeSend_evolves (.after State.setLatch_evolves (.refl _))

theorem State.advancePush_evolves {s : State} {i : Nat} : Evolves s (s.advancePush i) := by
  unfold State.advancePush
  dsimp only
  split
  · exact .refl _
  · refine .ite (.refl _) (.ite (.foldl _ ?_ (fun _ _ => ?_)) (.ite (.after State.startPrepare_evolves (.ite (.refl _) (.after State.enter_evolves (.refl _)))) (.refl _)))
    · exact .refl _
    · exact .after State.pushRows_evolves (.refl _)

theorem State.pushAck_evolves {s : State} {i : Nat} : Evolves s (s.pushAck i) := by
  unfold State.pushAck
  dsimp only
  exact .ite (.after State.modCtx_evolves (.refl _)) (.ite (.after State.advancePush_evolves (.after State.modCtx_evolves (.after State.modCtx_evolves (.refl _)))) (.after State.advancePush_evolves (.after State.modCtx_evolves (.after State.modCtx_evolves (.refl _)))))

theorem State.acceptOpening_evolves {s : State} {o : Opening} {moveCmd : Nat} : Evolves s (s.acceptOpening o moveCmd).2 := by
  unfold State.acceptOpening
  dsimp only
  split
  · exact .after State.reclaimFor_evolves (.refl _)
  split
  · exact .after (Evolves.snd ‹State.findRun _ _ _ = _› State.findRun_evolves) (.after State.reclaimFor_evolves (.refl _))
  · split
    · refine .after State.setLatch_evolves (.after State.setRegion_evolves (.after State.takeExts_evolves (.after State.setCtx_evolves ?_)))
      with_reducible refine .upd rfl rfl rfl rfl rfl rfl rfl rfl rfl rfl rfl rfl ?_
      exact .after (State.takeLatch_evolves _ _ ‹_›) (.after (Evolves.snd ‹State.findRun _ _ _ = _› State.findRun_evolves) (.after State.reclaimFor_evolves (.refl _)))
    · exact .after (Evolves.snd ‹State.findRun _ _ _ = _› State.findRun_evolves) (.after State.reclaimFor_evolves (.refl _))

theorem State.backExt_evolves {s : State} {i : Nat} {e : Nat} : Evolves s (s.backExt i e).2 := by
  unfold State.backExt
  split
  · dsimp only
    split
    · exact .after State.charge_evolves (.after State.takeExts_evolves (.after State.reclaimFor_evolves (.refl _)))
    · exact .after State.reclaimFor_evolves (.refl _)
  · exact .refl _

theorem State.commitSource_evolves {s : State} {k : Nat} {i : Nat} {destHandle : Nat} : Evolves s (s.commitSource k i destHandle) := by
  unfold State.commitSource
  dsimp only
  exact .after State.hingeSend_evolves (.after State.finishCtxCmds_evolves (.after State.bump_evolves (.after State.postEvent_evolves (.after State.enter_evolves (.after State.releaseCtx_evolves (.after State.modCtx_evolves (.after State.setLatch_evolves (.after State.freeTwin_evolves (.after State.dropTxns_evolves (.refl _))))))))))

theorem State.commitDest_evolves {s : State} {k : Nat} {i : Nat} {age : Nat} : Evolves s (s.commitDest k i age) := by
  unfold State.commitDest
  dsimp only
  exact .ite (.after State.writeMisses_evolves (.after State.postEvent_evolves (.after State.enter_evolves (.after State.modCtx_evolves (.after State.setLatch_evolves (.after State.dropTxns_evolves (.refl _))))))) (.after State.finishId_evolves (.after State.writeMisses_evolves (.after State.postEvent_evolves (.after State.enter_evolves (.after State.modCtx_evolves (.after State.setLatch_evolves (.after State.dropTxns_evolves (.refl _))))))))

theorem State.backHome_evolves {s : State} {k : Nat} {i : Nat} : Evolves s (s.backHome k i) := by
  unfold State.backHome
  dsimp only
  exact .after State.tryDecode_evolves (.ite (.after State.writeMisses_evolves (.after State.modLatch_evolves (.after State.dropTxns_evolves (.refl _)))) (.after State.modLatch_evolves (.after State.dropTxns_evolves (.refl _))))

theorem State.mirrorRecord_evolves {s : State} {k : Nat} {i : Nat} {m : ReqMoving} {stamp : Nat} : Evolves s (s.mirrorRecord k i m stamp) := by
  unfold State.mirrorRecord
  dsimp only
  exact .after State.request_evolves (.refl _)

theorem State.mirrorCopy_evolves {s : State} {k : Nat} {i : Nat} : Evolves s (s.mirrorCopy k i) := by
  unfold State.mirrorCopy
  dsimp only
  split
  · exact .refl _
  · refine .after State.mirrorRecord_evolves (.foldl _ ?_ (fun _ _ => ?_))
    · exact .refl _
    · refine .ite (.after State.writeLines_evolves (.refl _)) (.ite (.foldl _ ?_ (fun _ _ => ?_)) (.refl _))
      · exact .refl _
      · exact .after State.request_evolves (.refl _)

theorem State.suspendMirror_evolves {s : State} {k : Nat} {i : Nat} : Evolves s (s.suspendMirror k i) := by
  unfold State.suspendMirror
  dsimp only
  exact .ite (.after State.postEvent_evolves (.after State.modCtx_evolves (.after State.setLatch_evolves (.after State.dropTxns_evolves (.refl _))))) (.after State.modCtx_evolves (.after State.setLatch_evolves (.after State.dropTxns_evolves (.refl _))))

theorem State.endMirror_evolves {s : State} {k : Nat} {i : Nat} : Evolves s (s.endMirror k i) := by
  unfold State.endMirror
  dsimp only
  exact .after State.modCtx_evolves (.after State.modLatch_evolves (.after State.dropTxns_evolves (.refl _)))

theorem State.failover_evolves {s : State} {k : Nat} {i : Nat} : Evolves s (s.failover k i) := by
  unfold State.failover
  dsimp only
  refine .ite (.after State.endReq_evolves (.after State.modCtx_evolves (.after State.modCtx_evolves (.after State.setLatch_evolves (.after State.dropTxns_evolves (.refl _)))))) (.ite (.after State.settleDrain_evolves (.after State.pushOut_evolves (.after State.enter_evolves ?_))) ?_)
  all_goals
    refine .foldl _ ?_ (fun _ _ => ?_)
    · exact .after State.writeMisses_evolves (.after State.postEvent_evolves (.after State.enter_evolves (.after State.modCtx_evolves (.after State.setLatch_evolves (.after State.dropTxns_evolves (.refl _))))))
    · exact .after State.pushOut_evolves (.refl _)

theorem State.handTwin_evolves {s : State} {k : Nat} {i : Nat} : Evolves s (s.handTwin k i) := by
  unfold State.handTwin
  dsimp only
  exact .after State.finishCtxCmds_evolves (.after State.enter_evolves (.after State.dropLatch_evolves (.after State.releaseCtx_evolves (.after State.modCtx_evolves (.after State.oneWay_evolves (.after State.dropTxns_evolves (.refl _)))))))

theorem State.compareCopies_evolves {s : State} {k : Nat} {i : Nat} {t : TwinCopy} : Evolves s (s.compareCopies k i t) := by
  unfold State.compareCopies
  dsimp only
  refine .ite (.after State.mirrorCopy_evolves (.after State.postEvent_evolves (.after State.bump_evolves (.refl _)))) (.ite ?_ ?_)
  · refine .after State.mirrorRecord_evolves ?_
    split
    · refine .foldl _ ?_ (fun _ _ => ?_)
      · exact .after State.modCtx_evolves (.after State.modLatch_evolves (.after State.postEvent_evolves (.after State.bump_evolves (.refl _))))
      · split
        · exact .ite (Evolves.snd ‹State.backExt _ _ _ = _› State.backExt_evolves) (.after State.hbmPut_evolves (Evolves.snd ‹State.backExt _ _ _ = _› State.backExt_evolves))
        · exact Evolves.snd ‹State.backExt _ _ _ = _› State.backExt_evolves
    · exact .after State.modCtx_evolves (.after State.modLatch_evolves (.after State.postEvent_evolves (.after State.bump_evolves (.refl _))))
  · refine .ite (.after State.mirrorRecord_evolves (.refl _)) (.after State.endReq_evolves (.after State.postEvent_evolves (.after State.bump_evolves ?_)))
    split
    · exact .after State.setRegion_evolves (.after State.modLatch_evolves (.refl _))
    · exact .after State.modLatch_evolves (.refl _)

theorem State.latchPeerDead_evolves {s : State} {k : Nat} {n : Nat} : Evolves s (s.latchPeerDead k n) := by
  unfold State.latchPeerDead
  dsimp only
  refine .ite (.after State.failover_evolves (.refl _)) (.ite (.ite (.after State.suspendMirror_evolves (.refl _)) (.refl _)) ?_)
  split
  · exact .after State.failDest_evolves (.ite (.after State.suspendMirror_evolves (.refl _)) (.refl _))
  · exact .after State.failDest_evolves (.ite (.after State.suspendMirror_evolves (.refl _)) (.refl _))
  · exact .after State.dropTxns_evolves (.ite (.after State.suspendMirror_evolves (.refl _)) (.refl _))
  · exact .ite (.after State.suspendMirror_evolves (.refl _)) (.refl _)
  · exact .ite (.after State.suspendMirror_evolves (.refl _)) (.refl _)
  · exact .ite (.after State.dropLatch_evolves (.ite (.after State.suspendMirror_evolves (.refl _)) (.refl _))) (.ite (.after State.attemptFail_evolves (.ite (.after State.suspendMirror_evolves (.refl _)) (.refl _))) (.ite (.after State.backHome_evolves (.after State.modLatch_evolves (.ite (.after State.suspendMirror_evolves (.refl _)) (.refl _)))) (.ite (.after State.suspendMirror_evolves (.refl _)) (.refl _))))
  · exact .ite (.after State.backHome_evolves (.ite (.after State.suspendMirror_evolves (.refl _)) (.refl _))) (.after State.attemptFail_evolves (.ite (.after State.suspendMirror_evolves (.refl _)) (.refl _)))

theorem State.hingeDead_evolves {s : State} {n : Nat} : Evolves s (s.hingeDead n) := by
  unfold State.hingeDead
  dsimp only
  refine .foldl _ ?_ (fun _ _ => ?_)
  · refine .foldl _ ?_ (fun _ _ => ?_)
    · exact .refl _
    · exact .after State.latchPeerDead_evolves (.refl _)
  · split
    · exact .ite (.after State.finish_evolves (.after State.dropTxns_evolves (.refl _))) (.refl _)
    · exact .ite (.after State.finish_evolves (.refl _)) (.refl _)
    · exact .refl _

theorem State.answer_evolves {s : State} {h : HHdr} {m : HMsg} : Evolves s (s.answer h m) := by
  unfold State.answer
  exact .ite (.refl _) (.after State.oneWay_evolves (.refl _))

theorem State.redirectFrom_evolves {s : State} {k : Nat} {h : HHdr} : Evolves s (s.redirectFrom k h) := by
  unfold State.redirectFrom
  dsimp only
  exact .after State.answer_evolves (.after State.modLatch_evolves (.refl _))

theorem State.pulled_evolves {s : State} {i : Nat} {rows : Nat} : Evolves s (s.pulled i rows) := by
  unfold State.pulled
  refine .ite (.refl _) ?_
  split
  · exact .refl _
  · exact .after State.hingeSend_evolves (.refl _)

theorem State.startPull_evolves {s : State} {i : Nat} {node : Nat} {rows : Nat} {src : List (Nat × Nat)} : Evolves s (s.startPull i node rows src) := by
  unfold State.startPull
  dsimp only
  refine .after State.pulled_evolves (.foldl _ ?_ (fun _ _ => ?_))
  · exact .after State.modCtx_evolves (.refl _)
  · split
    · exact .after State.request_evolves (.refl _)
    · exact .refl _

theorem State.pullIn_evolves {s : State} {i : Nat} {off : Nat} {data : List Byte} {poison : Bool} : Evolves s (s.pullIn i off data poison) := by
  unfold State.pullIn
  dsimp only
  split
  · exact .refl _
  · refine .ite (.after State.failDest_evolves (.refl _)) ?_
    split
    · exact .after State.failDest_evolves (Evolves.snd ‹State.backExt _ _ _ = _› State.backExt_evolves)
    · exact .after State.pulled_evolves (.after State.putLine_evolves (Evolves.snd ‹State.backExt _ _ _ = _› State.backExt_evolves))

theorem State.onMoveOpening_evolves {s : State} {h : HHdr} {o : Opening} {src : List (Nat × Nat)} {rows : Nat} : Evolves s (s.onMoveOpening h o src rows) := by
  unfold State.onMoveOpening
  dsimp only
  split
  · exact .refl _
  · split
    · exact .after State.finish_evolves (.after State.dropTxns_evolves (.refl _))
    · split
      · exact .after State.finish_evolves (.after State.dropTxns_evolves (.refl _))
      · split
        · exact .after State.finish_evolves (.after (Evolves.snd ‹State.acceptOpening _ _ _ = _› State.acceptOpening_evolves) (.after State.dropTxns_evolves (.refl _)))
        · exact .after State.startPull_evolves (.after State.setWait_evolves (.after (Evolves.snd ‹State.acceptOpening _ _ _ = _› State.acceptOpening_evolves) (.after State.dropTxns_evolves (.refl _))))

theorem State.onOpening_evolves {s : State} {h : HHdr} {o : Opening} {move : Bool} {src : List (Nat × Nat)} {rows : Nat} : Evolves s (s.onOpening h o move src rows) := by
  unfold State.onOpening
  dsimp only
  refine .ite (.after State.onMoveOpening_evolves (.refl _)) ?_
  split
  · exact .after State.answer_evolves (.refl _)
  · split
    · exact .after State.answer_evolves (.refl _)
    · split
      · exact .after State.answer_evolves (Evolves.snd ‹State.acceptOpening _ _ _ = _› State.acceptOpening_evolves)
      · exact .after State.answer_evolves (Evolves.snd ‹State.acceptOpening _ _ _ = _› State.acceptOpening_evolves)

theorem State.onOpeningResponse_evolves {s : State} {h : HHdr} {ok : Bool} {status : Nat} {handle : Nat} {base : Nat} {rows : Nat} : Evolves s (s.onOpeningResponse h ok status handle base rows) := by
  unfold State.onOpeningResponse
  dsimp only
  split
  · exact .refl _
  · exact .ite (.ite (.after State.mirrorCopy_evolves (.after State.setLatch_evolves (.after State.dropTxns_evolves (.refl _)))) (.after State.finishAll_evolves (.after State.setLatch_evolves (.after State.dropTxns_evolves (.refl _))))) (.ite (.ite (.after State.startPrepare_evolves (.after State.setLatch_evolves (.refl _))) (.after State.hingeSend_evolves (.after State.modLatch_evolves (.after State.setLatch_evolves (.refl _))))) (.ite (.refl _) (.ite (.ite (.after State.dropLatch_evolves (.refl _)) (.ite (.after State.hingeSend_evolves (.after State.setLatch_evolves (.after State.dropTxns_evolves (.refl _)))) (.refl _))) (.ite (.ite (.after State.advancePush_evolves (.after State.modCtx_evolves (.after State.setLatch_evolves (.after State.dropTxns_evolves (.refl _))))) (.after State.attemptFail_evolves (.refl _))) (.ite (.after State.answer_evolves (.refl _)) (.refl _))))))

theorem State.onPrepare_evolves {s : State} {h : HHdr} {m : ReqMoving} {age : Nat} {stamp : Nat} {moves : Nat} : Evolves s (s.onPrepare h m age stamp moves) := by
  unfold State.onPrepare
  dsimp only
  split
  · exact .after State.answer_evolves (.refl _)
  · exact .ite (.after State.redirectFrom_evolves (.refl _)) (.ite (.after State.answer_evolves (.after State.setLatch_evolves (.after State.modCtx_evolves (.refl _)))) (.ite (.refl _) (.ite (.after State.answer_evolves (.after State.setLatch_evolves (.after State.modCtx_evolves (.after State.dropTxns_evolves (.refl _))))) (.ite (.after State.answer_evolves (.refl _)) (.refl _)))))

theorem State.onCommit_evolves {s : State} {h : HHdr} {age : Nat} : Evolves s (s.onCommit h age) := by
  unfold State.onCommit
  dsimp only
  split
  · exact .after State.answer_evolves (.refl _)
  · exact .ite (.after State.redirectFrom_evolves (.refl _)) (.ite (.after State.failover_evolves (.refl _)) (.ite (.after State.answer_evolves (.after State.commitDest_evolves (.refl _))) (.ite (.after State.answer_evolves (.refl _)) (.refl _))))

theorem State.dropCopy_evolves {s : State} {k : Nat} {i : Nat} : Evolves s (s.dropCopy k i) := by
  unfold State.dropCopy
  exact .after State.freeCtxAt_evolves (.after State.releaseCtx_evolves (.after State.dropLatch_evolves (.refl _)))

theorem State.onAbandon_evolves {s : State} {h : HHdr} {status : Nat} : Evolves s (s.onAbandon h status) := by
  unfold State.onAbandon
  dsimp only
  split
  · exact .after State.answer_evolves (.refl _)
  · exact .ite (.after State.redirectFrom_evolves (.refl _)) (.ite (.after State.answer_evolves (.after State.dropCopy_evolves (.refl _))) (.ite (.after State.answer_evolves (.after State.failDest_evolves (.refl _))) (.refl _)))

theorem State.twinReady_evolves {s : State} {k : Nat} {i : Nat} : Evolves s (s.twinReady k i) := by
  unfold State.twinReady
  dsimp only
  exact .after State.finishAll_evolves (.after State.modLatch_evolves (.after State.dropTxns_evolves (.refl _)))

theorem State.onReady_evolves {s : State} {h : HHdr} {destHandle : Nat} : Evolves s (s.onReady h destHandle) := by
  unfold State.onReady
  dsimp only
  split
  · exact .after State.answer_evolves (.refl _)
  · refine .ite (.after State.twinReady_evolves (.refl _)) (.ite (.refl _) ?_)
    split
    · exact .after State.commitSource_evolves (.refl _)
    · exact .after State.answer_evolves (.refl _)
    · exact .ite (.refl _) (.after State.answer_evolves (.refl _))
    · exact .refl _
    · exact .refl _
    · exact .refl _
    · exact .refl _

theorem State.onCommitAck_evolves {s : State} {h : HHdr} : Evolves s (s.onCommitAck h) := by
  unfold State.onCommitAck
  split
  · exact .ite (.after State.dropTxns_evolves (.refl _)) (.refl _)
  · exact .refl _

theorem State.onRefuse_evolves {s : State} {h : HHdr} {status : Nat} : Evolves s (s.onRefuse h status) := by
  unfold State.onRefuse
  dsimp only
  refine .ite ?_ ?_
  · split
    · exact .refl _
    · exact .ite (.after State.finish_evolves (.after State.dropTxns_evolves (.refl _))) (.after State.finish_evolves (.after State.dropTxns_evolves (.refl _)))
  · split
    · exact .refl _
    · exact .ite (.after State.finishAll_evolves (.after State.endMirror_evolves (.refl _))) (.ite (.refl _) (.ite (.ite (.after State.backHome_evolves (.refl _)) (.after State.attemptFail_evolves (.refl _))) (.refl _)))

theorem State.onAbandonAck_evolves {s : State} {h : HHdr} : Evolves s (s.onAbandonAck h) := by
  unfold State.onAbandonAck
  dsimp only
  split
  · exact .refl _
  · exact .ite (.after State.finishAll_evolves (.after State.endMirror_evolves (.refl _))) (.ite (.refl _) (.ite (.after State.backHome_evolves (.after State.modLatch_evolves (.refl _))) (.after State.dropLatch_evolves (.refl _))))

theorem State.onWithdraw_evolves {s : State} {h : HHdr} : Evolves s (s.onWithdraw h) := by
  unfold State.onWithdraw
  dsimp only
  split
  · exact .after State.answer_evolves (.refl _)
  · exact .ite (.after State.answer_evolves (.refl _)) (.ite (.after State.hingeSend_evolves (.after State.setLatch_evolves (.after State.dropTxns_evolves (.refl _)))) (.ite (.after State.answer_evolves (.refl _)) (.refl _)))

theorem State.onRedirect_evolves {s : State} {h : HHdr} {node : Nat} {handle : Nat} : Evolves s (s.onRedirect h node handle) := by
  unfold State.onRedirect
  dsimp only
  split
  · exact .refl _
  · split
    · split
      · exact .after State.hingeSend_evolves (.after State.modLatch_evolves (.after State.dropTxn_evolves (.refl _)))
      · exact .after State.modLatch_evolves (.after State.dropTxn_evolves (.refl _))
    · exact .refl _

theorem rowMoveState_evolves {p : Pkt} {id : Nat} {s : State} (_hv : rowMoveState.verdict p s = none) : DoneKept s (rowMoveState.act p id s) := by
  unfold rowMoveState
  dsimp only
  exact .wait (.after State.request_evolves (.after State.adopt_evolves (.refl _)))

theorem execMoveState_evolves {p : Pkt} {s : State} : Kept s (execMoveState p s) := by
  unfold execMoveState
  refine .next (.after (hostCommand_evolves ?_) (.refl _))
  intros
  exact rowMoveState_evolves ‹_›

theorem State.onQuery_evolves {s : State} {h : HHdr} {twin : List TwinCopy} : Evolves s (s.onQuery h twin) := by
  unfold State.onQuery
  dsimp only
  split
  · exact .after State.answer_evolves (.refl _)
  · refine .ite ?_ ?_
    · refine .after State.answer_evolves ?_
      split
      · exact .ite (.after State.compareCopies_evolves (.refl _)) (.refl _)
      · exact .refl _
    · refine .after State.answer_evolves ?_
      split
      · exact .ite (.after State.compareCopies_evolves (.refl _)) (.refl _)
      · exact .refl _

theorem State.withdraw_evolves {s : State} {i : Nat} {later : Bool} : Evolves s (s.withdraw i later) := by
  unfold State.withdraw
  dsimp only
  split
  · exact .ite (.after State.modLatch_evolves (.refl _)) (.after State.hingeSend_evolves (.after State.modLatch_evolves (.after State.dropTxns_evolves (.after State.modLatch_evolves (.refl _)))))
  · exact .refl _

theorem execMoveStateBoundExpiry_evolves {cmd : Nat} {s : State} : Kept s (execMoveStateBoundExpiry cmd s) := by
  unfold execMoveStateBoundExpiry
  split
  · exact .next (.refl _)
  · refine .ite (.next (.refl _)) ?_
    split
    · exact .next (.after State.finish_evolves (.after State.dropTxns_evolves (.refl _)))
    · exact .next (.after State.withdraw_evolves (.refl _))
    · exact .next (.refl _)

theorem rowQueryLatch_evolves {p : Pkt} {id : Nat} {s : State} (_hv : rowQueryLatch.verdict p s = none) : DoneKept s (rowQueryLatch.act p id s) := by
  unfold rowQueryLatch
  dsimp only
  split
  · exact .done (.refl _)
  · exact .done (.refl _)

theorem execQueryLatch_evolves {p : Pkt} {s : State} : Kept s (execQueryLatch p s) := by
  unfold execQueryLatch
  refine .next (.after (hostCommand_evolves ?_) (.refl _))
  intros
  exact rowQueryLatch_evolves ‹_›

theorem rowSetMirror_evolves {p : Pkt} {id : Nat} {s : State} (_hv : rowSetMirror.verdict p s = none) : DoneKept s (rowSetMirror.act p id s) := by
  unfold rowSetMirror
  dsimp only
  split
  · exact .done (.refl _)
  · split
    · exact .done (.refl _)
    · exact .ite (.wait (.after State.request_evolves (.after State.setLatch_evolves (.after State.adopt_evolves (.refl _))))) (.ite (.done (.after State.endMirror_evolves (.after State.adopt_evolves (.refl _)))) (.wait (.after State.request_evolves (.after State.adopt_evolves (.refl _)))))

theorem execSetMirror_evolves {p : Pkt} {s : State} : Kept s (execSetMirror p s) := by
  unfold execSetMirror
  refine .next (.after (hostCommand_evolves ?_) (.refl _))
  intros
  exact rowSetMirror_evolves ‹_›

theorem State.compareAll_evolves {s : State} {twins : List TwinCopy} : Evolves s (s.compareAll twins) := by
  unfold State.compareAll
  dsimp only
  refine .foldl _ ?_ (fun _ _ => ?_)
  · exact .refl _
  · split
    · exact .ite (.after State.compareCopies_evolves (.refl _)) (.refl _)
    · exact .refl _

theorem execMirrorScrub_evolves {twins : List TwinCopy} {s : State} : Kept s (execMirrorScrub twins s) := by
  unfold execMirrorScrub
  dsimp only
  exact .ite (.next (.refl _)) (.ite (.next (.after State.compareAll_evolves (.after State.adopt_evolves (.after State.adopt_evolves (.refl _))))) (.next (.after State.adopt_evolves (.after State.adopt_evolves (.refl _)))))

theorem execTwinLinkFail_evolves {s : State} : Kept s (execTwinLinkFail s) := by
  unfold execTwinLinkFail
  dsimp only
  refine .ite (.next (.refl _)) (.next (.foldl _ ?_ (fun _ _ => ?_)))
  · exact .refl _
  · exact .ite (.after State.suspendMirror_evolves (.refl _)) (.after State.setLatch_evolves (.refl _))

theorem execTwinLinkReturn_evolves {twins : List TwinCopy} {s : State} : Kept s (execTwinLinkReturn twins s) := by
  unfold execTwinLinkReturn
  exact .ite (.next (.after State.compareAll_evolves (.refl _))) (.next (.refl _))

theorem execLayerPushStart_evolves {ctx : Nat} {layer : Nat} {s : State} : Kept s (execLayerPushStart ctx layer s) := by
  unfold execLayerPushStart
  dsimp only
  exact .ite (.next (.refl _)) (.next (.after State.pushRows_evolves (.after State.modCtx_evolves (.refl _))))

theorem execFwdRecordCheck_evolves {s : State} : Kept s (execFwdRecordCheck s) := by
  unfold execFwdRecordCheck
  dsimp only
  refine .ite (.next (.refl _)) (.next (.foldl _ ?_ (fun _ _ => ?_)))
  · exact .after State.adopt_evolves (.after State.adopt_evolves (.refl _))
  · exact .after State.dropLatch_evolves (.refl _)

end Sys2Proof.Machine
end

