-- ==== Sys2Proof/Laws/EvolvesManifest.lean ====
section
/-! SUPPORT. What the operations of Manifest, Prefix, Abandon, Routes, Links, Boot keep (`Laws/Evolves.lean`). -/

namespace Sys2Proof.Machine

theorem State.enrol_evolves {s : State} {b : List Byte} : Evolves s (s.enrol b) := by
  unfold State.enrol
  dsimp only
  split
  · with_reducible refine .upd rfl rfl rfl rfl rfl rfl rfl rfl rfl rfl rfl rfl ?_
    exact .refl _
  · with_reducible refine .upd rfl rfl rfl rfl rfl rfl rfl rfl rfl rfl rfl rfl ?_
    exact .refl _
  · exact .refl _

theorem State.flashManifest_evolves {s : State} {b : List Byte} : Evolves s (s.flashManifest b) := by
  exact .idn (fun h => Mem.writeN_wf (Mem.writeN_wf h _ _) _ _) rfl (Nat.le_refl _) (Nat.le_refl _) (fun _ => ⟨rfl, Nat.le_refl _⟩) id

theorem State.stage_evolves {s : State} {b : List Byte} {enroll : Bool} : Evolves s (s.stage b enroll) := by
  unfold State.stage
  dsimp only
  refine .ite ?_ ?_
  · refine .after State.enrol_evolves ?_
    with_reducible refine .upd rfl rfl rfl rfl rfl rfl rfl rfl rfl rfl rfl rfl ?_
    exact .refl _
  · with_reducible refine .upd rfl rfl rfl rfl rfl rfl rfl rfl rfl rfl rfl rfl ?_
    exact .refl _

theorem State.beginPersist_evolves {s : State} {id : Nat} {b : List Byte} {enroll : Bool} : Evolves s (s.beginPersist id b enroll) := by
  unfold State.beginPersist
  dsimp only
  with_reducible refine .upd rfl rfl rfl rfl rfl rfl rfl rfl rfl rfl rfl rfl ?_
  exact .after State.commitCmd_evolves (.after State.stage_evolves (.refl _))

theorem State.nextPersist_evolves {s : State} : Evolves s s.nextPersist := by
  unfold State.nextPersist
  refine .ite ?_ (.refl _)
  split
  · exact .after State.beginPersist_evolves (.refl _)
  · exact .refl _

theorem rowStageManifest_evolves {p : Pkt} {id : Nat} {s : State} (_hv : rowStageManifest.verdict p s = none) : DoneKept s (rowStageManifest.act p id s) := by
  unfold rowStageManifest
  dsimp only
  exact .ite (.done (.refl _)) (.ite (.done (.after State.stage_evolves (.refl _))) (.ite (.wait (.after State.beginPersist_evolves (.refl _))) (.wait (.refl _))))

theorem execStageManifest_evolves {p : Pkt} {s : State} : Kept s (execStageManifest p s) := by
  unfold execStageManifest
  refine .next (.after (hostCommand_evolves ?_) (.refl _))
  intros
  exact rowStageManifest_evolves ‹_›

theorem execFlashWriteComplete_evolves {s : State} : Kept s (execFlashWriteComplete s) := by
  unfold execFlashWriteComplete
  dsimp only
  refine .ite (.next (.ite ?_ ?_)) (.next (.refl _))
  · with_reducible refine .upd rfl rfl rfl rfl rfl rfl rfl rfl rfl rfl rfl rfl ?_
    split
    · refine .after State.finish_evolves (.after State.setLevel_evolves ?_)
      split
      · refine .after State.finish_evolves (.after State.flashManifest_evolves ?_)
        with_reducible refine .upd rfl rfl rfl rfl rfl rfl rfl rfl rfl rfl rfl rfl ?_
        exact .refl _
      · with_reducible refine .upd rfl rfl rfl rfl rfl rfl rfl rfl rfl rfl rfl rfl ?_
        exact .refl _
    · split
      · refine .after State.finish_evolves (.after State.flashManifest_evolves ?_)
        with_reducible refine .upd rfl rfl rfl rfl rfl rfl rfl rfl rfl rfl rfl rfl ?_
        exact .refl _
      · with_reducible refine .upd rfl rfl rfl rfl rfl rfl rfl rfl rfl rfl rfl rfl ?_
        exact .refl _
  · refine .after State.nextPersist_evolves ?_
    split
    · refine .after State.finish_evolves (.after State.setLevel_evolves ?_)
      split
      · refine .after State.finish_evolves (.after State.flashManifest_evolves ?_)
        with_reducible refine .upd rfl rfl rfl rfl rfl rfl rfl rfl rfl rfl rfl rfl ?_
        exact .refl _
      · with_reducible refine .upd rfl rfl rfl rfl rfl rfl rfl rfl rfl rfl rfl rfl ?_
        exact .refl _
    · split
      · refine .after State.finish_evolves (.after State.flashManifest_evolves ?_)
        with_reducible refine .upd rfl rfl rfl rfl rfl rfl rfl rfl rfl rfl rfl rfl ?_
        exact .refl _
      · with_reducible refine .upd rfl rfl rfl rfl rfl rfl rfl rfl rfl rfl rfl rfl ?_
        exact .refl _

theorem execFlashReq_evolves {s : State} : Kept s (execFlashReq s) := by
  unfold execFlashReq
  dsimp only
  refine .ite (.next ?_) (.next (.refl _))
  with_reducible refine .upd rfl rfl rfl rfl rfl rfl rfl rfl rfl rfl rfl rfl ?_
  exact .refl _

theorem execFlashRelease_evolves {s : State} : Kept s (execFlashRelease s) := by
  unfold execFlashRelease
  dsimp only
  refine .ite (.next (.ite ?_ ?_)) (.next (.refl _))
  · refine .after State.nextPersist_evolves ?_
    with_reducible refine .upd rfl rfl rfl rfl rfl rfl rfl rfl rfl rfl rfl rfl ?_
    exact .refl _
  · with_reducible refine .upd rfl rfl rfl rfl rfl rfl rfl rfl rfl rfl rfl rfl ?_
    exact .refl _

theorem State.searchBlocks_evolves {s : State} {k : Nat} {a : List (Nat × Nat)} : Evolves s (s.searchBlocks k a).2 := by
  induction a generalizing s with
  | nil => exact .refl _
  | cons e es ih =>
    unfold State.searchBlocks
    split
    · dsimp only
      exact .after (Evolves.snd ‹State.searchOne _ _ _ _ _ = _› State.searchOne_evolves) (.refl _)
    · refine .after ih ?_
      exact .after (Evolves.snd ‹State.searchOne _ _ _ _ _ = _› State.searchOne_evolves) (.refl _)

theorem State.prefixFound_evolves {s : State} {i : Nat} {r : Option (Nat × Nat)} : Evolves s (s.prefixFound i r) := by
  unfold State.prefixFound
  dsimp only
  refine .after State.firstAttempt_evolves ?_
  split
  · refine .after State.modCtx_evolves ?_
    split
    · with_reducible refine .upd rfl rfl rfl rfl rfl rfl rfl rfl rfl rfl rfl rfl ?_
      exact .refl _
    · exact .refl _
  · exact .after State.modCtx_evolves (.refl _)

theorem State.cascLookup_evolves {s : State} {i : Nat} {a : List (Nat × Nat)} : Evolves s (s.cascLookup i a) := by
  unfold State.cascLookup
  split
  · exact .after State.prefixFound_evolves (.refl _)
  · split
    · exact .ite (.after State.prefixFound_evolves (.refl _)) (.after State.cascSearch_evolves (.refl _))
    · exact .after State.prefixFound_evolves (.refl _)

theorem execPrefixLookup_evolves {ctx : Nat} {s : State} : Kept s (execPrefixLookup ctx s) := by
  unfold execPrefixLookup
  dsimp only
  refine .ite (.next (.refl _)) ?_
  split
  · exact .next (.after State.prefixFound_evolves (.after State.modCtx_evolves (.after State.adopt_evolves (.refl _))))
  · exact .ite (.next (.after State.cascLookup_evolves (.after State.modCtx_evolves (.after State.adopt_evolves (.refl _))))) (.next (.after State.prefixFound_evolves (.after State.searchBlocks_evolves (.after State.modCtx_evolves (.after State.adopt_evolves (.refl _))))))

theorem execPrefixFetchComplete_evolves {ctx : Nat} {ok : Bool} {obj : Option ObjFetch} {s : State} : Kept s (execPrefixFetchComplete ctx ok obj s) := by
  unfold execPrefixFetchComplete
  dsimp only
  refine .ite (.next (.refl _)) ?_
  split
  · refine .next (.after State.advancePush_evolves (.after State.modCtx_evolves (.foldl _ ?_ (fun _ _ => ?_))))
    · exact .refl _
    · exact .after State.hbmWrite_evolves (.refl _)
  · exact .next (.after State.advancePush_evolves (.after State.bump_evolves (.after State.modCtx_evolves (.refl _))))

theorem rowFetchPrefix_evolves {p : Pkt} {id : Nat} {s : State} (_hv : rowFetchPrefix.verdict p s = none) : DoneKept s (rowFetchPrefix.act p id s) := by
  unfold rowFetchPrefix
  dsimp only
  exact .wait (.after State.adopt_evolves (.refl _))

theorem execFetchPrefix_evolves {p : Pkt} {s : State} : Kept s (execFetchPrefix p s) := by
  unfold execFetchPrefix
  refine .next (.after (hostCommand_evolves ?_) (.refl _))
  intros
  exact rowFetchPrefix_evolves ‹_›

theorem State.fetched_evolves {s : State} {f : Inflight} {id : Nat} {tenant : Nat} {obj : Option ObjFetch} : Evolves s (s.fetched f id tenant obj) := by
  unfold State.fetched
  dsimp only
  split
  · exact .after State.finish_evolves (.refl _)
  · refine .ite (.after State.finish_evolves (.after State.reclaimFor_evolves (.refl _))) (.ite (.after State.finish_evolves (.after State.reclaimFor_evolves (.refl _))) (.ite (.after State.finish_evolves (.after State.reclaimFor_evolves (.refl _))) ?_))
    split
    · exact .after State.finish_evolves (.after (Evolves.snd ‹State.findRun _ _ _ = _› State.findRun_evolves) (.after State.reclaimFor_evolves (.refl _)))
    · refine .after State.finish_evolves ?_
      with_reducible refine .upd rfl rfl rfl rfl rfl rfl rfl rfl rfl rfl rfl rfl ?_
      exact .after State.hbmWrite_evolves (.after State.charge_evolves (.after State.takeExts_evolves (.after (Evolves.snd ‹State.findRun _ _ _ = _› State.findRun_evolves) (.after State.reclaimFor_evolves (.refl _)))))

theorem actSeal_evolves {p : Pkt} {_id : Nat} {s : State} : DoneKept s (actSeal p _id s) := by
  unfold actSeal
  dsimp only
  split
  · split
    · exact .done (.after (Evolves.snd ‹State.findRun _ _ _ = _› State.findRun_evolves) (.after State.reclaimFor_evolves (.refl _)))
    · refine .wait ?_
      with_reducible refine .upd rfl rfl rfl rfl rfl rfl rfl rfl rfl rfl rfl rfl ?_
      exact .after State.charge_evolves (.after State.takeExts_evolves (.after (Evolves.snd ‹State.findRun _ _ _ = _› State.findRun_evolves) (.after State.reclaimFor_evolves (.refl _))))
  · exact .done (.refl _)

theorem rowSealPrefix_evolves {p : Pkt} {id : Nat} {s : State} (_hv : rowSealPrefix.verdict p s = none) : DoneKept s (rowSealPrefix.act p id s) := by
  unfold rowSealPrefix
  dsimp only
  exact .after actSeal_evolves (.after State.adopt_evolves (.refl _))

theorem execSealPrefix_evolves {p : Pkt} {s : State} : Kept s (execSealPrefix p s) := by
  unfold execSealPrefix
  refine .next (.after (hostCommand_evolves ?_) (.refl _))
  intros
  exact rowSealPrefix_evolves ‹_›

theorem State.sealCopied_evolves {s : State} {f : Inflight} {i : Nat} {n : Nat} {obj : Nat} {first : Nat} : Evolves s (s.sealCopied f i n obj first) := by
  unfold State.sealCopied
  dsimp only
  refine .ite (.after State.unseal_evolves (.refl _)) ?_
  split
  · with_reducible refine .upd rfl rfl rfl rfl rfl rfl rfl rfl rfl rfl rfl rfl ?_
    refine .after State.adopt_evolves (.foldl _ ?_ (fun _ _ => ?_))
    · exact .refl _
    · exact .after State.hbmWrite_evolves (.refl _)
  · exact .after State.unseal_evolves (.refl _)

theorem execObjectCopyComplete_evolves {op : Nat} {obj : Option ObjFetch} {s : State} : Kept s (execObjectCopyComplete op obj s) := by
  unfold execObjectCopyComplete
  dsimp only
  split
  · exact .next (.refl _)
  · refine .ite (.next (.refl _)) ?_
    split
    · exact .next (.after State.finish_evolves (.after State.copyDone_evolves (.refl _)))
    · exact .next (.after State.fetched_evolves (.refl _))
    · exact .ite (.next (.after State.sealCopied_evolves (.refl _))) (.next (.refl _))
    · exact .next (.refl _)

theorem State.cascRecord_evolves {s : State} {cmd : Nat} {ix : Nat} {rec_ : List Byte} : Evolves s (s.cascRecord cmd ix rec_) := by
  unfold State.cascRecord
  dsimp only
  split
  · exact .ite (.after State.setWait_evolves (.refl _)) (.after State.finishId_evolves (.refl _))
  · exact .refl _

theorem State.cascDone_evolves {s : State} {o : CascOut} {hit : Option (Nat × TEntry)} {pos : Nat} {late : Bool} : Evolves s (s.cascDone o hit pos late) := by
  unfold State.cascDone
  dsimp only
  refine .ite ?_ ?_
  · refine .after State.cascRecord_evolves ?_
    with_reducible refine .upd rfl rfl rfl rfl rfl rfl rfl rfl rfl rfl rfl rfl ?_
    exact .refl _
  · refine .ite ?_ ?_
    · refine .ite ?_ ?_
      · with_reducible refine .upd rfl rfl rfl rfl rfl rfl rfl rfl rfl rfl rfl rfl ?_
        exact .refl _
      · split
        · refine .after State.prefixFound_evolves ?_
          with_reducible refine .upd rfl rfl rfl rfl rfl rfl rfl rfl rfl rfl rfl rfl ?_
          exact .refl _
        · refine .ite ?_ ?_
          · refine .after State.prefixFound_evolves ?_
            with_reducible refine .upd rfl rfl rfl rfl rfl rfl rfl rfl rfl rfl rfl rfl ?_
            exact .refl _
          · refine .after State.cascLookup_evolves ?_
            with_reducible refine .upd rfl rfl rfl rfl rfl rfl rfl rfl rfl rfl rfl rfl ?_
            exact .refl _
    · with_reducible refine .upd rfl rfl rfl rfl rfl rfl rfl rfl rfl rfl rfl rfl ?_
      exact .refl _

theorem execCascadeToken_evolves {tok : BitVec 512} {crcOk : Bool} {s : State} : Kept s (execCascadeToken tok crcOk s) := by
  unfold execCascadeToken
  dsimp only
  refine .ite (.next (.refl _)) (.ite ?_ ?_)
  · split
    · exact .next (.refl _)
    · refine .next (.after State.cascDone_evolves ?_)
      with_reducible refine .upd rfl rfl rfl rfl rfl rfl rfl rfl rfl rfl rfl rfl ?_
      exact .refl _
  · refine .next ?_
    with_reducible refine .upd rfl rfl rfl rfl rfl rfl rfl rfl rfl rfl rfl rfl ?_
    split
    · exact .after State.searchOne_evolves (.refl _)
    · dsimp only
      exact .refl _

theorem execCascadeTimeout_evolves {seq : Nat} {s : State} : Kept s (execCascadeTimeout seq s) := by
  unfold execCascadeTimeout
  dsimp only
  split
  · exact .next (.refl _)
  · refine .ite (.next (.refl _)) (.ite (.next (.after State.cascDone_evolves (.refl _))) (.next (.after State.cascDone_evolves (.ite ?_ ?_))))
    · refine .after State.postEvent_evolves ?_
      with_reducible refine .upd rfl rfl rfl rfl rfl rfl rfl rfl rfl rfl rfl rfl ?_
      exact .after State.bump_evolves (.refl _)
    · with_reducible refine .upd rfl rfl rfl rfl rfl rfl rfl rfl rfl rfl rfl rfl ?_
      exact .after State.bump_evolves (.refl _)

theorem execCascadeProbeTimer_evolves {s : State} : Kept s (execCascadeProbeTimer s) := by
  unfold execCascadeProbeTimer
  dsimp only
  refine .ite (.next ?_) (.next (.refl _))
  with_reducible refine .upd rfl rfl rfl rfl rfl rfl rfl rfl rfl rfl rfl rfl ?_
  refine .after State.adopt_evolves ?_
  with_reducible refine .upd rfl rfl rfl rfl rfl rfl rfl rfl rfl rfl rfl rfl ?_
  exact .refl _

theorem State.dropMirror_evolves {s : State} {i : Nat} : Evolves s (s.dropMirror i) := by
  unfold State.dropMirror
  split
  · exact .after State.endMirror_evolves (.after State.freeTwin_evolves (.refl _))
  · exact .refl _

theorem State.dropPause_evolves {s : State} {f : Inflight} {i : Nat} : Evolves s (s.dropPause f i) := by
  unfold State.dropPause
  dsimp only
  exact .after State.modCtx_evolves (.refl _)

theorem State.abandonCmd_evolves {s : State} {f : Inflight} {status : Nat} {later : optParam Bool false} : Evolves s (s.abandonCmd f status later) := by
  unfold State.abandonCmd
  dsimp only
  split
  · exact .after State.failFill_evolves (.refl _)
  · exact .after State.finish_evolves (.after State.dropPause_evolves (.refl _))
  · exact .after State.finish_evolves (.after State.dropMirror_evolves (.refl _))
  · exact .after State.finish_evolves (.after State.dropTxns_evolves (.refl _))
  · exact .after State.withdraw_evolves (.refl _)
  · exact .after State.unseal_evolves (.refl _)
  · split
    · exact .after State.failJob_evolves (.refl _)
    · exact .after State.finish_evolves (.refl _)
  · exact .after State.finish_evolves (.after State.dropTxns_evolves (.refl _))

theorem State.abandonAll_evolves {s : State} {fs : List Inflight} {status : Nat} {later : Bool} : Evolves s (s.abandonAll fs status later) := by
  unfold State.abandonAll
  refine .foldl _ ?_ (fun _ _ => ?_)
  · exact .refl _
  · exact .ite (.after State.abandonCmd_evolves (.refl _)) (.refl _)

theorem execCommandTimeout_evolves {cmd : Nat} {s : State} : Kept s (execCommandTimeout cmd s) := by
  unfold execCommandTimeout
  dsimp only
  split
  · exact .next (.refl _)
  · exact .ite (.next (.after State.abandonCmd_evolves (.refl _))) (.next (.refl _))

theorem State.buildRoutes_evolves {s : State} : Evolves s s.buildRoutes := by
  unfold State.buildRoutes
  dsimp only
  with_reducible refine .upd rfl rfl rfl rfl rfl rfl rfl rfl rfl rfl rfl rfl ?_
  exact .refl _

theorem State.addLink_evolves {s : State} {l : Nat} : Evolves s (s.addLink l) := by
  unfold State.addLink
  dsimp only
  with_reducible refine .upd rfl rfl rfl rfl rfl rfl rfl rfl rfl rfl rfl rfl ?_
  exact .after State.modNode_evolves (.refl _)

theorem State.reroute_evolves {s : State} {l : Nat} : Evolves s (s.reroute l) := by
  unfold State.reroute
  dsimp only
  with_reducible refine .upd rfl rfl rfl rfl rfl rfl rfl rfl rfl rfl rfl rfl ?_
  exact .refl _

theorem State.sendIdent_evolves {s : State} {l : Nat} : Evolves s (s.sendIdent l) := by
  unfold State.sendIdent
  exact .after State.modLink_evolves (.refl _)

theorem State.reholds_evolves {s : State} {l : Nat} : Evolves s (s.reholds l) := by
  unfold State.reholds
  dsimp only
  refine .foldl _ ?_ (fun _ _ => ?_)
  · exact .after State.modLink_evolves (.refl _)
  · exact .after State.sendPkt_evolves (.refl _)

theorem State.clearPort_evolves {s : State} {l : Nat} : Evolves s (s.clearPort l) := by
  unfold State.clearPort
  exact .after State.reholds_evolves (.after State.modLink_evolves (.refl _))

theorem State.settleModule_evolves {s : State} : Evolves s s.settleModule := by
  unfold State.settleModule
  dsimp only
  refine .ite (.after State.finishAll_evolves (.after State.postEvent_evolves ?_)) (.refl _)
  with_reducible refine .upd rfl rfl rfl rfl rfl rfl rfl rfl rfl rfl rfl rfl ?_
  exact .refl _

theorem State.portTo_evolves {s : State} {l : Nat} {st : PortSt} : Evolves s (s.portTo l st) := by
  unfold State.portTo
  dsimp only
  exact .ite (.after State.finishAll_evolves (.after State.finishAll_evolves (.after State.settleModule_evolves (.after State.setPort_evolves (.refl _))))) (.after State.settleModule_evolves (.after State.setPort_evolves (.refl _)))

theorem State.trainFrom_evolves {s : State} {l : Nat} : Evolves s (s.trainFrom l) := by
  unfold State.trainFrom
  exact .after State.portTo_evolves (.after State.modLink_evolves (.refl _))

theorem State.retrain_evolves {s : State} {l : Nat} {back : PortSt} : Evolves s (s.retrain l back) := by
  unfold State.retrain
  exact .after State.reholds_evolves (.after State.portTo_evolves (.after State.modLink_evolves (.refl _)))

theorem State.failPort_evolves {s : State} {l : Nat} : Evolves s (s.failPort l) := by
  unfold State.failPort
  exact .after State.clearPort_evolves (.after State.portTo_evolves (.refl _))

theorem execPeerDetected_evolves {l : Nat} {s : State} : Kept s (execPeerDetected l s) := by
  unfold execPeerDetected
  exact .ite (.next (.after State.trainFrom_evolves (.refl _))) (.next (.refl _))

theorem execLinkTrained_evolves {l : Nat} {s : State} : Kept s (execLinkTrained l s) := by
  unfold execLinkTrained
  dsimp only
  refine .ite (.ite (.next (.after State.mgmtOn_evolves ?_)) (.next (.after State.sendIdent_evolves (.after State.portTo_evolves (.after State.setLink_evolves (.refl _)))))) (.next (.refl _))
  with_reducible refine .upd rfl rfl rfl rfl rfl rfl rfl rfl rfl rfl rfl rfl ?_
  exact .after State.sendIdent_evolves (.after State.portTo_evolves (.after State.setLink_evolves (.refl _)))

theorem State.gotIdent_evolves {s : State} {l : Nat} {m : Ident} : Evolves s (s.gotIdent l m) := by
  unfold State.gotIdent
  dsimp only
  exact .ite (.ite (.after State.addLink_evolves (.after State.portTo_evolves (.after State.setLink_evolves (.refl _)))) (.after State.finishAll_evolves (.after State.finishAll_evolves (.after State.setLink_evolves (.refl _))))) (.after State.setLink_evolves (.refl _))

theorem execIdent_evolves {l : Nat} {m : Ident} {s : State} : Kept s (execIdent l m s) := by
  unfold execIdent
  exact .ite (.next (.after State.gotIdent_evolves (.refl _))) (.next (.refl _))

theorem State.replay_evolves {s : State} {l : Nat} : Evolves s (s.replay l) := by
  unfold State.replay
  dsimp only
  exact .ite (.after State.retrain_evolves (.after State.adopt_evolves (.after State.adopt_evolves (.refl _)))) (.after State.setLink_evolves (.after State.adopt_evolves (.after State.adopt_evolves (.refl _))))

theorem State.acceptFlit_evolves {s : State} {l : Nat} {f : Flit} : Evolves s (s.acceptFlit l f) := by
  unfold State.acceptFlit
  dsimp only
  exact .after State.setLink_evolves (.after State.adopt_evolves (.refl _))

theorem State.flitBody_evolves {s : State} {l : Nat} {f : Flit} : Evolves s (s.flitBody l f) := by
  unfold State.flitBody
  dsimp only
  refine .ite ?_ (.ite (.refl _) (.ite (.after State.acceptFlit_evolves (.refl _)) (.ite (.refl _) (.ite (.refl _) (.after State.setLink_evolves (.refl _))))))
  split
  · exact .after State.gotIdent_evolves (.after State.setLink_evolves (.refl _))
  · exact .after State.setLink_evolves (.refl _)

theorem execFlitReceive_evolves {l : Nat} {f : Flit} {symErrs : List Nat} {s : State} : Kept s (execFlitReceive l f symErrs s) := by
  unfold execFlitReceive
  dsimp only
  exact .ite (.ite (.next (.after State.setLink_evolves (.refl _))) (.next (.after State.flitBody_evolves (.ite (.after State.replay_evolves (.after State.setLink_evolves (.refl _))) (.after State.setLink_evolves (.refl _)))))) (.next (.refl _))

theorem execReplayTimerExpiry_evolves {l : Nat} {s : State} : Kept s (execReplayTimerExpiry l s) := by
  unfold execReplayTimerExpiry
  dsimp only
  exact .ite (.next (.after State.replay_evolves (.refl _))) (.next (.refl _))

theorem execLaneSignalLoss_evolves {l : Nat} {lane : Nat} {s : State} : Kept s (execLaneSignalLoss l lane s) := by
  unfold execLaneSignalLoss
  exact .ite (.next (.after State.retrain_evolves (.refl _))) (.next (.refl _))

theorem execRetrainComplete_evolves {l : Nat} {s : State} : Kept s (execRetrainComplete l s) := by
  unfold execRetrainComplete
  dsimp only
  exact .ite (.next (.ite (.after State.reroute_evolves (.after State.modLink_evolves (.after State.sendIdent_evolves (.after State.portTo_evolves (.after State.setLink_evolves (.refl _)))))) (.after State.modLink_evolves (.after State.sendIdent_evolves (.after State.portTo_evolves (.after State.setLink_evolves (.refl _))))))) (.next (.refl _))

theorem execRetrainTimeout_evolves {l : Nat} {s : State} : Kept s (execRetrainTimeout l s) := by
  unfold execRetrainTimeout
  dsimp only
  exact .ite (.ite (.next (.after State.failPort_evolves (.after State.setLink_evolves (.after State.adopt_evolves (.refl _))))) (.next (.after State.retrain_evolves (.after State.setLink_evolves (.after State.adopt_evolves (.refl _)))))) (.next (.refl _))

theorem State.drainPort_evolves {s : State} {l : Nat} {goal : PortSt} : Evolves s (s.drainPort l goal) := by
  unfold State.drainPort
  dsimp only
  exact .ite (.after State.modLink_evolves (.after State.modLink_evolves (.refl _))) (.after State.reholds_evolves (.after State.portTo_evolves (.after State.modLink_evolves (.refl _))))

theorem State.clearQueues_evolves {s : State} {l : Nat} : Evolves s (s.clearQueues l) := by
  unfold State.clearQueues
  exact .after State.reholds_evolves (.after State.modLink_evolves (.refl _))

theorem State.endDrain_evolves {s : State} {l : Nat} : Evolves s (s.endDrain l) := by
  unfold State.endDrain
  split
  · exact .after State.retrain_evolves (.after State.clearQueues_evolves (.refl _))
  · exact .after State.portTo_evolves (.after State.clearPort_evolves (.refl _))
  · exact .after State.portTo_evolves (.after State.clearQueues_evolves (.refl _))

theorem execPortDrainEnd_evolves {l : Nat} {s : State} : Kept s (execPortDrainEnd l s) := by
  unfold execPortDrainEnd
  dsimp only
  exact .ite (.next (.after State.endDrain_evolves (.refl _))) (.next (.refl _))

theorem State.disablePort_evolves {s : State} {l : Nat} : Evolves s (s.disablePort l) := by
  unfold State.disablePort
  dsimp only
  exact .ite (.after State.drainPort_evolves (.refl _)) (.after State.clearPort_evolves (.after State.portTo_evolves (.refl _)))

theorem portWait_evolves {l : Nat} {s : State} : DoneKept s (portWait l s) := by
  unfold portWait
  dsimp only
  exact .ite (.wait (.refl _)) (.done (.refl _))

theorem rowPortEnable_evolves {p : Pkt} {id : Nat} {s : State} (_hv : rowPortEnable.verdict p s = none) : DoneKept s (rowPortEnable.act p id s) := by
  unfold rowPortEnable portRow
  dsimp only
  exact .ite (.after portWait_evolves (.after State.trainFrom_evolves (.refl _))) (.done (.refl _))

theorem execPortEnable_evolves {p : Pkt} {s : State} : Kept s (execPortEnable p s) := by
  unfold execPortEnable
  refine .next (.after (hostCommand_evolves ?_) (.refl _))
  intros
  exact rowPortEnable_evolves ‹_›

theorem rowPortDisable_evolves {p : Pkt} {id : Nat} {s : State} (_hv : rowPortDisable.verdict p s = none) : DoneKept s (rowPortDisable.act p id s) := by
  unfold rowPortDisable portRow
  dsimp only
  exact .ite (.done (.refl _)) (.after portWait_evolves (.after State.disablePort_evolves (.refl _)))

theorem execPortDisable_evolves {p : Pkt} {s : State} : Kept s (execPortDisable p s) := by
  unfold execPortDisable
  refine .next (.after (hostCommand_evolves ?_) (.refl _))
  intros
  exact rowPortDisable_evolves ‹_›

theorem rowPortRetrain_evolves {p : Pkt} {id : Nat} {s : State} (_hv : rowPortRetrain.verdict p s = none) : DoneKept s (rowPortRetrain.act p id s) := by
  unfold rowPortRetrain portRow
  dsimp only
  exact .after portWait_evolves (.ite (.after State.drainPort_evolves (.refl _)) (.after State.retrain_evolves (.refl _)))

theorem execPortRetrain_evolves {p : Pkt} {s : State} : Kept s (execPortRetrain p s) := by
  unfold execPortRetrain
  refine .next (.after (hostCommand_evolves ?_) (.refl _))
  intros
  exact rowPortRetrain_evolves ‹_›

theorem rowPortDrain_evolves {p : Pkt} {id : Nat} {s : State} (_hv : rowPortDrain.verdict p s = none) : DoneKept s (rowPortDrain.act p id s) := by
  unfold rowPortDrain portRow
  dsimp only
  exact .ite (.done (.refl _)) (.after portWait_evolves (.after State.drainPort_evolves (.refl _)))

theorem execPortDrain_evolves {p : Pkt} {s : State} : Kept s (execPortDrain p s) := by
  unfold execPortDrain
  refine .next (.after (hostCommand_evolves ?_) (.refl _))
  intros
  exact rowPortDrain_evolves ‹_›

theorem State.restorePort_evolves {s : State} {l : Nat} : Evolves s (s.restorePort l) := by
  unfold State.restorePort
  exact .ite (.after State.addLink_evolves (.after State.portTo_evolves (.refl _))) (.after State.portTo_evolves (.refl _))

theorem rowPortRestore_evolves {p : Pkt} {id : Nat} {s : State} (_hv : rowPortRestore.verdict p s = none) : DoneKept s (rowPortRestore.act p id s) := by
  unfold rowPortRestore portRow
  dsimp only
  exact .after portWait_evolves (.after State.restorePort_evolves (.refl _))

theorem execPortRestore_evolves {p : Pkt} {s : State} : Kept s (execPortRestore p s) := by
  unfold execPortRestore
  refine .next (.after (hostCommand_evolves ?_) (.refl _))
  intros
  exact rowPortRestore_evolves ‹_›

theorem rowPortStatus_evolves {p : Pkt} {id : Nat} {s : State} (_hv : rowPortStatus.verdict p s = none) : DoneKept s (rowPortStatus.act p id s) := by
  unfold rowPortStatus
  dsimp only
  exact .done (.refl _)

theorem execPortStatus_evolves {p : Pkt} {s : State} : Kept s (execPortStatus p s) := by
  unfold execPortStatus
  refine .next (.after (hostCommand_evolves ?_) (.refl _))
  intros
  exact rowPortStatus_evolves ‹_›

theorem execPacketForward_evolves {l : Nat} {p : FPkt} {s : State} : Kept s (execPacketForward l p s) := by
  unfold execPacketForward
  dsimp only
  refine .ite ?_ (.next (.refl _))
  split
  · exact .ite (.next (.after State.joinQueue_evolves (.after State.takeRx_evolves (.refl _)))) (.next (.refl _))
  · exact .next (.after State.bump_evolves (.after State.takeRx_evolves (.refl _)))

theorem State.endAllReqs_evolves {s : State} : Evolves s s.endAllReqs := by
  unfold State.endAllReqs
  dsimp only
  with_reducible refine .upd rfl rfl rfl rfl rfl rfl rfl rfl rfl rfl rfl rfl ?_
  refine .foldl _ ?_ (fun _ _ => ?_)
  · refine .after State.endReqs_evolves (.foldl _ ?_ (fun _ _ => ?_))
    · exact .refl _
    · exact .after State.dropCopy_evolves (.refl _)
  · exact .after State.freeCtxAt_evolves (.after State.releaseCtx_evolves (.refl _))

theorem State.endAllParts_evolves {s : State} : Evolves s s.endAllParts := by
  unfold State.endAllParts
  dsimp only
  refine .foldl _ ?_ (fun _ _ => ?_)
  · refine .foldl _ ?_ (fun _ _ => ?_)
    · exact .refl _
    · exact .after State.endProg_evolves (.refl _)
  · exact .after State.finishPart_evolves (.after State.modPart_evolves (.refl _))

theorem State.endAllJobExts_evolves {s : State} : Evolves s s.endAllJobExts := by
  unfold State.endAllJobExts
  dsimp only
  refine .after State.settleRevokes_evolves (.foldl _ ?_ (fun _ _ => ?_))
  · refine .foldl _ ?_ (fun _ _ => ?_)
    · refine .foldl _ ?_ (fun _ _ => ?_)
      · exact .refl _
      · split
        · exact .after State.failFill_evolves (.refl _)
        · exact .refl _
    · exact .after State.releaseExt_evolves (.refl _)
  · exact .after State.releaseExt_evolves (.refl _)

theorem State.endAllWaits_evolves {s : State} : Evolves s s.endAllWaits := by
  unfold State.endAllWaits
  exact .after State.finishAll_evolves (.refl _)

theorem State.unmapPorts_evolves {s : State} : Evolves s s.unmapPorts := by
  unfold State.unmapPorts
  dsimp only
  refine .foldl _ ?_ (fun _ _ => ?_)
  · exact .refl _
  · exact .ite (.after State.portTo_evolves (.refl _)) (.ite (.after State.setLink_evolves (.refl _)) (.refl _))

theorem State.roleMode_evolves {s : State} : Evolves s s.roleMode := by
  unfold State.roleMode
  dsimp only
  refine .ite (.refl _) (.ite ?_ (.ite (.after State.capChanged_evolves (.after State.forceMode_evolves (.refl _))) (.after State.forceMode_evolves (.refl _))))
  with_reducible refine .upd rfl rfl rfl rfl rfl rfl rfl rfl rfl rfl rfl rfl ?_
  exact .refl _

theorem State.startBoot_evolves {s : State} {uid : Nat} {no : Nat} : Evolves s (s.startBoot uid no) := by
  unfold State.startBoot
  dsimp only
  refine .foldl _ ?_ (fun _ _ => ?_)
  · refine .after State.roleMode_evolves ?_
    with_reducible refine .upd rfl rfl rfl rfl rfl rfl rfl rfl rfl rfl rfl rfl ?_
    refine .after State.closeSessions_evolves ?_
    with_reducible refine .upd rfl rfl rfl rfl rfl rfl rfl rfl rfl rfl rfl rfl ?_
    refine .after State.endAllWaits_evolves (.after State.endAllJobExts_evolves (.after State.endAllParts_evolves (.after State.endAllReqs_evolves ?_)))
    with_reducible refine .upd rfl rfl rfl rfl rfl rfl rfl rfl rfl rfl rfl rfl ?_
    refine .after State.unmapPorts_evolves (.foldl _ ?_ (fun _ _ => ?_))
    · exact .refl _
    · exact .after State.adopt_evolves (.refl _)
  · exact .ite (.after State.sendIdent_evolves (.refl _)) (.refl _)

theorem State.see_evolves {s : State} {ty : Nat} {origin : Nat} {epoch : Nat} : Evolves s (s.see ty origin epoch) := by
  unfold State.see
  dsimp only
  with_reducible refine .upd rfl rfl rfl rfl rfl rfl rfl rfl rfl rfl rfl rfl ?_
  exact .refl _

theorem State.gotMgmt_evolves {s : State} {l : Nat} {m : MMsg} : Evolves s (s.gotMgmt l m) := by
  unfold State.gotMgmt
  exact .after State.takeRx_evolves (.refl _)

theorem State.initiate_evolves {s : State} : Evolves s s.initiate := by
  unfold State.initiate
  dsimp only
  refine .after State.flood_evolves (.after State.startBoot_evolves (.after State.see_evolves ?_))
  with_reducible refine .upd rfl rfl rfl rfl rfl rfl rfl rfl rfl rfl rfl rfl ?_
  exact .refl _

theorem execBoot_evolves {l : Nat} {uid : Nat} {count : Nat} {epoch : Nat} {s : State} : Kept s (execBoot l uid count epoch s) := by
  unfold execBoot
  dsimp only
  exact .ite (.next (.after State.flood_evolves (.ite (.after State.startBoot_evolves (.after State.see_evolves (.after State.gotMgmt_evolves (.refl _)))) (.after State.see_evolves (.after State.gotMgmt_evolves (.refl _)))))) (.next (.refl _))

theorem rowFabricBoot_evolves {p : Pkt} {id : Nat} {s : State} (_hv : rowFabricBoot.verdict p s = none) : DoneKept s (rowFabricBoot.act p id s) := by
  unfold rowFabricBoot
  dsimp only
  exact .wait (.ite (.after State.initiate_evolves (.refl _)) (.refl _))

theorem execFabricBoot_evolves {p : Pkt} {s : State} : Kept s (execFabricBoot p s) := by
  unfold execFabricBoot
  refine .next (.after (hostCommand_evolves ?_) (.refl _))
  intros
  exact rowFabricBoot_evolves ‹_›

theorem State.keepTable_evolves {s : State} {t : SliceTab} : Evolves s (s.keepTable t) := by
  unfold State.keepTable
  dsimp only
  with_reducible refine .upd rfl rfl rfl rfl rfl rfl rfl rfl rfl rfl rfl rfl ?_
  exact .refl _

theorem State.floodOwn_evolves {s : State} : Evolves s s.floodOwn := by
  unfold State.floodOwn
  dsimp only
  exact .after State.flood_evolves (.after State.see_evolves (.after State.keepTable_evolves (.refl _)))

theorem execLinkPhaseEnd_evolves {s : State} : Kept s (execLinkPhaseEnd s) := by
  unfold execLinkPhaseEnd
  dsimp only
  refine .ite (.next ?_) (.next (.refl _))
  with_reducible refine .upd rfl rfl rfl rfl rfl rfl rfl rfl rfl rfl rfl rfl ?_
  exact .after State.floodOwn_evolves (.ite (.refl _) (.after State.flood_evolves (.after State.see_evolves (.refl _))))

theorem State.stir_evolves {s : State} : Evolves s s.stir := by
  unfold State.stir
  dsimp only
  refine .ite ?_ (.refl _)
  with_reducible refine .upd rfl rfl rfl rfl rfl rfl rfl rfl rfl rfl rfl rfl ?_
  exact .refl _

theorem State.yieldNumber_evolves {s : State} {uid : Nat} {node : Nat} : Evolves s (s.yieldNumber uid node) := by
  unfold State.yieldNumber
  dsimp only
  refine .ite (.refl _) (.ite ?_ ?_)
  · refine .after State.postEvent_evolves ?_
    with_reducible refine .upd rfl rfl rfl rfl rfl rfl rfl rfl rfl rfl rfl rfl ?_
    exact .refl _
  · refine .after State.floodOwn_evolves (.after State.postEvent_evolves ?_)
    with_reducible refine .upd rfl rfl rfl rfl rfl rfl rfl rfl rfl rfl rfl rfl ?_
    exact .refl _

theorem execClaim_evolves {l : Nat} {uid : Nat} {node : Nat} {epoch : Nat} {s : State} : Kept s (execClaim l uid node epoch s) := by
  unfold execClaim
  dsimp only
  exact .ite (.next (.after State.yieldNumber_evolves (.after State.stir_evolves (.after State.flood_evolves (.after State.see_evolves (.after State.gotMgmt_evolves (.refl _))))))) (.next (.refl _))

theorem execSliceTable_evolves {l : Nat} {t : SliceTab} {s : State} : Kept s (execSliceTable l t s) := by
  unfold execSliceTable
  dsimp only
  exact .ite (.next (.ite (.after State.flood_evolves (.after State.see_evolves (.after State.gotMgmt_evolves (.refl _)))) (.after State.stir_evolves (.after State.keepTable_evolves (.after State.flood_evolves (.after State.see_evolves (.after State.gotMgmt_evolves (.refl _)))))))) (.next (.refl _))

theorem State.toNeighbour_evolves {s : State} {n : Nat} {m : MMsg} : Evolves s (s.toNeighbour n m) := by
  unfold State.toNeighbour
  split
  · exact .after State.mgmtOn_evolves (.refl _)
  · exact .refl _

theorem State.resize_evolves {s : State} {cur : List (Nat × Nat)} {n : Nat} {gaps : List (Nat × Nat)} : Evolves s (s.resize cur n gaps).2 := by
  unfold State.resize
  dsimp only
  split
  · dsimp only
    exact .refl _
  · dsimp only
    exact .after State.choose_evolves (.refl _)

theorem State.reserveMap_evolves {s : State} {n : Nat} : Evolves s (s.reserveMap n) := by
  unfold State.reserveMap
  dsimp only
  with_reducible refine .upd rfl rfl rfl rfl rfl rfl rfl rfl rfl rfl rfl rfl ?_
  exact .after State.resize_evolves (.refl _)

theorem State.reserveCache_evolves {s : State} {n : Nat} : Evolves s (s.reserveCache n) := by
  unfold State.reserveCache
  dsimp only
  refine .after State.trimFrames_evolves ?_
  with_reducible refine .upd rfl rfl rfl rfl rfl rfl rfl rfl rfl rfl rfl rfl ?_
  exact .after State.resize_evolves (.refl _)

theorem State.reserve_evolves {s : State} : Evolves s s.reserve := by
  unfold State.reserve
  dsimp only
  refine .after State.setCtr_evolves (.after State.reserveCache_evolves (.after State.reserveMap_evolves ?_))
  with_reducible refine .upd rfl rfl rfl rfl rfl rfl rfl rfl rfl rfl rfl rfl ?_
  exact .after State.adopt_evolves (.refl _)

theorem State.reserveRows_evolves {s : State} {members : Nat} : Evolves s (s.reserveRows members) := by
  unfold State.reserveRows
  dsimp only
  refine .foldl _ ?_ (fun _ _ => ?_)
  · with_reducible refine .upd rfl rfl rfl rfl rfl rfl rfl rfl rfl rfl rfl rfl ?_
    exact .refl _
  · exact .ite (.after State.loseTable_evolves (.refl _)) (.refl _)

theorem State.powerBays_evolves {s : State} : Evolves s s.powerBays := by
  unfold State.powerBays
  dsimp only
  refine .foldl _ ?_ (fun _ _ => ?_)
  · exact .refl _
  · exact .ite (.after State.powerBay_evolves (.refl _)) (.refl _)

theorem State.mapPorts_evolves {s : State} : Evolves s s.mapPorts := by
  unfold State.mapPorts
  dsimp only
  refine .foldl _ ?_ (fun _ _ => ?_)
  · exact .refl _
  · exact .ite (.ite (.refl _) (.after State.clearPort_evolves (.after State.portTo_evolves (.refl _)))) (.ite (.after State.portTo_evolves (.refl _)) (.ite (.after State.setLink_evolves (.refl _)) (.refl _)))

theorem State.booted_evolves {s : State} {status : Nat} {members : Nat} : Evolves s (s.booted status members) := by
  unfold State.booted
  dsimp only
  exact .after State.finishAll_evolves (.after State.postEvent_evolves (.refl _))

theorem State.commitMap_evolves {s : State} {epoch : Nat} : Evolves s (s.commitMap epoch) := by
  unfold State.commitMap
  dsimp only
  refine .after State.booted_evolves (.after State.bump_evolves (.after State.capChanged_evolves (.after State.roleMode_evolves (.after State.buildRoutes_evolves (.after State.mapPorts_evolves (.after State.reserveRows_evolves (.after State.powerBays_evolves (.after State.reserve_evolves ?_))))))))
  with_reducible refine .upd rfl rfl rfl rfl rfl rfl rfl rfl rfl rfl rfl rfl ?_
  refine .ite ?_ ?_
  · with_reducible refine .upd rfl rfl rfl rfl rfl rfl rfl rfl rfl rfl rfl rfl ?_
    exact .refl _
  · with_reducible refine .upd rfl rfl rfl rfl rfl rfl rfl rfl rfl rfl rfl rfl ?_
    exact .refl _

theorem State.commitOutside_evolves {s : State} {epoch : Nat} {members : Nat} : Evolves s (s.commitOutside epoch members) := by
  unfold State.commitOutside
  dsimp only
  refine .after State.booted_evolves ?_
  with_reducible refine .upd rfl rfl rfl rfl rfl rfl rfl rfl rfl rfl rfl rfl ?_
  exact .refl _

theorem State.failBoot_evolves {s : State} : Evolves s s.failBoot := by
  unfold State.failBoot
  dsimp only
  refine .after State.booted_evolves ?_
  with_reducible refine .upd rfl rfl rfl rfl rfl rfl rfl rfl rfl rfl rfl rfl ?_
  exact .refl _

theorem State.sendCommit_evolves {s : State} : Evolves s s.sendCommit := by
  unfold State.sendCommit
  dsimp only
  exact .after State.commitMap_evolves (.after State.flood_evolves (.after State.see_evolves (.refl _)))

theorem State.tryAck_evolves {s : State} : Evolves s s.tryAck := by
  unfold State.tryAck
  dsimp only
  refine .ite (.refl _) (.ite ?_ ?_)
  · refine .ite ?_ ?_
    · refine .after State.sendCommit_evolves ?_
      with_reducible refine .upd rfl rfl rfl rfl rfl rfl rfl rfl rfl rfl rfl rfl ?_
      exact .refl _
    · with_reducible refine .upd rfl rfl rfl rfl rfl rfl rfl rfl rfl rfl rfl rfl ?_
      exact .refl _
  · split
    · refine .after State.toNeighbour_evolves ?_
      with_reducible refine .upd rfl rfl rfl rfl rfl rfl rfl rfl rfl rfl rfl rfl ?_
      exact .refl _
    · with_reducible refine .upd rfl rfl rfl rfl rfl rfl rfl rfl rfl rfl rfl rfl ?_
      exact .refl _

theorem State.openRound_evolves {s : State} {epoch : Nat} : Evolves s (s.openRound epoch) := by
  unfold State.openRound
  dsimp only
  with_reducible refine .upd rfl rfl rfl rfl rfl rfl rfl rfl rfl rfl rfl rfl ?_
  exact .refl _

theorem State.propose_evolves {s : State} {epoch : Nat} : Evolves s (s.propose epoch) := by
  unfold State.propose
  dsimp only
  exact .after State.tryAck_evolves (.after State.flood_evolves (.after State.see_evolves (.after State.openRound_evolves (.refl _))))

theorem State.exclude_evolves {s : State} : Evolves s s.exclude := by
  unfold State.exclude
  dsimp only
  refine .ite (.after State.postEvent_evolves ?_) (.refl _)
  with_reducible refine .upd rfl rfl rfl rfl rfl rfl rfl rfl rfl rfl rfl rfl ?_
  exact .refl _

theorem execFloodQuietExpiry_evolves {s : State} : Kept s (execFloodQuietExpiry s) := by
  unfold execFloodQuietExpiry
  dsimp only
  refine .ite (.next (.ite ?_ ?_)) (.ite (.next (.ite (.after State.propose_evolves (.refl _)) (.refl _))) (.next (.refl _)))
  · refine .after State.propose_evolves ?_
    with_reducible refine .upd rfl rfl rfl rfl rfl rfl rfl rfl rfl rfl rfl rfl ?_
    exact .after State.exclude_evolves (.refl _)
  · with_reducible refine .upd rfl rfl rfl rfl rfl rfl rfl rfl rfl rfl rfl rfl ?_
    exact .after State.exclude_evolves (.refl _)

theorem State.judgeProposal_evolves {s : State} {l : Nat} {epoch : Nat} {members : Nat} {digest : Nat} : Evolves s (s.judgeProposal l epoch members digest) := by
  unfold State.judgeProposal
  dsimp only
  refine .ite (.after State.openRound_evolves (.after State.exclude_evolves (.refl _))) (.ite (.after State.tryAck_evolves (.after State.openRound_evolves (.after State.exclude_evolves (.refl _)))) ?_)
  split
  · refine .after State.toNeighbour_evolves ?_
    with_reducible refine .upd rfl rfl rfl rfl rfl rfl rfl rfl rfl rfl rfl rfl ?_
    exact .after State.openRound_evolves (.after State.exclude_evolves (.refl _))
  · refine .after State.mgmtOn_evolves ?_
    with_reducible refine .upd rfl rfl rfl rfl rfl rfl rfl rfl rfl rfl rfl rfl ?_
    exact .after State.openRound_evolves (.after State.exclude_evolves (.refl _))

theorem execPropose_evolves {l : Nat} {epoch : Nat} {uid : Nat} {members : Nat} {mdig : Nat} {digest : Nat} {s : State} : Kept s (execPropose l epoch uid members mdig digest s) := by
  unfold execPropose
  dsimp only
  exact .ite (.next (.ite (.after State.judgeProposal_evolves (.after State.flood_evolves (.after State.see_evolves (.after State.gotMgmt_evolves (.refl _))))) (.after State.flood_evolves (.after State.see_evolves (.after State.gotMgmt_evolves (.refl _)))))) (.next (.refl _))

theorem State.failRound_evolves {s : State} : Evolves s s.failRound := by
  unfold State.failRound
  dsimp only
  refine .ite (.after State.failBoot_evolves (.refl _)) ?_
  with_reducible refine .upd rfl rfl rfl rfl rfl rfl rfl rfl rfl rfl rfl rfl ?_
  exact .refl _

theorem execAgreeAck_evolves {l : Nat} {from_ : Nat} {epoch : Nat} {count : Nat} {nak : Bool} {s : State} : Kept s (execAgreeAck l from_ epoch count nak s) := by
  unfold execAgreeAck
  dsimp only
  refine .ite (.ite ?_ ?_) (.next (.refl _))
  · refine .ite (.next (.after State.failRound_evolves (.after State.gotMgmt_evolves (.refl _)))) ?_
    split
    · refine .next (.after State.toNeighbour_evolves ?_)
      with_reducible refine .upd rfl rfl rfl rfl rfl rfl rfl rfl rfl rfl rfl rfl ?_
      exact .after State.gotMgmt_evolves (.refl _)
    · refine .next ?_
      with_reducible refine .upd rfl rfl rfl rfl rfl rfl rfl rfl rfl rfl rfl rfl ?_
      exact .after State.gotMgmt_evolves (.refl _)
  · refine .next (.after State.tryAck_evolves ?_)
    with_reducible refine .upd rfl rfl rfl rfl rfl rfl rfl rfl rfl rfl rfl rfl ?_
    exact .after State.gotMgmt_evolves (.refl _)

theorem execAgreeTimeout_evolves {s : State} : Kept s (execAgreeTimeout s) := by
  unfold execAgreeTimeout
  dsimp only
  exact .ite (.next (.after State.failBoot_evolves (.refl _))) (.ite (.ite (.next (.after State.failRound_evolves (.refl _))) (.ite (.next (.after State.failBoot_evolves (.refl _))) (.next (.refl _)))) (.next (.refl _)))

theorem execMapCommit_evolves {l : Nat} {epoch : Nat} {digest : Nat} {s : State} : Kept s (execMapCommit l epoch digest s) := by
  unfold execMapCommit
  dsimp only
  exact .ite (.ite (.next (.after State.flood_evolves (.after State.see_evolves (.after State.gotMgmt_evolves (.refl _))))) (.ite (.next (.after State.commitOutside_evolves (.after State.flood_evolves (.after State.see_evolves (.after State.gotMgmt_evolves (.refl _)))))) (.ite (.next (.after State.commitMap_evolves (.after State.flood_evolves (.after State.see_evolves (.after State.gotMgmt_evolves (.refl _)))))) (.next (.after State.flood_evolves (.after State.see_evolves (.after State.gotMgmt_evolves (.refl _)))))))) (.next (.refl _))

end Sys2Proof.Machine
end

