-- ==== Sys2Proof/Laws/EvolvesColl.lean ====
section
/-! SUPPORT. What the operations of Coll, Engine, Rlc, Load keep (`Laws/Evolves.lean`). -/

namespace Sys2Proof.Machine

theorem State.setSess_evolves {s : State} {k : Nat} {x : Sess} : Evolves s (s.setSess k x) := by
  unfold State.setSess
  dsimp only
  with_reducible refine .upd rfl rfl rfl rfl rfl rfl rfl rfl rfl rfl rfl rfl ?_
  exact .refl _

theorem State.sessError_evolves {s : State} {k : Nat} {node : Nat} {status : Nat} : Evolves s (s.sessError k node status) := by
  unfold State.sessError
  dsimp only
  exact .ite (.refl _) (.after State.postEvent_evolves (.after State.dropTxns_evolves (.after State.setSess_evolves (.refl _))))

theorem State.landLine_evolves {a : Nat} {x1 : Nat} {x2 : Nat} {x3 : Nat} {x4 : List Byte} {x5 : Bool} {x6 : State} : Evolves x6 (State.landLine a x1 x2 x3 x4 x5 x6).2 := by
  induction a generalizing x1 x2 x3 x4 x5 x6 with
  | zero => exact .refl _
  | succ n ih =>
    unfold State.landLine
    dsimp only
    split
    · split
      · dsimp only
        exact .after State.putLine_evolves (.refl _)
      · dsimp only
        exact .refl _
    · split
      · dsimp only
        exact .refl _
      · split
        · dsimp only
          exact .refl _
        · split
          · split
            · dsimp only
              exact .after State.bump_evolves (.refl _)
            · split
              · dsimp only
                exact .after State.setSess_evolves (.refl _)
              · split
                · dsimp only
                  exact .after State.putLine_evolves (.after State.setSess_evolves (.refl _))
                · split
                  · refine .after ih ?_
                    exact .after State.setSess_evolves (.refl _)
                  · split
                    · dsimp only
                      exact .after State.sessError_evolves (.after State.setSess_evolves (.refl _))
                    · dsimp only
                      exact .after State.request_evolves (.after State.setSess_evolves (.refl _))
          · split
            · dsimp only
              exact .after State.bump_evolves (.refl _)
            · split
              · dsimp only
                exact .after State.setSess_evolves (.refl _)
              · split
                · dsimp only
                  exact .after State.putLine_evolves (.after State.setSess_evolves (.refl _))
                · split
                  · refine .after ih ?_
                    exact .after State.setSess_evolves (.refl _)
                  · split
                    · dsimp only
                      exact .after State.sessError_evolves (.after State.setSess_evolves (.refl _))
                    · dsimp only
                      exact .after State.request_evolves (.after State.setSess_evolves (.refl _))

theorem State.contribute_evolves {s : State} {a : Nat} {job : Nat} {node : Nat} {mask : Nat} {data : List Byte} {poison : Bool} : Evolves s (s.contribute a job node mask data poison).2 := by
  unfold State.contribute
  dsimp only
  split
  · split
    · dsimp only
      exact .refl _
    · exact .after State.landLine_evolves (.refl _)
  · exact .after State.landLine_evolves (.refl _)

theorem State.lineLate_evolves {s : State} {k : Nat} {i : Nat} : Evolves s (s.lineLate k i) := by
  unfold State.lineLate
  dsimp only
  exact .ite (.after State.putLine_evolves (.after State.bump_evolves (.after State.setSess_evolves (.refl _)))) (.ite (.after State.contribute_evolves (.after State.bump_evolves (.after State.setSess_evolves (.refl _)))) (.ite (.after State.sessError_evolves (.after State.bump_evolves (.after State.setSess_evolves (.refl _)))) (.after State.request_evolves (.after State.bump_evolves (.after State.setSess_evolves (.refl _))))))

theorem execCollLineTimeout_evolves {eng : Nat} {sess : Nat} {line : Nat} {s : State} : Kept s (execCollLineTimeout eng sess line s) := by
  unfold execCollLineTimeout
  dsimp only
  split
  · exact .next (.ite (.after State.lineLate_evolves (.refl _)) (.refl _))
  · exact .next (.refl _)

theorem State.runEnd_evolves {s : State} {k : Nat} {status : Nat} : Evolves s (s.runEnd k status) := by
  unfold State.runEnd
  dsimp only
  exact .after State.finishId_evolves (.after State.dropTxns_evolves (.after State.setSess_evolves (.refl _)))

theorem State.settleRun_evolves {s : State} {k : Nat} : Evolves s (s.settleRun k) := by
  unfold State.settleRun
  dsimp only
  exact .ite (.after State.runEnd_evolves (.refl _)) (.refl _)

theorem State.runWrite_evolves {s : State} {k : Nat} {i : Nat} {line : Nat} {poison : Bool} : Evolves s (s.runWrite k i line poison) := by
  unfold State.runWrite
  dsimp only
  refine .ite (.refl _) (.ite ?_ (.ite (.after State.runEnd_evolves (.refl _)) (.ite (.after State.runEnd_evolves (.refl _)) (.after State.request_evolves (.after State.setSess_evolves (.refl _))))))
  split
  · exact .ite (.after State.setSess_evolves (.after State.putLine_evolves (.refl _))) (.after State.runEnd_evolves (.refl _))
  · exact .after State.runEnd_evolves (.refl _)

theorem State.runLine_evolves {s : State} {k : Nat} {i : Nat} {line : Nat} {poison : Bool} : Evolves s (s.runLine k i line poison) := by
  unfold State.runLine
  dsimp only
  refine .ite (.refl _) (.ite (.after State.settleRun_evolves (.after State.runWrite_evolves (.after State.setSess_evolves (.refl _)))) (.ite (.after State.setSess_evolves (.refl _)) (.after State.settleRun_evolves (.foldl _ ?_ (fun _ _ => ?_)))))
  · exact .after State.setSess_evolves (.refl _)
  · exact .after State.runWrite_evolves (.refl _)

theorem State.runRead_evolves {s : State} {k : Nat} {i : Nat} {a : Nat} : Evolves s (s.runRead k i a) := by
  unfold State.runRead
  dsimp only
  refine .ite (.refl _) (.ite ?_ (.ite (.after State.runEnd_evolves (.refl _)) (.ite (.after State.runEnd_evolves (.refl _)) (.after State.request_evolves (.refl _)))))
  split
  · exact .ite (.after State.runLine_evolves (.refl _)) (.after State.runEnd_evolves (.refl _))
  · refine .ite ?_ (.after State.runEnd_evolves (.refl _))
    split
    · exact .after State.runLine_evolves (.after (Evolves.snd ‹State.readSector _ _ = _› State.readSector_evolves) (.refl _))
    · exact .after State.setSess_evolves (.after (Evolves.snd ‹State.readSector _ _ = _› State.readSector_evolves) (.refl _))
    · exact .after State.runLine_evolves (.after State.bump_evolves (.after (Evolves.snd ‹State.readSector _ _ = _› State.readSector_evolves) (.refl _)))
  · exact .after State.runEnd_evolves (.refl _)

theorem State.runTier_evolves {s : State} {op : Nat} {ok : Bool} : Evolves s (s.runTier op ok) := by
  unfold State.runTier
  dsimp only
  refine .foldl _ ?_ (fun _ _ => ?_)
  · exact .refl _
  · refine .foldl _ ?_ (fun _ _ => ?_)
    · exact .after State.setSess_evolves (.refl _)
    · exact .ite (.after State.runLine_evolves (.refl _)) (.after State.runLine_evolves (.after State.bump_evolves (.refl _)))

theorem rowOpenReduce_evolves {p : Pkt} {id : Nat} {s : State} (_hv : rowOpenReduce.verdict p s = none) : DoneKept s (rowOpenReduce.act p id s) := by
  unfold rowOpenReduce
  dsimp only
  exact .done (.after State.setSess_evolves (.refl _))

theorem execOpenReduce_evolves {p : Pkt} {s : State} : Kept s (execOpenReduce p s) := by
  unfold execOpenReduce
  refine .next (.after (hostCommand_evolves ?_) (.refl _))
  intros
  exact rowOpenReduce_evolves ‹_›

theorem rowCollectiveClose_evolves {p : Pkt} {id : Nat} {s : State} (_hv : rowCollectiveClose.verdict p s = none) : DoneKept s (rowCollectiveClose.act p id s) := by
  unfold rowCollectiveClose
  dsimp only
  exact .ite (.done (.refl _)) (.done (.after State.setSess_evolves (.after State.dropTxns_evolves (.refl _))))

theorem execCollectiveClose_evolves {p : Pkt} {s : State} : Kept s (execCollectiveClose p s) := by
  unfold execCollectiveClose
  refine .next (.after (hostCommand_evolves ?_) (.refl _))
  intros
  exact rowCollectiveClose_evolves ‹_›

theorem actRun_evolves {filter : Bool} {p : Pkt} {id : Nat} {s : State} : DoneKept s (actRun filter p id s) := by
  unfold actRun
  dsimp only
  refine .wait (.foldl _ ?_ (fun _ _ => ?_))
  · exact .after State.setSess_evolves (.refl _)
  · exact .after State.runRead_evolves (.refl _)

theorem rowRunGather_evolves {p : Pkt} {id : Nat} {s : State} (_hv : rowRunGather.verdict p s = none) : DoneKept s (rowRunGather.act p id s) := by
  unfold rowRunGather
  dsimp only
  exact .after actRun_evolves (.refl _)

theorem execRunGather_evolves {p : Pkt} {s : State} : Kept s (execRunGather p s) := by
  unfold execRunGather
  refine .next (.after (hostCommand_evolves ?_) (.refl _))
  intros
  exact rowRunGather_evolves ‹_›

theorem rowRunFilter_evolves {p : Pkt} {id : Nat} {s : State} (_hv : rowRunFilter.verdict p s = none) : DoneKept s (rowRunFilter.act p id s) := by
  unfold rowRunFilter
  dsimp only
  exact .after actRun_evolves (.refl _)

theorem execRunFilter_evolves {p : Pkt} {s : State} : Kept s (execRunFilter p s) := by
  unfold execRunFilter
  refine .next (.after (hostCommand_evolves ?_) (.refl _))
  intros
  exact rowRunFilter_evolves ‹_›

theorem State.modCore_evolves {s : State} {a : At} {f : CoreCtx → CoreCtx} : Evolves s (s.modCore a f) := by
  unfold State.modCore
  exact .after State.modPc_evolves (.refl _)

theorem State.modEng_evolves {s : State} {a : At} {f : Engine → Engine} : Evolves s (s.modEng a f) := by
  unfold State.modEng
  exact .after State.modCore_evolves (.refl _)

theorem State.haltAtEnd_evolves {s : State} {a : At} : Evolves s (s.haltAtEnd a) := by
  unfold State.haltAtEnd
  dsimp only
  exact .ite (.after State.modEng_evolves (.refl _)) (.refl _)

theorem State.signal_evolves {a : Nat} {x1 : At} {x2 : State} : Evolves x2 (State.signal a x1 x2) := by
  induction a generalizing x2 with
  | zero => exact .refl _
  | succ n ih =>
    unfold State.signal
    split
    · exact .after State.haltAtEnd_evolves (.refl _)
    · dsimp only
      split
      · refine .after ih ?_
        refine .after State.modEng_evolves ?_
        split
        · exact .after State.modPc_evolves (.after State.modCore_evolves (.refl _))
        · exact .after State.modCore_evolves (.refl _)
      · exact .refl _

theorem State.settleCore_evolves {s : State} {a : At} : Evolves s (s.settleCore a) := by
  unfold State.settleCore
  dsimp only
  refine .after State.settleHalt_evolves (.after State.modCore_evolves (.foldl _ ?_ (fun _ _ => ?_)))
  · exact .refl _
  · exact .after State.signal_evolves (.refl _)

theorem State.spWrite_evolves {s : State} {a : At} {x : Nat} {bs : List Byte} {bad : Bool} : Evolves s (s.spWrite a x bs bad) := by
  unfold State.spWrite
  dsimp only
  refine .gen rfl rfl rfl rfl rfl rfl rfl rfl rfl rfl rfl rfl id id id (fun h => Mem.writeN_wf h _ _) id List.prefix_rfl List.prefix_rfl ?_
  exact .refl _

theorem State.accWrite_evolves {s : State} {a : At} {x : Nat} {bs : List Byte} {bad : Bool} : Evolves s (s.accWrite a x bs bad) := by
  unfold State.accWrite
  dsimp only
  refine .gen rfl rfl rfl rfl rfl rfl rfl rfl rfl rfl rfl rfl id id id id (fun h => Mem.writeN_wf h _ _) List.prefix_rfl List.prefix_rfl ?_
  exact .refl _

theorem State.scramble_evolves {s : State} {a : At} {acc : Bool} {ps : List (Nat × Nat)} : Evolves s (s.scramble a acc ps) := by
  unfold State.scramble
  dsimp only
  refine .foldl _ ?_ (fun _ _ => ?_)
  · exact .refl _
  · refine .ite ?_ ?_
    · refine .gen rfl rfl rfl rfl rfl rfl rfl rfl rfl rfl rfl rfl id id id id (fun h => Mem.writeN_wf h _ _) List.prefix_rfl List.prefix_rfl ?_
      exact .after State.freeVals_evolves (.refl _)
    · refine .gen rfl rfl rfl rfl rfl rfl rfl rfl rfl rfl rfl rfl id id id (fun h => Mem.writeN_wf h _ _) id List.prefix_rfl List.prefix_rfl ?_
      exact .after State.freeVals_evolves (.refl _)

theorem State.race_evolves {s : State} {a : At} {c : List Nat} {x : Acc} : Evolves s (s.race a c x) := by
  unfold State.race
  dsimp only
  refine .foldl _ ?_ (fun _ _ => ?_)
  · exact .refl _
  · exact .after State.scramble_evolves (.refl _)

theorem State.begin__evolves {s : State} {a : At} : Evolves s (s.begin_ a).2 := by
  unfold State.begin_
  dsimp only
  exact .after State.modEng_evolves (.after State.modCore_evolves (.refl _))

theorem State.launch_evolves {s : State} {a : At} {clock : List Nat} {waits : List LineWait} {loopCount : optParam Nat 0} : Evolves s (s.launch a clock waits loopCount) := by
  unfold State.launch
  dsimp only
  exact .after State.settleCore_evolves (.after State.modEng_evolves (.refl _))

theorem State.faultDesc_evolves {s : State} {a : At} {code : Nat} {ea : Nat} : Evolves s (s.faultDesc a code ea) := by
  unfold State.faultDesc
  exact .after State.resetProg_evolves (.refl _)

theorem State.touch_evolves {s : State} {a : At} {clock : List Nat} {xs : List Acc} : Evolves s (s.touch a clock xs) := by
  unfold State.touch
  exact .after State.modCore_evolves (.refl _)

theorem State.runDesc_evolves : ∀ {s : State} {a : At} {fault : Option (Nat × Nat)} {xs : List Acc} {effect : State → State}, (∀ s, Evolves s (effect s)) → Evolves s (s.runDesc a fault xs effect) := by
  intro s a fault xs effect h
  unfold State.runDesc
  split
  · exact .after State.faultDesc_evolves (.after State.begin__evolves (.refl _))
  · dsimp only
    refine .after State.launch_evolves (.after State.touch_evolves (.foldl _ (.after (h _) ?_) fun _ _ => State.race_evolves))
    refine .foldl _ ?_ (fun _ _ => ?_)
    · exact .after State.begin__evolves (.refl _)
    · exact .after State.race_evolves (.refl _)

theorem onEngine_evolves : ∀ {e : EngAt} {d : Desc} {ok : Nat → Bool} {f : At → State → State} {s : State}, (∀ a s, Evolves s (f a s)) → Kept s (onEngine e d ok f s) := by
  intro e d ok f s h
  unfold onEngine
  split
  · exact .next (h _ _)
  · exact .next (.refl _)

theorem State.setReg_evolves {s : State} {a : At} {v : List Nat → Nat} : Evolves s (s.setReg a v) := by
  unfold State.setReg
  dsimp only
  exact .after State.launch_evolves (.after State.modEng_evolves (.after State.begin__evolves (.refl _)))

theorem execDescNop_evolves {e : EngAt} {d : Desc} {s : State} : Kept s (execDescNop e d s) := by
  unfold execDescNop
  dsimp only
  refine .after (onEngine_evolves ?_) (.refl _)
  intros
  exact .after State.launch_evolves (.after State.begin__evolves (.refl _))

theorem execSet_evolves {e : EngAt} {d : Desc} {s : State} : Kept s (execSet e d s) := by
  unfold execSet
  refine .after (onEngine_evolves ?_) (.refl _)
  intros
  exact .after State.setReg_evolves (.refl _)

theorem execAdd_evolves {e : EngAt} {d : Desc} {s : State} : Kept s (execAdd e d s) := by
  unfold execAdd
  refine .after (onEngine_evolves ?_) (.refl _)
  intros
  exact .after State.setReg_evolves (.refl _)

theorem execMul_evolves {e : EngAt} {d : Desc} {s : State} : Kept s (execMul e d s) := by
  unfold execMul
  refine .after (onEngine_evolves ?_) (.refl _)
  intros
  exact .after State.setReg_evolves (.refl _)

theorem execLdreg_evolves {e : EngAt} {d : Desc} {s : State} : Kept s (execLdreg e d s) := by
  unfold execLdreg
  dsimp only
  refine .after (onEngine_evolves ?_) (.refl _)
  intros
  split
  · exact .after State.faultDesc_evolves (.after State.begin__evolves (.refl _))
  · exact .ite (.after State.faultDesc_evolves (.after State.race_evolves (.after State.begin__evolves (.refl _)))) (.after State.launch_evolves (.after State.touch_evolves (.after State.modEng_evolves (.after State.race_evolves (.after State.begin__evolves (.refl _))))))

theorem execLoop_evolves {e : EngAt} {d : Desc} {s : State} : Kept s (execLoop e d s) := by
  unfold execLoop
  dsimp only
  refine .after (onEngine_evolves ?_) (.refl _)
  intros
  exact .after State.launch_evolves (.after State.begin__evolves (.refl _))

theorem execHalt_evolves {e : EngAt} {d : Desc} {s : State} : Kept s (execHalt e d s) := by
  unfold execHalt
  dsimp only
  refine .after (onEngine_evolves ?_) (.refl _)
  intros
  exact .after State.launch_evolves (.after State.begin__evolves (.refl _))

theorem State.rlcRead_evolves {s : State} {line : Nat} {job : Nat} : Evolves s (s.rlcRead line job).2 := by
  unfold State.rlcRead
  dsimp only
  split
  · split
    · dsimp only
      refine .after State.bump_evolves ?_
      with_reducible refine .upd rfl rfl rfl rfl rfl rfl rfl rfl rfl rfl rfl rfl ?_
      exact .refl _
    · dsimp only
      exact .after State.bump_evolves (.refl _)
  · dsimp only
    exact .after State.bump_evolves (.refl _)

theorem State.rlcFill_evolves {s : State} {line : Nat} {job : Nat} {data : Nat} : Evolves s (s.rlcFill line job data) := by
  unfold State.rlcFill
  dsimp only
  with_reducible refine .upd rfl rfl rfl rfl rfl rfl rfl rfl rfl rfl rfl rfl ?_
  exact .refl _

theorem State.rlcWrite_evolves {s : State} {line : Nat} {mask : Nat} {data : Nat} : Evolves s (s.rlcWrite line mask data) := by
  unfold State.rlcWrite
  dsimp only
  split
  · with_reducible refine .upd rfl rfl rfl rfl rfl rfl rfl rfl rfl rfl rfl rfl ?_
    exact .refl _
  · exact .refl _

theorem State.rlcAck_evolves {s : State} {line : Nat} : Evolves s (s.rlcAck line) := by
  unfold State.rlcAck
  dsimp only
  split
  · with_reducible refine .upd rfl rfl rfl rfl rfl rfl rfl rfl rfl rfl rfl rfl ?_
    exact .refl _
  · exact .refl _

theorem State.rlcDrop_evolves {s : State} {p : Nat → Bool} : Evolves s (s.rlcDrop p) := by
  unfold State.rlcDrop
  dsimp only
  with_reducible refine .upd rfl rfl rfl rfl rfl rfl rfl rfl rfl rfl rfl rfl ?_
  exact .refl _

theorem State.rlcTake_evolves {s : State} {node : Nat} {line : Nat} {job : Nat} {data : Nat} {sld : Bool} {poison : Bool} : Evolves s (s.rlcTake node line job data sld poison) := by
  unfold State.rlcTake
  exact .ite (.after State.rlcFill_evolves (.refl _)) (.refl _)

theorem Flow.ask_evolves : ∀ {f : Flow} {a : At} {node ptype code off : Nat} {pay : Payload} {poison : Bool} {parts : List (Nat × Nat × Nat)}, Evolves f.s (f.ask a node ptype code off pay poison parts).s := by
  intro f a node ptype code off pay poison parts
  unfold Flow.ask
  dsimp only
  refine .after State.request_evolves ?_
  with_reducible refine .upd rfl rfl rfl rfl rfl rfl rfl rfl rfl rfl rfl rfl ?_
  exact .refl _

theorem Flow.spoil_evolves : ∀ {f : Flow} {a : At} {x n : Nat}, Evolves f.s (f.spoil a x n).s := by
  intro f a x n
  unfold Flow.spoil
  dsimp only
  exact .after State.bumpStat_evolves (.after State.spWrite_evolves (.refl _))

theorem Flow.fill_evolves : ∀ {f : Flow} {a : At} {x : Nat} {bs : List Byte} {bad : Bool}, Evolves f.s (f.fill a x bs bad).s := by
  intro f a x bs bad
  unfold Flow.fill
  dsimp only
  exact .after State.bumpStat_evolves (.after State.spWrite_evolves (.refl _))

theorem Flow.load_evolves : ∀ {a : At} {space : Nat} {f : Flow} {p : Nat × Nat × Nat}, Evolves f.s (Flow.load a space f p).s := by
  intro a space f p
  unfold Flow.load
  dsimp only
  split
  · exact .refl _
  · split
    · exact .refl _
    · split
      · exact .refl _
      · split
        · exact .refl _
        · split
          · exact Flow.fill_evolves
          · exact Flow.fill_evolves
      · split
        · exact .refl _
        · split
          · exact .after Flow.fill_evolves (Evolves.snd ‹State.readSector _ _ = _› State.readSector_evolves)
          · exact Evolves.snd ‹State.readSector _ _ = _› State.readSector_evolves
          · refine .after Flow.spoil_evolves (.after State.bump_evolves ?_)
            refine .after (t := _) ?_ (Evolves.snd ‹State.readSector _ _ = _› State.readSector_evolves)
            exact .ite (.refl _) (.after State.tierFault_evolves (.refl _))
      · split
        · exact Flow.spoil_evolves
        · split
          · refine .after Flow.fill_evolves ?_
            dsimp only
            split
            · exact State.rlcRead_evolves
            · exact .refl _
          · refine .after Flow.ask_evolves ?_
            dsimp only
            split
            · exact State.rlcRead_evolves
            · exact .refl _

theorem State.notePoison_evolves {s : State} {a : At} {line : Option Nat} {first : Bool} : Evolves s (s.notePoison a line first) := by
  unfold State.notePoison
  dsimp only
  split
  · exact .ite (.ite (.after State.bumpStat_evolves (.refl _)) (.refl _)) (.ite (.after State.postEvent_evolves (.after State.modPc_evolves (.ite (.after State.bumpStat_evolves (.refl _)) (.refl _)))) (.after State.modPc_evolves (.ite (.after State.bumpStat_evolves (.refl _)) (.refl _))))
  · exact .ite (.after State.bumpStat_evolves (.refl _)) (.refl _)

theorem Flow.close_evolves : ∀ {f : Flow} {a : At} {clock : List Nat} {xs : List Acc}, Evolves f.s (f.close a clock xs) := by
  intro f a clock xs
  unfold Flow.close
  split
  · exact .after State.faultDesc_evolves (.refl _)
  · dsimp only
    split
    · refine .after State.rawFault_evolves (.ite ?_ ?_)
      · refine .after State.modEng_evolves (.after State.launch_evolves (.after State.touch_evolves (.foldl _ ?_ (fun _ _ => ?_))))
        · exact .ite (.after State.notePoison_evolves (.refl _)) (.refl _)
        · exact .after State.race_evolves (.refl _)
      · refine .after State.launch_evolves (.after State.touch_evolves (.foldl _ ?_ (fun _ _ => ?_)))
        · exact .ite (.after State.notePoison_evolves (.refl _)) (.refl _)
        · exact .after State.race_evolves (.refl _)
    · refine .ite ?_ ?_
      · refine .after State.modEng_evolves (.after State.launch_evolves (.after State.touch_evolves (.foldl _ ?_ (fun _ _ => ?_))))
        · exact .ite (.after State.notePoison_evolves (.refl _)) (.refl _)
        · exact .after State.race_evolves (.refl _)
      · refine .after State.launch_evolves (.after State.touch_evolves (.foldl _ ?_ (fun _ _ => ?_)))
        · exact .ite (.after State.notePoison_evolves (.refl _)) (.refl _)
        · exact .after State.race_evolves (.refl _)

theorem State.startLoad_evolves {s : State} {a : At} {gather : Bool} : Evolves s (s.startLoad a gather) := by
  unfold State.startLoad
  dsimp only
  split
  · exact .after State.faultDesc_evolves (.after State.begin__evolves (.after State.adopt_evolves (.after State.adopt_evolves (.refl _))))
  · refine .after Flow.close_evolves ?_
    refine Flow.foldl_evolves (fun _ _ => Flow.load_evolves) ?_
    dsimp only
    refine .foldl _ ?_ (fun _ _ => ?_)
    · exact .after State.begin__evolves (.after State.adopt_evolves (.after State.adopt_evolves (.refl _)))
    · exact .after State.race_evolves (.refl _)

theorem execLoad_evolves {e : EngAt} {d : Desc} {s : State} : Kept s (execLoad e d s) := by
  unfold execLoad
  refine .after (onEngine_evolves ?_) (.refl _)
  intros
  exact .after State.startLoad_evolves (.refl _)

theorem execGather_evolves {e : EngAt} {d : Desc} {s : State} : Kept s (execGather e d s) := by
  unfold execGather
  refine .after (onEngine_evolves ?_) (.refl _)
  intros
  exact .after State.startLoad_evolves (.refl _)

theorem Flow.store_evolves : ∀ {a : At} {space : Nat} {f : Flow} {p : Nat × Nat × Nat}, Evolves f.s (Flow.store a space f p).s := by
  intro a space f p
  unfold Flow.store
  dsimp only
  split
  · exact .refl _
  · split
    · exact .refl _
    · split
      · dsimp only
        exact .after State.bumpStat_evolves (.refl _)
      · dsimp only
        exact .after State.bumpStat_evolves (.refl _)
      · split
        · split
          · refine .after (Evolves.snd ‹State.contribute _ _ _ _ _ _ _ = _› State.contribute_evolves) ?_
            exact .after State.bumpStat_evolves (.refl _)
          · dsimp only
            exact .after State.bumpStat_evolves (.refl _)
        · split
          · dsimp only
            exact .after State.bumpStat_evolves (.refl _)
          · dsimp only
            exact .after State.mirrorLine_evolves (.after State.putLine_evolves (.after State.bumpStat_evolves (.refl _)))
      · split
        · dsimp only
          exact .after State.bumpStat_evolves (.refl _)
        · refine .after Flow.ask_evolves ?_
          dsimp only
          exact .after State.rlcWrite_evolves (.after State.bumpStat_evolves (.refl _))

theorem State.startStore_evolves {s : State} {a : At} {scatter : Bool} : Evolves s (s.startStore a scatter) := by
  unfold State.startStore
  dsimp only
  split
  · exact .after State.faultDesc_evolves (.after State.begin__evolves (.after State.adopt_evolves (.refl _)))
  · refine .after Flow.close_evolves ?_
    refine Flow.foldl_evolves (fun _ _ => Flow.store_evolves) ?_
    dsimp only
    refine .after State.race_evolves (.foldl _ ?_ (fun _ _ => ?_))
    · exact .after State.begin__evolves (.after State.adopt_evolves (.refl _))
    · exact .after State.race_evolves (.refl _)

theorem execStore_evolves {e : EngAt} {d : Desc} {s : State} : Kept s (execStore e d s) := by
  unfold execStore
  refine .after (onEngine_evolves ?_) (.refl _)
  intros
  exact .after State.startStore_evolves (.refl _)

theorem execScatter_evolves {e : EngAt} {d : Desc} {s : State} : Kept s (execScatter e d s) := by
  unfold execScatter
  refine .after (onEngine_evolves ?_) (.refl _)
  intros
  exact .after State.startStore_evolves (.refl _)

theorem State.atomResult_evolves {s : State} {a : At} {x : Nat} {old : Option Nat} : Evolves s (s.atomResult a x old) := by
  unfold State.atomResult
  split
  · exact .after State.spWrite_evolves (.refl _)
  · exact .after State.spWrite_evolves (.refl _)

theorem State.startAtomic_evolves {s : State} {a : At} : Evolves s (s.startAtomic a) := by
  unfold State.startAtomic
  dsimp only
  split
  · exact .after State.faultDesc_evolves (.after State.begin__evolves (.after State.adopt_evolves (.refl _)))
  · split
    · exact .after State.faultDesc_evolves (.after State.race_evolves (.after State.begin__evolves (.after State.adopt_evolves (.refl _))))
    · exact .after State.faultDesc_evolves (.after State.race_evolves (.after State.begin__evolves (.after State.adopt_evolves (.refl _))))
    · refine .ite ?_ ?_
      · exact .after State.faultDesc_evolves (.after State.race_evolves (.after State.begin__evolves (.after State.adopt_evolves (.refl _))))
      · refine .after Flow.close_evolves ?_
        dsimp only
        exact .after State.atomResult_evolves (.ite (.after State.mirrorLine_evolves (.after State.doAtomic_evolves (.after State.race_evolves (.after State.begin__evolves (.after State.adopt_evolves (.refl _)))))) (.after State.doAtomic_evolves (.after State.race_evolves (.after State.begin__evolves (.after State.adopt_evolves (.refl _))))))
    · refine .ite ?_ ?_
      · refine .after Flow.close_evolves ?_
        dsimp only
        exact .after State.atomResult_evolves (.after State.race_evolves (.after State.begin__evolves (.after State.adopt_evolves (.refl _))))
      · refine .after Flow.close_evolves (.after Flow.ask_evolves ?_)
        dsimp only
        exact .after State.rlcDrop_evolves (.after State.race_evolves (.after State.begin__evolves (.after State.adopt_evolves (.refl _))))

theorem execDescAtomic_evolves {e : EngAt} {d : Desc} {s : State} : Kept s (execDescAtomic e d s) := by
  unfold execDescAtomic
  refine .after (onEngine_evolves ?_) (.refl _)
  intros
  exact .after State.startAtomic_evolves (.refl _)

theorem State.lineIn_evolves {s : State} {id : Nat} {rank : Nat} {eng : Nat} {tier : Bool} {key : Nat} {data : Option (Nat → Nat → List Byte)} {line : Option Nat} : Evolves s (s.lineIn id rank eng tier key data line) := by
  unfold State.lineIn
  dsimp only
  split
  · exact .refl _
  · refine .after State.settleCore_evolves (.after State.modEng_evolves (.ite ?_ ?_))
    · refine .after State.notePoison_evolves (.after State.race_evolves (.foldl _ ?_ (fun _ _ => ?_)))
      · exact .refl _
      · split
        · exact .after State.spWrite_evolves (.ite (.after State.bumpStat_evolves (.refl _)) (.refl _))
        · exact .after State.spWrite_evolves (.ite (.after State.bumpStat_evolves (.refl _)) (.refl _))
    · refine .after State.race_evolves (.foldl _ ?_ (fun _ _ => ?_))
      · exact .refl _
      · split
        · exact .after State.spWrite_evolves (.ite (.after State.bumpStat_evolves (.refl _)) (.refl _))
        · exact .after State.spWrite_evolves (.ite (.after State.bumpStat_evolves (.refl _)) (.refl _))

theorem State.sectorOut_evolves {s : State} {op : Nat} {ok : Bool} : Evolves s (s.sectorOut op ok) := by
  unfold State.sectorOut
  dsimp only
  refine .after State.runTier_evolves (.foldl _ ?_ (fun _ _ => ?_))
  · exact .refl _
  · refine .foldl _ ?_ (fun _ _ => ?_)
    · exact .refl _
    · exact .after State.lineIn_evolves (.ite (.refl _) (.after State.bump_evolves (.refl _)))

end Sys2Proof.Machine
end

