-- ==== Sys2Proof/Laws/EvolvesHostIf.lean ====
section
/-! SUPPORT. What the operations of HostIf, Ops, Ends, Serve, Fabric keep (`Laws/Evolves.lean`). -/

namespace Sys2Proof.Machine

theorem State.setRingSt_evolves {s : State} {ty : Nat} {n : Nat} {st : RingSt} : Evolves s (s.setRingSt ty n st) := by
  unfold State.setRingSt
  dsimp only
  exact .ite (.after State.setSq_evolves (.refl _)) (.ite (.after State.setCq_evolves (.refl _)) (.after State.setOq_evolves (.refl _)))

theorem State.badDoorbell_evolves {s : State} {ty : Nat} {n : Nat} {v : Nat} : Evolves s (s.badDoorbell ty n v) := by
  unfold State.badDoorbell
  dsimp only
  exact .after State.postEvent_evolves (.ite (.ite (.after State.discardHeld_evolves (.after State.bump_evolves (.after State.setRingSt_evolves (.refl _)))) (.after State.bump_evolves (.after State.setRingSt_evolves (.refl _)))) (.refl _))

theorem State.goodDoorbell_evolves {s : State} {ty : Nat} {n : Nat} {v : Nat} : Evolves s (s.goodDoorbell ty n v) := by
  unfold State.goodDoorbell
  dsimp only
  exact .ite (.after State.setSq_evolves (.refl _)) (.ite (.after State.flushLost_evolves (.after State.setCq_evolves (.refl _))) (.after State.setOq_evolves (.refl _)))

theorem State.ringDoorbell_evolves {s : State} {ty : Nat} {n : Nat} {v : Nat} {wellFormed : Bool} : Evolves s (s.ringDoorbell ty n v wellFormed) := by
  unfold State.ringDoorbell
  exact .ite (.after State.goodDoorbell_evolves (.refl _)) (.ite (.refl _) (.after State.badDoorbell_evolves (.refl _)))

theorem State.doorbell_evolves {s : State} {ty : Nat} {n : Nat} {width : Nat} {value : W64} : Evolves s (s.doorbell ty n width value) := by
  unfold State.doorbell
  dsimp only
  refine .ite (.refl _) (.ite ?_ (.after State.ringDoorbell_evolves (.refl _)))
  with_reducible refine .upd rfl rfl rfl rfl rfl rfl rfl rfl rfl rfl rfl rfl ?_
  exact .refl _

theorem execSubmissionDoorbell_evolves {ring : Nat} {width : Nat} {value : W64} {s : State} : Kept s (execSubmissionDoorbell ring width value s) := by
  unfold execSubmissionDoorbell
  exact .next (.after State.doorbell_evolves (.refl _))

theorem execCompletionDoorbell_evolves {ring : Nat} {width : Nat} {value : W64} {s : State} : Kept s (execCompletionDoorbell ring width value s) := by
  unfold execCompletionDoorbell
  exact .next (.after State.doorbell_evolves (.refl _))

theorem execOutputDoorbell_evolves {ring : Nat} {width : Nat} {value : W64} {s : State} : Kept s (execOutputDoorbell ring width value s) := by
  unfold execOutputDoorbell
  exact .next (.after State.doorbell_evolves (.refl _))

theorem State.writeEnable_evolves {s : State} : Evolves s s.writeEnable := by
  unfold State.writeEnable
  dsimp only
  refine .ite (.refl _) ?_
  with_reducible refine .upd rfl rfl rfl rfl rfl rfl rfl rfl rfl rfl rfl rfl ?_
  exact .refl _

theorem State.adminRings_evolves {s : State} : Evolves s s.adminRings := by
  unfold State.adminRings
  dsimp only
  exact .after State.setCq_evolves (.after State.setSq_evolves (.refl _))

theorem execHostIfReady_evolves {s : State} : Kept s (execHostIfReady s) := by
  unfold execHostIfReady
  dsimp only
  refine .ite (.next ?_) (.next (.refl _))
  with_reducible refine .upd rfl rfl rfl rfl rfl rfl rfl rfl rfl rfl rfl rfl ?_
  exact .after State.adminRings_evolves (.refl _)

theorem State.msixWrite_evolves {s : State} {v : Nat} {o : Nat} {bs : List Byte} : Evolves s (s.msixWrite v o bs) := by
  unfold State.msixWrite
  dsimp only
  refine .ite ?_ ?_
  · refine .gen rfl rfl rfl rfl rfl rfl rfl rfl rfl rfl rfl rfl id id id id id List.prefix_rfl (List.prefix_append _ _) ?_
    exact .refl _
  · with_reducible refine .upd rfl rfl rfl rfl rfl rfl rfl rfl rfl rfl rfl rfl ?_
    exact .refl _

theorem State.setupWrite_evolves {s : State} {off : Nat} {v : Nat} : Evolves s (s.setupWrite off v) := by
  unfold State.setupWrite
  dsimp only
  refine .ite (.refl _) (.ite ?_ ?_)
  · with_reducible refine .upd rfl rfl rfl rfl rfl rfl rfl rfl rfl rfl rfl rfl ?_
    exact .refl _
  · refine .ite ?_ ?_
    · with_reducible refine .upd rfl rfl rfl rfl rfl rfl rfl rfl rfl rfl rfl rfl ?_
      exact .refl _
    · with_reducible refine .upd rfl rfl rfl rfl rfl rfl rfl rfl rfl rfl rfl rfl ?_
      exact .refl _

theorem State.cleanLines_evolves {s : State} {a len : Nat} : Evolves s (s.cleanLines a len) := by
  unfold State.cleanLines
  dsimp only
  with_reducible refine .upd rfl rfl rfl rfl rfl rfl rfl rfl rfl rfl rfl rfl ?_
  exact .refl _

theorem execBar2Access_evolves {write : Bool} {offset : Nat} {len : Nat} {data : List Byte} {s : State} : Kept s (execBar2Access write offset len data s) := by
  unfold execBar2Access
  dsimp only
  refine .ite (.next (.refl _)) (.ite ?_ ?_)
  · refine .ite (.next (.after State.cleanLines_evolves (.after State.hbmWrite_evolves (.refl _)))) (.next ?_)
    with_reducible refine .upd rfl rfl rfl rfl rfl rfl rfl rfl rfl rfl rfl rfl ?_
    exact .refl _
  · refine .ite (.next (.after State.bump_evolves (.refl _))) (.next ?_)
    with_reducible refine .upd rfl rfl rfl rfl rfl rfl rfl rfl rfl rfl rfl rfl ?_
    exact .after State.bump_evolves (.refl _)

theorem execIrqDelayExpiry_evolves {out : Bool} {ring : Nat} {s : State} : Kept s (execIrqDelayExpiry out ring s) := by
  unfold execIrqDelayExpiry
  dsimp only
  split
  · exact .ite (.next (.after State.signalVector_evolves (.ite (.after State.setOq_evolves (.refl _)) (.after State.setCq_evolves (.refl _))))) (.next (.refl _))
  · exact .next (.refl _)

theorem execHeldTokenWrite_evolves {ctx : Nat} {s : State} : Kept s (execHeldTokenWrite ctx s) := by
  unfold execHeldTokenWrite
  exact .ite (.next (.after State.writeHeld_evolves (.refl _))) (.next (.refl _))

theorem rowNop_evolves {p : Pkt} {id : Nat} {s : State} (_hv : rowNop.verdict p s = none) : DoneKept s (rowNop.act p id s) := by
  unfold rowNop
  dsimp only
  exact .done (.refl _)

theorem execNop_evolves {p : Pkt} {s : State} : Kept s (execNop p s) := by
  unfold execNop
  refine .next (.after (hostCommand_evolves ?_) (.refl _))
  intros
  exact rowNop_evolves ‹_›

theorem State.createRing_evolves {s : State} {p : Pkt} : Evolves s (s.createRing p) := by
  unfold State.createRing
  dsimp only
  exact .ite (.after State.setSq_evolves (.refl _)) (.ite (.after State.setCq_evolves (.refl _)) (.after State.setOq_evolves (.refl _)))

theorem rowCreateRing_evolves {p : Pkt} {id : Nat} {s : State} (_hv : rowCreateRing.verdict p s = none) : DoneKept s (rowCreateRing.act p id s) := by
  unfold rowCreateRing
  dsimp only
  exact .done (.after State.createRing_evolves (.refl _))

theorem execCreateRing_evolves {p : Pkt} {s : State} : Kept s (execCreateRing p s) := by
  unfold execCreateRing
  refine .next (.after (hostCommand_evolves ?_) (.refl _))
  intros
  exact rowCreateRing_evolves ‹_›

theorem rowDeleteRing_evolves {p : Pkt} {id : Nat} {s : State} (_hv : rowDeleteRing.verdict p s = none) : DoneKept s (rowDeleteRing.act p id s) := by
  unfold rowDeleteRing
  dsimp only
  exact .ite (.done (.refl _)) (.ite (.wait (.after State.setRingSt_evolves (.refl _))) (.done (.after State.dropRing_evolves (.refl _))))

theorem execDeleteRing_evolves {p : Pkt} {s : State} : Kept s (execDeleteRing p s) := by
  unfold execDeleteRing
  refine .next (.after (hostCommand_evolves ?_) (.refl _))
  intros
  exact rowDeleteRing_evolves ‹_›

theorem State.deleteRings_evolves {s : State} : Evolves s s.deleteRings := by
  unfold State.deleteRings
  dsimp only
  refine .foldl _ ?_ (fun _ _ => ?_)
  · with_reducible refine .upd rfl rfl rfl rfl rfl rfl rfl rfl rfl rfl rfl rfl ?_
    exact .refl _
  · exact .after State.discardHeld_evolves (.refl _)

theorem State.teardown_evolves {s : State} : Evolves s s.teardown := by
  unfold State.teardown
  dsimp only
  refine .ite ?_ ?_
  · with_reducible refine .upd rfl rfl rfl rfl rfl rfl rfl rfl rfl rfl rfl rfl ?_
    exact .refl _
  · refine .after State.deleteRings_evolves (.after State.endReqs_evolves (.after State.abandonAll_evolves ?_))
    with_reducible refine .upd rfl rfl rfl rfl rfl rfl rfl rfl rfl rfl rfl rfl ?_
    exact .refl _

theorem State.hostIfCtrl_evolves {s : State} {v : Nat} : Evolves s (s.hostIfCtrl v) := by
  unfold State.hostIfCtrl
  exact .ite (.refl _) (.ite (.after State.writeEnable_evolves (.refl _)) (.after State.teardown_evolves (.refl _)))

theorem regWrite_evolves : ∀ {w : Nat} {s t : State}, Evolves s t → Kept s (regWrite w t) := by
  intro w s t h
  unfold regWrite
  exact .ite (.next h) .fault

theorem execHostIfEnable_evolves {width : Nat} {value : W64} {s : State} : Kept s (execHostIfEnable width value s) := by
  unfold execHostIfEnable
  exact regWrite_evolves (.after State.hostIfCtrl_evolves (.refl _))

theorem execHostIfDisable_evolves {width : Nat} {value : W64} {s : State} : Kept s (execHostIfDisable width value s) := by
  unfold execHostIfDisable
  exact regWrite_evolves (.after State.hostIfCtrl_evolves (.refl _))

theorem execTeardownComplete_evolves {s : State} : Kept s (execTeardownComplete s) := by
  unfold execTeardownComplete
  dsimp only
  refine .ite (.next ?_) (.next (.refl _))
  with_reducible refine .upd rfl rfl rfl rfl rfl rfl rfl rfl rfl rfl rfl rfl ?_
  exact .refl _

theorem execHostLinkDown_evolves {s : State} : Kept s (execHostLinkDown s) := by
  unfold execHostLinkDown
  exact .ite (.next (.after State.teardown_evolves (.refl _))) (.next (.refl _))

theorem execHotReset_evolves {s : State} : Kept s (execHotReset s) := by
  unfold execHotReset
  exact .ite (.next (.after State.teardown_evolves (.refl _))) (.next (.refl _))

theorem execD3hotEntry_evolves {s : State} : Kept s (execD3hotEntry s) := by
  unfold execD3hotEntry
  exact .ite (.next (.after State.teardown_evolves (.refl _))) (.next (.refl _))

theorem State.bar0Write_evolves {s : State} {off : Nat} {width : Nat} {value : W64} : Kept s (s.bar0Write off width value) := by
  unfold State.bar0Write
  refine .ite (.next (.refl _)) ?_
  split
  · exact .next (.after State.doorbell_evolves (.refl _))
  · exact .ite (.ite (regWrite_evolves (.after State.setupWrite_evolves (.refl _))) .fault) (.ite (.ite (regWrite_evolves (.after State.hostIfCtrl_evolves (.refl _))) .fault) (.next (.refl _)))

theorem State.bar4Write_evolves {s : State} {off : Nat} {width : Nat} {value : W64} : Evolves s (s.bar4Write off width value) := by
  unfold State.bar4Write
  exact .ite (.after State.msixWrite_evolves (.refl _)) (.refl _)

theorem execRegisterWrite_evolves {bar : Bar} {offset : Nat} {width : Nat} {value : W64} {s : State} : Kept s (execRegisterWrite bar offset width value s) := by
  unfold execRegisterWrite
  split
  · exact .after State.bar0Write_evolves (.refl _)
  · exact .next (.after State.bar4Write_evolves (.refl _))

theorem State.ioLost_evolves {s : State} {o : TierOp} {status : Nat} : Evolves s (s.ioLost o status) := by
  unfold State.ioLost
  dsimp only
  exact .ite (.after State.sectorOut_evolves (.after State.bump_evolves (.after State.tierLost_evolves (.refl _)))) (.after State.tierLost_evolves (.refl _))

theorem execDriveIoComplete_evolves {op : Nat} {ok : Bool} {data : List Byte} {s : State} : Kept s (execDriveIoComplete op ok data s) := by
  unfold execDriveIoComplete
  dsimp only
  split
  · exact .next (.refl _)
  · exact .ite (.next (.refl _)) (.ite (.next (.ite (.after State.sectorOut_evolves (.after State.tierDone_evolves (.refl _))) (.after State.tierDone_evolves (.refl _)))) (.ite (.next (.after State.ioLost_evolves (.refl _))) (.next (.after State.retryTier_evolves (.refl _)))))

theorem execTierTimeout_evolves {op : Nat} {s : State} : Kept s (execTierTimeout op s) := by
  unfold execTierTimeout
  split
  · exact .next (.refl _)
  · exact .ite (.next (.refl _)) (.ite (.next (.after State.ioLost_evolves (.refl _))) (.next (.after State.retryTier_evolves (.refl _))))

theorem State.writeSeqs_evolves {s : State} {part : Nat} {place : Nat} {seqs : List Nat} {decode : Bool} : Evolves s (s.writeSeqs part place seqs decode) := by
  unfold State.writeSeqs
  refine Evolves.foldl_fst (fun r i => ?_) _ (.refl _)
  dsimp only
  exact .ite (.after State.fwWrite_evolves (.after State.fwWrite_evolves (.after State.fwWrite_evolves (.refl _)))) (.after State.fwWrite_evolves (.after State.fwWrite_evolves (.refl _)))

theorem State.beginHead_evolves {s : State} {id : Nat} : Evolves s (s.beginHead id) := by
  unfold State.beginHead
  split
  · refine .ite (.foldl _ ?_ (fun _ _ => ?_)) (.refl _)
    · exact .refl _
    · exact .ite (.after State.enter_evolves (.after State.modCtx_evolves (.refl _))) (.refl _)
  · exact .refl _

theorem State.backRow_evolves {s : State} {i : Nat} : Evolves s (s.backRow i).2 := by
  unfold State.backRow
  dsimp only
  split
  · exact .refl _
  · refine Evolves.foldl_snd (fun b l => ?_) _ (.refl _)
    refine Evolves.foldl_snd (fun b j => ?_) _ (.refl _)
    split
    · exact State.backExt_evolves
    · exact .refl _

theorem State.postItem_evolves {s : State} {id : Nat} {kind : Nat} {seqs : List Nat} {first : Nat} {count : Nat} {place : Nat} : Evolves s (s.postItem id kind seqs first count place) := by
  unfold State.postItem
  dsimp only
  exact .after State.choosePc_evolves (.after State.beginHead_evolves (.after State.pushItem_evolves (.after State.writeSeqs_evolves (.refl _))))

theorem State.backRows_evolves {s : State} {seqs : List Nat} : Evolves s (s.backRows seqs).2 := by
  unfold State.backRows
  refine Evolves.foldl_snd (fun r i => ?_) _ (.refl _)
  split
  · dsimp only
    exact Evolves.snd ‹State.backRow _ _ = _› State.backRow_evolves
  · dsimp only
    exact .after State.endReq_evolves (Evolves.snd ‹State.backRow _ _ = _› State.backRow_evolves)

theorem State.schedPause_evolves {s : State} {part : Nat} {i : Nat} : Evolves s (s.schedPause part i) := by
  unfold State.schedPause
  dsimp only
  exact .after State.bump_evolves (.after State.enter_evolves (.after State.modCtx_evolves (.refl _)))

theorem State.scheduler_evolves {s : State} {part : Nat} : Evolves s (s.scheduler part) := by
  unfold State.scheduler
  dsimp only
  refine .ite ?_ ?_
  · refine .foldl _ ?_ (fun _ _ => ?_)
    · exact .after State.adopt_evolves (.after State.adopt_evolves (.after State.adopt_evolves (.refl _)))
    · exact .after State.schedPause_evolves (.refl _)
  · refine .ite (.foldl _ ?_ (fun _ _ => ?_)) (.after State.adopt_evolves (.after State.adopt_evolves (.after State.adopt_evolves (.refl _))))
    · exact .after State.adopt_evolves (.after State.adopt_evolves (.after State.adopt_evolves (.refl _)))
    · exact .after State.tryDecode_evolves (.after State.modCtx_evolves (.refl _))

theorem State.handTwins_evolves {s : State} {p : Nat → Bool} : Evolves s (s.handTwins p) := by
  unfold State.handTwins
  dsimp only
  refine .foldl _ ?_ (fun _ _ => ?_)
  · exact .refl _
  · exact .ite (.after State.handTwin_evolves (.refl _)) (.refl _)

theorem State.boundary_evolves {s : State} {part : Nat} : Evolves s (s.boundary part) := by
  unfold State.boundary
  dsimp only
  exact .after State.scheduler_evolves (.after State.applyPauses_evolves (.ite (.after State.handTwins_evolves (.after State.modPart_evolves (.refl _))) (.after State.modPart_evolves (.refl _))))

theorem execWorkItemWrite_evolves {pc : Nat} {kind : Nat} {seqs : List Nat} {firstLayer : Nat} {layerCount : Nat} {s : State} : Kept s (execWorkItemWrite pc kind seqs firstLayer layerCount s) := by
  unfold execWorkItemWrite
  dsimp only
  refine .ite (.next (.refl _)) (.ite ?_ ?_)
  · refine .ite (.next (.refl _)) ?_
    split
    · exact .next (.after State.postItem_evolves (.refl _))
    · exact .next (.refl _)
  · refine .ite (.ite (.next (.refl _)) (.ite (.next (.after State.boundary_evolves (.refl _))) (.ite (.next (.after State.backRows_evolves (.refl _))) ?_))) (.next (.refl _))
    split
    · refine .next (.after State.postItem_evolves (.after State.modPart_evolves (.foldl _ ?_ (fun _ _ => ?_))))
      · exact .after State.backRows_evolves (.refl _)
      · exact .after State.modCtx_evolves (.refl _)
    · exact .next (.after State.backRows_evolves (.refl _))

theorem State.layerDone_evolves {s : State} {i : Nat} : Evolves s (s.layerDone i) := by
  unfold State.layerDone
  dsimp only
  exact .ite (.ite (.after State.endReq_evolves (.after State.modCtx_evolves (.refl _))) (.after State.modCtx_evolves (.refl _))) (.refl _)

theorem execPrefillLayerDone_evolves {pc : Nat} {s : State} : Kept s (execPrefillLayerDone pc s) := by
  unfold execPrefillLayerDone
  dsimp only
  split
  · refine .ite (.next (.after State.beginHead_evolves (.foldl _ ?_ (fun _ _ => ?_)))) (.next (.refl _))
    · exact .after State.modPc_evolves (.refl _)
    · exact .after State.layerDone_evolves (.refl _)
  · exact .next (.refl _)

theorem State.commitSeq_evolves {s : State} {i : Nat} {d : Drawn} : Evolves s (s.commitSeq i d) := by
  unfold State.commitSeq
  dsimp only
  refine .ite (.refl _) (.ite (.after State.endReq_evolves (.refl _)) (.ite (.refl _) (.ite ?_ ?_)))
  · refine .after State.settleDrain_evolves (.after State.pushOut_evolves (.after State.enter_evolves (.after State.pushOut_evolves ?_)))
    split
    · exact .after State.modLatch_evolves (.after State.setCtx_evolves (.after State.writeMisses_evolves (.refl _)))
    · exact .after State.setCtx_evolves (.after State.writeMisses_evolves (.refl _))
  · refine .after State.pushOut_evolves ?_
    split
    · exact .after State.modLatch_evolves (.after State.setCtx_evolves (.after State.writeMisses_evolves (.refl _)))
    · exact .after State.setCtx_evolves (.after State.writeMisses_evolves (.refl _))

theorem State.sendStep_evolves {s : State} {i : Nat} {k : Nat} {d : Drawn} : Evolves s (s.sendStep i k d) := by
  unfold State.sendStep
  dsimp only
  exact .after State.modCtx_evolves (.after State.mirrorRecord_evolves (.refl _))

theorem execStepCommit_evolves {part : Nat} {s : State} : Kept s (execStepCommit part s) := by
  unfold execStepCommit
  dsimp only
  split
  · exact .next (.refl _)
  · split
    · refine .ite (.next (.refl _)) (.ite ?_ ?_)
      · refine .next (.foldl _ ?_ (fun _ _ => ?_))
        · exact .refl _
        · split
          · exact .after State.sendStep_evolves (.refl _)
          · exact .refl _
      · refine .ite (.next (.refl _)) (.next (.after State.boundary_evolves (.after State.modPart_evolves (.after State.modPc_evolves (.after State.bump_evolves (.foldl _ ?_ (fun _ _ => ?_)))))))
        · exact .refl _
        · exact .after State.commitSeq_evolves (.refl _)
    · exact .next (.refl _)

theorem State.nack_evolves {s : State} {p : FPkt} {reason : Nat} : Evolves s (s.nack p reason) := by
  unfold State.nack
  exact .after State.respond_evolves (.refl _)

theorem State.pendingAns_evolves {s : State} {p : FPkt} : Evolves s (s.pendingAns p) := by
  unfold State.pendingAns
  exact .after State.respond_evolves (.refl _)

theorem State.wantTier_evolves {s : State} {op : Nat} {p : FPkt} : Evolves s (s.wantTier op p) := by
  unfold State.wantTier
  refine .after State.pendingAns_evolves ?_
  with_reducible refine .upd rfl rfl rfl rfl rfl rfl rfl rfl rfl rfl rfl rfl ?_
  exact .refl _

theorem State.homeRead_evolves {s : State} {p : FPkt} : Evolves s (s.homeRead p) := by
  unfold State.homeRead
  dsimp only
  refine .ite (.after State.nack_evolves (.refl _)) ?_
  split
  · exact .ite (.after State.respond_evolves (.refl _)) (.after State.nack_evolves (.refl _))
  · split
    · split
      · exact .after State.wantTier_evolves (.refl _)
      · exact .after State.pendingAns_evolves (.after State.issueTier_evolves (.refl _))
    · refine .ite (.after State.nack_evolves (.refl _)) ?_
      split
      · exact .after State.respond_evolves (.after (Evolves.snd ‹State.readSector _ _ = _› State.readSector_evolves) (.refl _))
      · exact .after State.wantTier_evolves (.after (Evolves.snd ‹State.readSector _ _ = _› State.readSector_evolves) (.refl _))
      · exact .after State.respond_evolves (.after State.bump_evolves (.after (Evolves.snd ‹State.readSector _ _ = _› State.readSector_evolves) (.refl _)))
  · exact .ite (.after State.respond_evolves (.after State.nextFree_evolves (.refl _))) (.after State.nack_evolves (.refl _))

theorem State.failCopy_evolves {s : State} {i : Nat} {status : Nat} : Evolves s (s.failCopy i status) := by
  unfold State.failCopy
  dsimp only
  split
  · exact .after State.dropCopy_evolves (.ite (.refl _) (.after State.oneWay_evolves (.refl _)))
  · exact .refl _

theorem State.homeWrite_evolves {s : State} {p : FPkt} : ∀ (t : State), s.homeWrite p = some t → Evolves s t := by
  intro t h
  unfold State.homeWrite at h
  dsimp only at h
  split at h
  · cases h; exact .after State.nack_evolves (.refl _)
  · split at h
    · split at h
      · split at h
        · cases h
        · split at h
          · rename_i hc
            cases h
            refine .after State.respond_evolves ?_
            exact Evolves.snd hc State.contribute_evolves
          · rename_i hc
            cases h
            refine .after State.nack_evolves ?_
            exact Evolves.snd hc State.contribute_evolves
      · split at h
        · split at h
          · rename_i hb
            cases h
            refine .after State.respond_evolves (.after State.putLine_evolves ?_)
            exact Evolves.snd hb State.backExt_evolves
          · rename_i hb
            cases h
            exact .ite (.after State.failCopy_evolves (Evolves.snd hb State.backExt_evolves)) (.after State.failDest_evolves (Evolves.snd hb State.backExt_evolves))
        · split at h
          · cases h; exact .after State.respond_evolves (.after State.putLine_evolves (.refl _))
          · cases h; exact .after State.nack_evolves (.refl _)
    · cases h; exact .after State.nack_evolves (.refl _)
    · cases h; exact .ite (.after State.respond_evolves (.refl _)) (.after State.nack_evolves (.refl _))

theorem State.homeAtomic_evolves {s : State} {p : FPkt} : Evolves s (s.homeAtomic p) := by
  unfold State.homeAtomic
  refine .ite (.after State.nack_evolves (.refl _)) ?_
  split
  · refine .ite ?_ (.after State.nack_evolves (.refl _))
    split
    · exact .after State.respond_evolves (.after (Evolves.snd ‹State.doAtomic _ _ _ _ _ = _› State.doAtomic_evolves) (.refl _))
    · exact .after State.respond_evolves (.after (Evolves.snd ‹State.doAtomic _ _ _ _ _ = _› State.doAtomic_evolves) (.refl _))
  · exact .after State.nack_evolves (.refl _)
  · exact .ite (.after State.respond_evolves (.after State.nextFree_evolves (.refl _))) (.after State.nack_evolves (.refl _))

theorem State.publish_evolves {s : State} {off : Nat} {count : Nat} {base : Nat} {job : Nat} {asHost : Bool} : Evolves s (s.publish off count base job asHost).2.2.2 := by
  unfold State.publish
  dsimp only
  split
  · split
    · dsimp only
      exact .refl _
    · dsimp only
      exact .refl _
  · split
    · dsimp only
      exact .after State.bump_evolves (.refl _)
    · dsimp only
      with_reducible refine .upd rfl rfl rfl rfl rfl rfl rfl rfl rfl rfl rfl rfl ?_
      exact .refl _

theorem State.homePublish_evolves {s : State} {p : FPkt} : Evolves s (s.homePublish p) := by
  unfold State.homePublish
  dsimp only
  exact .ite (.after State.nack_evolves (.refl _)) (.ite (.after State.nack_evolves (.refl _)) (.after State.respond_evolves (.after State.publish_evolves (.refl _))))

theorem State.homeVersion_evolves {s : State} {p : FPkt} : Evolves s (s.homeVersion p) := by
  unfold State.homeVersion
  split
  · exact .after State.respond_evolves (.refl _)
  · exact .after State.nack_evolves (.refl _)

theorem State.onHinge_evolves {s : State} {h : HHdr} {m : HMsg} {twin : List TwinCopy} : Evolves s (s.onHinge h m twin) := by
  unfold State.onHinge
  split
  · exact .after State.onOpening_evolves (.refl _)
  · exact .after State.onOpeningResponse_evolves (.refl _)
  · exact .after State.onRefuse_evolves (.refl _)
  · exact .after State.onPrepare_evolves (.refl _)
  · exact .after State.onReady_evolves (.refl _)
  · exact .after State.onCommit_evolves (.refl _)
  · exact .after State.onCommitAck_evolves (.refl _)
  · exact .after State.onAbandon_evolves (.refl _)
  · exact .after State.onAbandonAck_evolves (.refl _)
  · exact .after State.onWithdraw_evolves (.refl _)
  · exact .after State.onRedirect_evolves (.refl _)
  · exact .after State.onQuery_evolves (.refl _)

theorem State.perform_evolves {s : State} {p : FPkt} {twin : List TwinCopy} : ∀ (t : State), s.perform p twin = some t → Evolves s t := by
  intro t h
  unfold State.perform at h
  split at h
  · cases h; exact .after State.nack_evolves (.refl _)
  split at h
  · cases h; exact .after State.nack_evolves (.refl _)
  · split at h
    · cases h; exact .after State.homeRead_evolves (.refl _)
    · exact State.homeWrite_evolves _ h
    · cases h; exact .after State.homeAtomic_evolves (.refl _)
    · cases h; exact .after State.homePublish_evolves (.refl _)
    · cases h; exact .after State.homeVersion_evolves (.refl _)
    · split at h
      · cases h; exact .after State.onHinge_evolves (.refl _)
      · cases h; exact .after State.nack_evolves (.refl _)

theorem State.runEarly_evolves {src : Nat} {a : Nat} {x2 : State} : Evolves x2 (State.runEarly src a x2) := by
  induction a generalizing x2 with
  | zero => exact .refl _
  | succ n ih =>
    unfold State.runEarly
    dsimp only
    split
    · exact .refl _
    · split
      · rename_i h
        refine .after ih (.after (State.perform_evolves _ h) ?_)
        with_reducible refine .upd rfl rfl rfl rfl rfl rfl rfl rfl rfl rfl rfl rfl ?_
        exact .refl _
      · exact .refl _

theorem State.requestIn_evolves {s : State} {l : Nat} {p : FPkt} {twin : optParam (List TwinCopy) []} : Evolves s (s.requestIn l p twin) := by
  unfold State.requestIn
  dsimp only
  refine .ite (.refl _) (.ite (.after State.heardFrom_evolves (.after State.takeRx_evolves (.refl _))) (.ite (.after State.nack_evolves (.after State.bump_evolves (.after State.heardFrom_evolves (.after State.takeRx_evolves (.refl _))))) (.ite ?_ ?_)))
  · split
    · refine .after State.runEarly_evolves (.after (State.perform_evolves _ ‹_›) ?_)
      with_reducible refine .upd rfl rfl rfl rfl rfl rfl rfl rfl rfl rfl rfl rfl ?_
      exact .after State.heardFrom_evolves (.after State.takeRx_evolves (.refl _))
    · exact .refl _
  · refine .ite ?_ (.after State.heardFrom_evolves (.after State.takeRx_evolves (.refl _)))
    with_reducible refine .upd rfl rfl rfl rfl rfl rfl rfl rfl rfl rfl rfl rfl ?_
    exact .after State.heardFrom_evolves (.after State.takeRx_evolves (.refl _))

theorem State.hingeIn_evolves {s : State} {h : HHdr} {m : HMsg} {twin : optParam (List TwinCopy) []} : Evolves s (s.hingeIn h m twin) := by
  unfold State.hingeIn
  dsimp only
  exact .after State.requestIn_evolves (.refl _)

theorem State.mgmtVia_evolves {s : State} {l : Nat} {dst : Nat} {m : MMsg} : Evolves s (s.mgmtVia l dst m) := by
  unfold State.mgmtVia
  exact .after State.enqueue_evolves (.refl _)

theorem State.probe_evolves {s : State} {n : Nat} : Evolves s (s.probe n) := by
  unfold State.probe
  dsimp only
  refine .foldl _ ?_ (fun _ _ => ?_)
  · exact .after State.setNode_evolves (.refl _)
  · exact .after State.mgmtVia_evolves (.refl _)

theorem State.suspect_evolves {s : State} {n : Nat} : Evolves s (s.suspect n) := by
  unfold State.suspect
  dsimp only
  exact .ite (.after State.probe_evolves (.after State.modNode_evolves (.after State.adopt_evolves (.refl _)))) (.refl _)

theorem State.sendPublish_evolves {s : State} {f : Inflight} {node : Nat} {off : Nat} {count : Nat} {base : Nat} {job : Nat} {asHost : Bool} : Evolves s (s.sendPublish f node off count base job asHost) := by
  unfold State.sendPublish
  dsimp only
  exact .ite (.after State.finish_evolves (.after State.publish_evolves (.refl _))) (.ite (.after State.finish_evolves (.refl _)) (.after State.request_evolves (.after State.setWait_evolves (.refl _))))

theorem State.settleFences_evolves {s : State} : Evolves s s.settleFences := by
  unfold State.settleFences
  refine .foldl _ ?_ (fun _ _ => ?_)
  · exact .refl _
  · split
    · exact .ite (.refl _) (.after State.finish_evolves (.refl _))
    · exact .ite (.refl _) (.after State.sendPublish_evolves (.refl _))
    · exact .refl _

theorem State.staleFences_evolves {s : State} {tag : Nat} : Evolves s (s.staleFences tag) := by
  unfold State.staleFences
  exact .after State.finishAll_evolves (.refl _)

theorem State.deadRaw_evolves {s : State} {t : Txn} {cause : Nat} : Evolves s (s.deadRaw t cause) := by
  unfold State.deadRaw
  dsimp only
  split
  · exact .after State.rawFault_evolves (.ite (.after State.lineIn_evolves (.after State.rlcAck_evolves (.refl _))) (.ite (.after State.lineIn_evolves (.refl _)) (.after State.lineIn_evolves (.refl _))))
  · exact .refl _

theorem State.refusedRaw_evolves {s : State} {pc : Nat} {rank : Nat} {eng : Nat} {key : Nat} {reason : Nat} {ea : Nat} : Evolves s (s.refusedRaw pc rank eng key reason ea) := by
  unfold State.refusedRaw
  dsimp only
  split
  · exact .after State.resetProg_evolves (.refl _)
  · exact .refl _

theorem State.refusedCmd_evolves {s : State} {c : Nat} {reason : Nat} : Evolves s (s.refusedCmd c reason) := by
  unfold State.refusedCmd
  split
  · exact .ite (.after State.finishId_evolves (.refl _)) (.refl _)
  · exact .ite (.after State.finishId_evolves (.refl _)) (.ite (.after State.finishId_evolves (.after State.nextFree_evolves (.refl _))) (.after State.finishId_evolves (.refl _)))
  · exact .refl _

theorem State.nackIn_evolves {s : State} {t : Txn} {reason : Nat} : Evolves s (s.nackIn t reason) := by
  unfold State.nackIn
  dsimp only
  split
  · exact .ite (.after State.deadRaw_evolves (.refl _)) (.after State.refusedRaw_evolves (.refl _))
  · exact .after State.refusedCmd_evolves (.refl _)
  · exact .ite (.after State.sessError_evolves (.refl _)) (.refl _)
  · exact .after State.runEnd_evolves (.refl _)
  · exact .after State.runEnd_evolves (.refl _)
  · exact .refl _
  · split
    · exact .ite (.after State.endReq_evolves (.refl _)) (.refl _)
    · exact .refl _

theorem State.dataIn_evolves {s : State} {t : Txn} {p : FPkt} : Evolves s (s.dataIn t p) := by
  unfold State.dataIn
  dsimp only
  split
  · exact .ite (.after State.lineIn_evolves (.after State.rlcTake_evolves (.refl _))) (.after State.lineIn_evolves (.after State.rlcTake_evolves (.refl _)))
  · exact .after State.pullIn_evolves (.refl _)
  · exact .after State.runLine_evolves (.refl _)
  · exact .refl _

theorem State.ackIn_evolves {s : State} {t : Txn} : Evolves s (s.ackIn t) := by
  unfold State.ackIn
  dsimp only
  split
  · exact .after State.lineIn_evolves (.after State.rlcAck_evolves (.refl _))
  · exact .after State.rlcAck_evolves (.refl _)
  · exact .after State.pushAck_evolves (.refl _)
  · exact .after State.settleRun_evolves (.after State.setSess_evolves (.refl _))
  · exact .refl _

theorem State.atomIn_evolves {s : State} {t : Txn} {p : FPkt} : Evolves s (s.atomIn t p) := by
  unfold State.atomIn
  split
  · exact .after State.lineIn_evolves (.refl _)
  · exact .refl _

theorem State.publishIn_evolves {s : State} {t : Txn} {p : FPkt} : Evolves s (s.publishIn t p) := by
  unfold State.publishIn
  split
  · exact .after State.finishId_evolves (.refl _)
  · exact .refl _

theorem State.acquired_evolves {s : State} {c : Nat} {node : Nat} {off : Nat} {len : Nat} {ver : Nat} : Evolves s (s.acquired c node off len ver) := by
  unfold State.acquired
  exact .after State.finishId_evolves (.after State.rlcDrop_evolves (.refl _))

theorem State.versionIn_evolves {s : State} {t : Txn} {p : FPkt} : Evolves s (s.versionIn t p) := by
  unfold State.versionIn
  split
  · split
    · exact .after State.acquired_evolves (.refl _)
    · exact .refl _
  · exact .refl _

theorem State.responseIn_evolves : ∀ {s : State} {l : Nat} {p : FPkt} {f : State → Txn → State}, (∀ s t, Evolves s (f s t)) → Evolves s (s.responseIn l p f) := by
  intro s l p f h
  unfold State.responseIn
  split
  · exact .refl _
  · dsimp only
    split
    · exact .after State.heardFrom_evolves (.after State.takeRx_evolves (.refl _))
    · split
      · split
        · refine .after State.settleFences_evolves (.after (h _ _) ?_)
          exact .after State.heardFrom_evolves (.after State.takeRx_evolves (.refl _))
        · exact .after State.heardFrom_evolves (.after State.takeRx_evolves (.refl _))
      · exact .after State.heardFrom_evolves (.after State.takeRx_evolves (.refl _))

theorem State.answerIn_evolves : ∀ {s : State} {l : Nat} {p : FPkt} {reqs : List Nat} {f : State → Txn → State}, (∀ s t, Evolves s (f s t)) → Evolves s (s.answerIn l p reqs f) := by
  intro s l p reqs f h
  unfold State.answerIn
  refine State.responseIn_evolves fun s t => ?_
  split
  · refine .after (h _ _) ?_
    exact .after State.dropTxn_evolves (.refl _)
  · exact .refl _

theorem onType_evolves : ∀ {n : Nat} {p : FPkt} {s t : State}, Evolves s t → Kept s (onType n p s t) := by
  intro n p s t h
  unfold onType
  exact .ite (.next h) (.next (.refl _))

theorem execRead_evolves {l : Nat} {p : FPkt} {s : State} : Kept s (execRead l p s) := by
  unfold execRead
  exact onType_evolves (.after State.requestIn_evolves (.refl _))

theorem execWrite_evolves {l : Nat} {p : FPkt} {s : State} : Kept s (execWrite l p s) := by
  unfold execWrite
  exact onType_evolves (.after State.requestIn_evolves (.refl _))

theorem execAtomic_evolves {l : Nat} {p : FPkt} {s : State} : Kept s (execAtomic l p s) := by
  unfold execAtomic
  exact onType_evolves (.after State.requestIn_evolves (.refl _))

theorem execPublishPacket_evolves {l : Nat} {p : FPkt} {s : State} : Kept s (execPublishPacket l p s) := by
  unfold execPublishPacket
  exact onType_evolves (.after State.requestIn_evolves (.refl _))

theorem execVersionRead_evolves {l : Nat} {p : FPkt} {s : State} : Kept s (execVersionRead l p s) := by
  unfold execVersionRead
  exact onType_evolves (.after State.requestIn_evolves (.refl _))

theorem execReadData_evolves {l : Nat} {p : FPkt} {s : State} : Kept s (execReadData l p s) := by
  unfold execReadData
  refine onType_evolves (.after (State.answerIn_evolves ?_) (.refl _))
  intros
  exact .after State.dataIn_evolves (.refl _)

theorem execAck_evolves {l : Nat} {p : FPkt} {s : State} : Kept s (execAck l p s) := by
  unfold execAck
  refine onType_evolves (.after (State.answerIn_evolves ?_) (.refl _))
  intros
  exact .after State.ackIn_evolves (.refl _)

theorem execAtomicData_evolves {l : Nat} {p : FPkt} {s : State} : Kept s (execAtomicData l p s) := by
  unfold execAtomicData
  refine onType_evolves (.after (State.answerIn_evolves ?_) (.refl _))
  intros
  exact .after State.atomIn_evolves (.refl _)

theorem execPublishResp_evolves {l : Nat} {p : FPkt} {s : State} : Kept s (execPublishResp l p s) := by
  unfold execPublishResp
  refine onType_evolves (.after (State.answerIn_evolves ?_) (.refl _))
  intros
  exact .after State.publishIn_evolves (.refl _)

theorem execVersionData_evolves {l : Nat} {p : FPkt} {s : State} : Kept s (execVersionData l p s) := by
  unfold execVersionData
  refine onType_evolves (.after (State.answerIn_evolves ?_) (.refl _))
  intros
  exact .after State.versionIn_evolves (.refl _)

theorem execNack_evolves {l : Nat} {p : FPkt} {s : State} : Kept s (execNack l p s) := by
  unfold execNack
  refine onType_evolves (.after (State.answerIn_evolves ?_) (.refl _))
  intros
  exact .after State.nackIn_evolves (.ite (.after State.staleFences_evolves (.refl _)) (.refl _))

theorem execPendingRsp_evolves {l : Nat} {p : FPkt} {s : State} : Kept s (execPendingRsp l p s) := by
  unfold execPendingRsp
  dsimp only
  refine onType_evolves (.after (State.responseIn_evolves ?_) (.refl _))
  intros
  refine .ite ?_ (.refl _)
  with_reducible refine .upd rfl rfl rfl rfl rfl rfl rfl rfl rfl rfl rfl rfl ?_
  exact .refl _

theorem execFabricTxnTimeout_evolves {txn : Nat} {s : State} : Kept s (execFabricTxnTimeout txn s) := by
  unfold execFabricTxnTimeout
  dsimp only
  split
  · exact .next (.refl _)
  · refine .ite (.next (.refl _)) (.next (.after State.settleFences_evolves ?_))
    split
    · exact .after State.deadRaw_evolves (.after State.dropTxn_evolves (.after State.suspect_evolves (.refl _)))
    · exact .after State.sessError_evolves (.after State.dropTxn_evolves (.after State.suspect_evolves (.refl _)))
    · exact .after State.rlcAck_evolves (.after State.dropTxn_evolves (.after State.suspect_evolves (.refl _)))
    · exact .ite (.after State.dropTxn_evolves (.after State.suspect_evolves (.refl _))) (.after State.issue_evolves (.after State.dropTxn_evolves (.after State.suspect_evolves (.refl _))))

theorem execTwinInvalidate_evolves {addr : Nat} {s : State} : Kept s (execTwinInvalidate addr s) := by
  unfold execTwinInvalidate
  exact .ite (.next (.after State.rlcDrop_evolves (.refl _))) (.next (.refl _))

theorem execRegionOpening_evolves {h : HHdr} {f : ReqFixed} {model : List Byte} {delta : List Byte} {grammar : List Byte} {age : Nat} {srcHandle : Nat} {move : Bool} {src : List (Nat × Nat)} {rows : Nat} {mirror : Option (Nat × Nat)} {s : State} : Kept s (execRegionOpening h f model delta grammar age srcHandle move src rows mirror s) := by
  unfold execRegionOpening
  exact .next (.after State.hingeIn_evolves (.refl _))

theorem execOpeningResponse_evolves {h : HHdr} {ok : Bool} {status : Nat} {handle : Nat} {base : Nat} {rows : Nat} {s : State} : Kept s (execOpeningResponse h ok status handle base rows s) := by
  unfold execOpeningResponse
  exact .ite (.next (.after State.hingeIn_evolves (.refl _))) (.next (.after State.hingeIn_evolves (.refl _)))

theorem execPrepare_evolves {h : HHdr} {m : ReqMoving} {age : Nat} {stamp : Nat} {moves : Nat} {s : State} : Kept s (execPrepare h m age stamp moves s) := by
  unfold execPrepare
  exact .next (.after State.hingeIn_evolves (.refl _))

theorem execReady_evolves {h : HHdr} {destHandle : Nat} {s : State} : Kept s (execReady h destHandle s) := by
  unfold execReady
  exact .next (.after State.hingeIn_evolves (.refl _))

theorem execCommit_evolves {h : HHdr} {age : Nat} {s : State} : Kept s (execCommit h age s) := by
  unfold execCommit
  exact .next (.after State.hingeIn_evolves (.refl _))

theorem execCommitAck_evolves {h : HHdr} {s : State} : Kept s (execCommitAck h s) := by
  unfold execCommitAck
  exact .next (.after State.hingeIn_evolves (.refl _))

theorem execRefuse_evolves {h : HHdr} {status : Nat} {s : State} : Kept s (execRefuse h status s) := by
  unfold execRefuse
  exact .next (.after State.hingeIn_evolves (.refl _))

theorem execAbandon_evolves {h : HHdr} {status : Nat} {s : State} : Kept s (execAbandon h status s) := by
  unfold execAbandon
  exact .next (.after State.hingeIn_evolves (.refl _))

theorem execAbandonAck_evolves {h : HHdr} {s : State} : Kept s (execAbandonAck h s) := by
  unfold execAbandonAck
  exact .next (.after State.hingeIn_evolves (.refl _))

theorem execWithdraw_evolves {h : HHdr} {s : State} : Kept s (execWithdraw h s) := by
  unfold execWithdraw
  exact .next (.after State.hingeIn_evolves (.refl _))

theorem execRedirect_evolves {h : HHdr} {node : Nat} {handle : Nat} {s : State} : Kept s (execRedirect h node handle s) := by
  unfold execRedirect
  exact .next (.after State.hingeIn_evolves (.refl _))

theorem execSourceQuery_evolves {h : HHdr} {twin : List TwinCopy} {s : State} : Kept s (execSourceQuery h twin s) := by
  unfold execSourceQuery
  exact .next (.after State.hingeIn_evolves (.refl _))

theorem rowFlushRange_evolves {p : Pkt} {id : Nat} {s : State} (_hv : rowFlushRange.verdict p s = none) : DoneKept s (rowFlushRange.act p id s) := by
  unfold rowFlushRange
  dsimp only
  exact .ite (.done (.refl _)) (.wait (.refl _))

theorem execFlushRange_evolves {p : Pkt} {s : State} : Kept s (execFlushRange p s) := by
  unfold execFlushRange
  refine .next (.after (hostCommand_evolves ?_) (.refl _))
  intros
  exact rowFlushRange_evolves ‹_›

theorem rowAcquireRange_evolves {p : Pkt} {id : Nat} {s : State} (_hv : rowAcquireRange.verdict p s = none) : DoneKept s (rowAcquireRange.act p id s) := by
  unfold rowAcquireRange
  dsimp only
  exact .ite (.wait (.ite (.refl _) (.after State.request_evolves (.refl _)))) (.done (.after State.rlcDrop_evolves (.refl _)))

theorem execAcquireRange_evolves {p : Pkt} {s : State} : Kept s (execAcquireRange p s) := by
  unfold execAcquireRange
  refine .next (.after (hostCommand_evolves ?_) (.refl _))
  intros
  exact rowAcquireRange_evolves ‹_›

theorem rowPublish_evolves {p : Pkt} {id : Nat} {s : State} (_hv : rowPublish.verdict p s = none) : DoneKept s (rowPublish.act p id s) := by
  unfold rowPublish
  dsimp only
  exact .ite (.done (.after State.publish_evolves (.refl _))) (.ite (.done (.refl _)) (.ite (.wait (.after State.request_evolves (.refl _))) (.wait (.refl _))))

theorem execPublish_evolves {p : Pkt} {s : State} : Kept s (execPublish p s) := by
  unfold execPublish
  refine .next (.after (hostCommand_evolves ?_) (.refl _))
  intros
  exact rowPublish_evolves ‹_›

theorem rowQueryNode_evolves {p : Pkt} {id : Nat} {s : State} (_hv : rowQueryNode.verdict p s = none) : DoneKept s (rowQueryNode.act p id s) := by
  unfold rowQueryNode
  dsimp only
  exact .done (.refl _)

theorem execQueryNode_evolves {p : Pkt} {s : State} : Kept s (execQueryNode p s) := by
  unfold execQueryNode
  refine .next (.after (hostCommand_evolves ?_) (.refl _))
  intros
  exact rowQueryNode_evolves ‹_›

end Sys2Proof.Machine
end

