-- ==== Sys2Proof/Laws/EvolvesFence.lean ====
section
/-! SUPPORT. What the operations of Fence, Identity, Service, Keyval, Liveness keep (`Laws/Evolves.lean`). -/

namespace Sys2Proof.Machine

theorem State.loseReq_evolves {s : State} {i : Nat} : Evolves s (s.loseReq i) := by
  unfold State.loseReq
  split
  · exact .ite (.after State.failCopy_evolves (.refl _)) (.after State.endReq_evolves (.refl _))
  · exact .after State.endReq_evolves (.refl _)

theorem State.loseReqs_evolves {s : State} {p : Nat → Ctx → Bool} : Evolves s (s.loseReqs p) := by
  unfold State.loseReqs
  refine .foldl _ ?_ (fun _ _ => ?_)
  · exact .refl _
  · exact .after State.loseReq_evolves (.refl _)

theorem State.dropImages_evolves {s : State} {st : List Nat} : Evolves s (s.dropImages st) := by
  unfold State.dropImages
  dsimp only
  refine .foldl _ ?_ (fun _ _ => ?_)
  · refine .foldl _ ?_ (fun _ _ => ?_)
    · refine .foldl _ ?_ (fun _ _ => ?_)
      · exact .refl _
      · exact .after State.endProg_evolves (.refl _)
    · split
      · refine .after State.releaseObject_evolves ?_
        with_reducible refine .upd rfl rfl rfl rfl rfl rfl rfl rfl rfl rfl rfl rfl ?_
        exact .refl _
      · exact .refl _
  · exact .after State.recompute_evolves (.after State.modPart_evolves (.refl _))

theorem State.dropObjects_evolves {s : State} {st : List Nat} : Evolves s (s.dropObjects st) := by
  unfold State.dropObjects
  dsimp only
  refine .foldl _ ?_ (fun _ _ => ?_)
  · refine .foldl _ ?_ (fun _ _ => ?_)
    · refine .foldl _ ?_ (fun _ _ => ?_)
      · refine .foldl _ ?_ (fun _ _ => ?_)
        · exact .after State.dropImages_evolves (.refl _)
        · split
          · refine .after State.releaseObject_evolves ?_
            with_reducible refine .upd rfl rfl rfl rfl rfl rfl rfl rfl rfl rfl rfl rfl ?_
            exact .refl _
          · exact .refl _
      · split
        · refine .foldl _ ?_ (fun _ _ => ?_)
          · with_reducible refine .upd rfl rfl rfl rfl rfl rfl rfl rfl rfl rfl rfl rfl ?_
            exact .refl _
          · exact .after State.releaseObject_evolves (.refl _)
        · exact .refl _
    · split
      · refine .after State.releaseObject_evolves ?_
        with_reducible refine .upd rfl rfl rfl rfl rfl rfl rfl rfl rfl rfl rfl rfl ?_
        exact .refl _
      · exact .refl _
  · split
    · refine .after State.releaseObject_evolves (.after State.dropIndex_evolves ?_)
      with_reducible refine .upd rfl rfl rfl rfl rfl rfl rfl rfl rfl rfl rfl rfl ?_
      exact .refl _
    · exact .refl _

theorem State.loseStacks_evolves {s : State} {st : List Nat} : Evolves s (s.loseStacks st) := by
  unfold State.loseStacks
  dsimp only
  refine .after State.settleRevokes_evolves (.foldl _ ?_ (fun _ _ => ?_))
  · refine .after State.trimFrames_evolves ?_
    with_reducible refine .upd rfl rfl rfl rfl rfl rfl rfl rfl rfl rfl rfl rfl ?_
    refine .foldl _ ?_ (fun _ _ => ?_)
    · exact .refl _
    · exact .after State.releaseExt_evolves (.after State.stopRing_evolves (.refl _))
  · refine .gen rfl rfl rfl rfl rfl rfl rfl rfl rfl rfl rfl rfl (fun h => Mem.zero_wf h _ _) id id id id List.prefix_rfl List.prefix_rfl ?_
    exact .refl _

theorem State.loseFabricDie_evolves {s : State} {m : Nat} : Evolves s (s.loseFabricDie m) := by
  unfold State.loseFabricDie
  dsimp only
  with_reducible refine .upd rfl rfl rfl rfl rfl rfl rfl rfl rfl rfl rfl rfl ?_
  refine .after State.closeSessions_evolves ?_
  with_reducible refine .upd rfl rfl rfl rfl rfl rfl rfl rfl rfl rfl rfl rfl ?_
  refine .foldl _ ?_ (fun _ _ => ?_)
  · exact .refl _
  · exact .after State.clearPort_evolves (.after State.portTo_evolves (.refl _))

theorem State.losePartitions_evolves {s : State} {sl : List Nat} : Evolves s (s.losePartitions sl) := by
  unfold State.losePartitions
  dsimp only
  refine .foldl _ ?_ (fun _ _ => ?_)
  · refine .foldl _ ?_ (fun _ _ => ?_)
    · exact .refl _
    · exact .after State.endProg_evolves (.refl _)
  · exact .after State.finishPart_evolves (.after State.modPart_evolves (.refl _))

theorem State.loseSlices_evolves {s : State} {d : Nat} {js : List Nat} : Evolves s (s.loseSlices d js) := by
  unfold State.loseSlices
  dsimp only
  refine .after State.losePartitions_evolves (.ite ?_ ?_)
  · refine .after State.loseFabricDie_evolves (.after State.loseStacks_evolves (.after State.dropObjects_evolves (.foldl _ ?_ (fun _ _ => ?_))))
    · exact .after State.loseReqs_evolves (.refl _)
    · exact .after State.detectFault_evolves (.refl _)
  · refine .after State.loseStacks_evolves (.after State.dropObjects_evolves (.foldl _ ?_ (fun _ _ => ?_)))
    · exact .after State.loseReqs_evolves (.refl _)
    · exact .after State.detectFault_evolves (.refl _)

theorem State.fenceDie_evolves {s : State} {d : Nat} {cause : Nat} : Evolves s (s.fenceDie d cause) := by
  unfold State.fenceDie
  split
  · exact .refl _
  · have key : Evolves s { s with rcv := { s.rcv with fenced := NSet.add s.rcv.fenced d } } :=
      .rcv id (fun _ h => NSet.contains_add h _) id
    refine key.trans ?_
    generalize ({ s with rcv := { s.rcv with fenced := NSet.add s.rcv.fenced d } } : State) = u
    generalize ((((dieSlices d).filter fun k => !s.sliceLost k).map s.sliceJob).eraseDups.filter (· != 0)) = js
    generalize s.liveReqs = live
    dsimp only
    refine .ite ?_ ?_
    · refine .after State.fatalStop_evolves (.after State.postEvent_evolves (.ite ?_ ?_))
      · refine .ite (.after State.loseSlices_evolves (.refl _)) (.ite (.refl _) (.foldl _ ?_ (fun _ _ => ?_)))
        · exact .refl _
        · exact .ite (.after State.loseTable_evolves (.refl _)) (.refl _)
      · refine .after State.capChanged_evolves (.ite (.after State.loseSlices_evolves (.refl _)) (.ite (.refl _) (.foldl _ ?_ (fun _ _ => ?_))))
        · exact .refl _
        · exact .ite (.after State.loseTable_evolves (.refl _)) (.refl _)
    · refine .after State.postEvent_evolves (.ite ?_ ?_)
      · refine .ite (.after State.loseSlices_evolves (.refl _)) (.ite (.refl _) (.foldl _ ?_ (fun _ _ => ?_)))
        · exact .refl _
        · exact .ite (.after State.loseTable_evolves (.refl _)) (.refl _)
      · refine .after State.capChanged_evolves (.ite (.after State.loseSlices_evolves (.refl _)) (.ite (.refl _) (.foldl _ ?_ (fun _ _ => ?_))))
        · exact .refl _
        · exact .ite (.after State.loseTable_evolves (.refl _)) (.refl _)

theorem execDieHeartbeatTimeout_evolves {die : Nat} {s : State} : Kept s (execDieHeartbeatTimeout die s) := by
  unfold execDieHeartbeatTimeout
  exact .ite (.next (.after State.fenceDie_evolves (.after State.adopt_evolves (.refl _)))) (.next (.refl _))

theorem State.burnSubtree_evolves {s : State} : Evolves s s.burnSubtree := by
  unfold State.burnSubtree
  dsimp only
  split
  · exact .idn id rfl (Nat.le_refl _) (Nat.le_refl _) (fun _ => ⟨rfl, Nat.le_refl _⟩) (fun _ h => by cases h)
  · have key : Evolves s { s with idn := { s.idn with subtree := s.idn.thermo, thermo := s.idn.thermo + 1, leaf := 0, signing := false } } :=
      .idn id rfl (Nat.le_refl _) (Nat.le_succ _) (fun h => absurd h (Nat.succ_ne_self _)) (fun _ h => by cases h)
    refine key.trans ?_
    generalize ({ s with idn := { s.idn with subtree := s.idn.thermo, thermo := s.idn.thermo + 1, leaf := 0, signing := false } } : State) = u
    exact .ite (.after State.postEvent_evolves (.refl _)) (.refl _)

theorem State.setMeas_evolves {s : State} {i : Nat} {d : List Byte} : Evolves s (s.setMeas i d) := by
  unfold State.setMeas
  dsimp only
  with_reducible refine .upd rfl rfl rfl rfl rfl rfl rfl rfl rfl rfl rfl rfl ?_
  exact .refl _

theorem State.recordFuses_evolves {s : State} : Evolves s s.recordFuses := by
  unfold State.recordFuses
  exact .ite (.after State.setMeas_evolves (.refl _)) (.refl _)

theorem State.bootStops_evolves {s : State} : Evolves s s.bootStops := by
  unfold State.bootStops
  dsimp only
  refine .after State.fatalStop_evolves ?_
  with_reducible refine .upd rfl rfl rfl rfl rfl rfl rfl rfl rfl rfl rfl rfl ?_
  exact .refl _

theorem execStage1Start_evolves {s : State} : Kept s (execStage1Start s) := by
  unfold execStage1Start
  dsimp only
  refine .ite ?_ (.next (.refl _))
  split
  · exact .next (.after State.bootStops_evolves (.refl _))
  · refine .next (.ite ?_ ?_)
    · refine .after State.burnSubtree_evolves (.after State.setMeas_evolves ?_)
      with_reducible refine .upd rfl rfl rfl rfl rfl rfl rfl rfl rfl rfl rfl rfl ?_
      exact .refl _
    · refine .after State.setMeas_evolves ?_
      with_reducible refine .upd rfl rfl rfl rfl rfl rfl rfl rfl rfl rfl rfl rfl ?_
      exact .refl _

theorem State.reserveCold_evolves {s : State} : Evolves s s.reserveCold := by
  unfold State.reserveCold
  dsimp only
  refine .foldl _ ?_ (fun _ _ => ?_)
  · with_reducible refine .upd rfl rfl rfl rfl rfl rfl rfl rfl rfl rfl rfl rfl ?_
    exact .refl _
  · split
    · with_reducible refine .upd rfl rfl rfl rfl rfl rfl rfl rfl rfl rfl rfl rfl ?_
      exact .after (Evolves.snd ‹State.findRun _ _ _ = _› State.findRun_evolves) (.refl _)
    · exact .after (Evolves.snd ‹State.findRun _ _ _ = _› State.findRun_evolves) (.refl _)

theorem State.coldReady_evolves {s : State} : Evolves s s.coldReady := by
  unfold State.coldReady
  dsimp only
  refine .ite (.ite ?_ ?_) (.refl _)
  · refine .after State.initiate_evolves ?_
    with_reducible refine .upd rfl rfl rfl rfl rfl rfl rfl rfl rfl rfl rfl rfl ?_
    exact .after State.reserveCold_evolves (.refl _)
  · with_reducible refine .upd rfl rfl rfl rfl rfl rfl rfl rfl rfl rfl rfl rfl ?_
    exact .after State.reserveCold_evolves (.refl _)

theorem execFirmwareImagesChecked_evolves {s : State} : Kept s (execFirmwareImagesChecked s) := by
  unfold execFirmwareImagesChecked
  dsimp only
  refine .ite (.ite ?_ ?_) (.next (.refl _))
  · refine .next (.after State.coldReady_evolves ?_)
    with_reducible refine .upd rfl rfl rfl rfl rfl rfl rfl rfl rfl rfl rfl rfl ?_
    exact .ite (.after State.recordFuses_evolves (.after State.setMeas_evolves (.after State.setMeas_evolves (.after State.setMeas_evolves (.refl _))))) (.after State.setMeas_evolves (.after State.setMeas_evolves (.after State.setMeas_evolves (.refl _))))
  · refine .next (.ite ?_ ?_)
    · refine .after State.bootStops_evolves ?_
      with_reducible refine .upd rfl rfl rfl rfl rfl rfl rfl rfl rfl rfl rfl rfl ?_
      exact .refl _
    · with_reducible refine .upd rfl rfl rfl rfl rfl rfl rfl rfl rfl rfl rfl rfl ?_
      exact .refl _

theorem execHbmTrainingComplete_evolves {failed : List Nat} {s : State} : Kept s (execHbmTrainingComplete failed s) := by
  unfold execHbmTrainingComplete
  dsimp only
  refine .ite (.next (.after State.coldReady_evolves (.foldl _ ?_ (fun _ _ => ?_)))) (.next (.refl _))
  · with_reducible refine .upd rfl rfl rfl rfl rfl rfl rfl rfl rfl rfl rfl rfl ?_
    exact .refl _
  · exact .after State.fenceDie_evolves (.refl _)

theorem State.useLeaf_evolves {s : State} : Evolves s s.useLeaf := by
  unfold State.useLeaf
  exact .after State.bump_evolves (.idn id rfl (Nat.le_refl _) (Nat.le_refl _) (fun _ => ⟨rfl, Nat.le_succ _⟩) id)

theorem State.signWay_evolves {s : State} : Evolves s s.signWay.2 := by
  unfold State.signWay
  dsimp only
  split
  · dsimp only
    exact .refl _
  · split
    · dsimp only
      exact .refl _
    · split
      · dsimp only
        exact .refl _
      · split
        · dsimp only
          exact .refl _
        · dsimp only
          exact .after State.burnSubtree_evolves (.refl _)

theorem State.serveEvidence_evolves {s : State} : Evolves s s.serveEvidence := by
  unfold State.serveEvidence
  refine .foldl _ ?_ (fun _ _ => ?_)
  · exact .refl _
  · split
    · split
      · exact .after State.finish_evolves (.after (Evolves.snd ‹State.signWay _ = _› State.signWay_evolves) (.refl _))
      · exact .after (Evolves.snd ‹State.signWay _ = _› State.signWay_evolves) (.refl _)
      · exact .after State.finish_evolves (.after State.useLeaf_evolves (.after (Evolves.snd ‹State.signWay _ = _› State.signWay_evolves) (.refl _)))
    · exact .refl _

theorem rowGetEvidence_evolves {p : Pkt} {id : Nat} {s : State} (_hv : rowGetEvidence.verdict p s = none) : DoneKept s (rowGetEvidence.act p id s) := by
  unfold rowGetEvidence
  dsimp only
  split
  · exact .done (.after (Evolves.snd ‹State.signWay _ = _› State.signWay_evolves) (.refl _))
  · exact .wait (.after (Evolves.snd ‹State.signWay _ = _› State.signWay_evolves) (.refl _))
  · exact .done (.after State.useLeaf_evolves (.after (Evolves.snd ‹State.signWay _ = _› State.signWay_evolves) (.refl _)))

theorem execGetEvidence_evolves {p : Pkt} {s : State} : Kept s (execGetEvidence p s) := by
  unfold execGetEvidence
  refine .next (.after (hostCommand_evolves ?_) (.refl _))
  intros
  exact rowGetEvidence_evolves ‹_›

theorem execSubtreeGenerated_evolves {s : State} : Kept s (execSubtreeGenerated s) := by
  unfold execSubtreeGenerated
  dsimp only
  split
  · rename_i h
    simp only [Bool.and_eq_true, decide_eq_true_eq] at h
    have key : s.recordFuses.idn.subtree = s.idn.subtree ∧ s.recordFuses.idn.thermo = s.idn.thermo := by
      unfold State.recordFuses State.setMeas
      split <;> exact ⟨rfl, rfl⟩
    refine .next (.after State.serveEvidence_evolves (.after (.idn id rfl (Nat.le_refl _) (Nat.le_refl _) (fun _ => ⟨rfl, Nat.le_refl _⟩) ?_) State.recordFuses_evolves))
    intro _ _
    dsimp only
    rw [key.1, key.2]
    exact h.2
  · exact .next (.refl _)

theorem rowGetCertificates_evolves {p : Pkt} {id : Nat} {s : State} (_hv : rowGetCertificates.verdict p s = none) : DoneKept s (rowGetCertificates.act p id s) := by
  unfold rowGetCertificates
  dsimp only
  exact .done (.refl _)

theorem execGetCertificates_evolves {p : Pkt} {s : State} : Kept s (execGetCertificates p s) := by
  unfold execGetCertificates
  refine .next (.after (hostCommand_evolves ?_) (.refl _))
  intros
  exact rowGetCertificates_evolves ‹_›

theorem State.spdmSend_evolves {s : State} {t : Transport} {bs : List Byte} : Evolves s (s.spdmSend t bs) := by
  unfold State.spdmSend
  dsimp only
  with_reducible refine .upd rfl rfl rfl rfl rfl rfl rfl rfl rfl rfl rfl rfl ?_
  exact .refl _

theorem State.setM_evolves {s : State} {t : Transport} {m : List Byte} : Evolves s (s.setM t m) := by
  unfold State.setM
  dsimp only
  refine .ite ?_ ?_
  · with_reducible refine .upd rfl rfl rfl rfl rfl rfl rfl rfl rfl rfl rfl rfl ?_
    exact .refl _
  · with_reducible refine .upd rfl rfl rfl rfl rfl rfl rfl rfl rfl rfl rfl rfl ?_
    exact .refl _

theorem execSpdmRequest_evolves {t : Transport} {r : SpdmReq} {s : State} : Kept s (execSpdmRequest t r s) := by
  unfold execSpdmRequest
  dsimp only
  exact .ite (.next (.refl _)) (.ite (.next (.after State.spdmSend_evolves (.refl _))) (.ite (.next (.after State.spdmSend_evolves (.refl _))) (.next (.after State.nextFree_evolves (.ite (.after State.setM_evolves (.after State.spdmSend_evolves (.refl _))) (.after State.spdmSend_evolves (.refl _)))))))

theorem execVendorDefinedRequest_evolves {t : Transport} {code : Nat} {s : State} : Kept s (execVendorDefinedRequest t code s) := by
  unfold execVendorDefinedRequest
  refine .ite (.next (.refl _)) (.ite (.next (.after State.spdmSend_evolves (.refl _))) ?_)
  split
  · exact .next (.after State.spdmSend_evolves (.refl _))
  · split
    · exact .next (.after State.spdmSend_evolves (.after (Evolves.snd ‹State.signWay _ = _› State.signWay_evolves) (.refl _)))
    · exact .next (.after State.spdmSend_evolves (.after (Evolves.snd ‹State.signWay _ = _› State.signWay_evolves) (.refl _)))
    · exact .next (.after State.useLeaf_evolves (.after State.spdmSend_evolves (.after (Evolves.snd ‹State.signWay _ = _› State.signWay_evolves) (.refl _))))

theorem execEntdaa_evolves {addr : Nat} {s : State} : Kept s (execEntdaa addr s) := by
  unfold execEntdaa
  dsimp only
  refine .ite (.next ?_) (.next (.refl _))
  with_reducible refine .upd rfl rfl rfl rfl rfl rfl rfl rfl rfl rfl rfl rfl ?_
  exact .refl _

theorem execRstdaa_evolves {s : State} : Kept s (execRstdaa s) := by
  unfold execRstdaa
  dsimp only
  refine .ite (.next ?_) (.next (.refl _))
  with_reducible refine .upd rfl rfl rfl rfl rfl rfl rfl rfl rfl rfl rfl rfl ?_
  exact .refl _

theorem execI3cBusReset_evolves {s : State} : Kept s (execI3cBusReset s) := by
  unfold execI3cBusReset
  dsimp only
  refine .ite (.next ?_) (.next (.refl _))
  with_reducible refine .upd rfl rfl rfl rfl rfl rfl rfl rfl rfl rfl rfl rfl ?_
  exact .refl _

theorem execMctpControlMessage_evolves {msg : List Byte} {s : State} : Kept s (execMctpControlMessage msg s) := by
  unfold execMctpControlMessage
  exact .ite (.next (.after State.spdmSend_evolves (.refl _))) (.next (.refl _))

theorem State.refuseDrain_evolves {s : State} {l : Nat} {nodes : Nat} : Evolves s (s.refuseDrain l nodes) := by
  unfold State.refuseDrain
  dsimp only
  refine .after State.postEvent_evolves ?_
  with_reducible refine .upd rfl rfl rfl rfl rfl rfl rfl rfl rfl rfl rfl rfl ?_
  exact .refl _

theorem State.portButton_evolves {s : State} {l : Nat} : Evolves s (s.portButton l) := by
  unfold State.portButton
  dsimp only
  refine .ite (.refl _) ?_
  split
  · exact .ite (.after State.drainPort_evolves (.refl _)) (.after State.refuseDrain_evolves (.refl _))
  · exact .after State.restorePort_evolves (.refl _)
  · exact .after State.trainFrom_evolves (.refl _)
  · exact .after State.trainFrom_evolves (.refl _)
  · exact .refl _

theorem execDrainRefusedPatternEnd_evolves {p : Nat} {s : State} : Kept s (execDrainRefusedPatternEnd p s) := by
  unfold execDrainRefusedPatternEnd
  dsimp only
  split
  · refine .ite (.next ?_) (.next (.refl _))
    with_reducible refine .upd rfl rfl rfl rfl rfl rfl rfl rfl rfl rfl rfl rfl ?_
    exact .refl _
  · exact .next (.refl _)

theorem State.driveButton_evolves {s : State} {d : Nat} : Evolves s (s.driveButton d) := by
  unfold State.driveButton
  dsimp only
  refine .ite (.refl _) ?_
  split
  · exact .ite (.after State.setDrive_evolves (.refl _)) (.after State.setDrive_evolves (.after State.adopt_evolves (.refl _)))
  · exact .ite (.after State.powerBay_evolves (.refl _)) (.refl _)
  · exact .refl _

theorem State.drainMirrors_evolves {s : State} : Evolves s s.drainMirrors := by
  unfold State.drainMirrors
  dsimp only
  refine .after State.handTwins_evolves (.foldl _ ?_ (fun _ _ => ?_))
  · exact .refl _
  · exact .after State.failCopy_evolves (.refl _)

theorem State.drainModule_evolves {s : State} : Evolves s s.drainModule := by
  unfold State.drainModule
  dsimp only
  refine .after State.drainMirrors_evolves ?_
  with_reducible refine .upd rfl rfl rfl rfl rfl rfl rfl rfl rfl rfl rfl rfl ?_
  exact .refl _

theorem State.moduleButton_evolves {s : State} : Evolves s s.moduleButton := by
  unfold State.moduleButton
  dsimp only
  split
  · with_reducible refine .upd rfl rfl rfl rfl rfl rfl rfl rfl rfl rfl rfl rfl ?_
    exact .after State.adopt_evolves (.refl _)
  · with_reducible refine .upd rfl rfl rfl rfl rfl rfl rfl rfl rfl rfl rfl rfl ?_
    exact .refl _
  · exact .refl _
  · exact .refl _

theorem execModuleDrainTimeout_evolves {s : State} : Kept s (execModuleDrainTimeout s) := by
  unfold execModuleDrainTimeout
  dsimp only
  refine .ite (.next (.after State.settleModule_evolves (.foldl _ ?_ (fun _ _ => ?_)))) (.next (.refl _))
  · refine .after State.flood_evolves (.foldl _ ?_ (fun _ _ => ?_))
    · with_reducible refine .upd rfl rfl rfl rfl rfl rfl rfl rfl rfl rfl rfl rfl ?_
      exact .after State.endReqs_evolves (.refl _)
    · exact .after State.endProg_evolves (.refl _)
  · exact .after State.disablePort_evolves (.refl _)

theorem State.press_evolves {s : State} {b : Nat} : Evolves s (s.press b) := by
  unfold State.press
  exact .ite (.after State.portButton_evolves (.refl _)) (.ite (.after State.driveButton_evolves (.refl _)) (.after State.moduleButton_evolves (.refl _)))

theorem execButtonPress_evolves {b : Button} {s : State} : Kept s (execButtonPress b s) := by
  unfold execButtonPress
  dsimp only
  refine .ite (.next (.refl _)) (.ite (.next ?_) (.next (.after State.press_evolves (.refl _))))
  with_reducible refine .upd rfl rfl rfl rfl rfl rfl rfl rfl rfl rfl rfl rfl ?_
  exact .refl _

theorem execAbortWindowExpiry_evolves {b : Button} {s : State} : Kept s (execAbortWindowExpiry b s) := by
  unfold execAbortWindowExpiry
  split
  · exact .next (.refl _)
  · split
    · exact .ite (.next (.after State.drainBay_evolves (.refl _))) (.next (.refl _))
    · exact .next (.refl _)
  · exact .ite (.next (.after State.drainModule_evolves (.refl _))) (.next (.refl _))

theorem actService_evolves {p : Pkt} {_id : Nat} {s : State} : DoneKept s (actService p _id s) := by
  unfold actService
  dsimp only
  exact .ite (.ite (.done (.refl _)) (.ite (.wait (.ite (.after State.restorePort_evolves (.refl _)) (.after State.drainPort_evolves (.refl _)))) (.done (.ite (.after State.restorePort_evolves (.refl _)) (.after State.drainPort_evolves (.refl _)))))) (.ite (.ite (.wait (.after State.powerBay_evolves (.refl _))) (.ite (.done (.refl _)) (.wait (.after State.drainBay_evolves (.refl _))))) (.ite (.done (.refl _)) (.wait (.after State.drainModule_evolves (.refl _)))))

theorem rowServiceDrain_evolves {p : Pkt} {id : Nat} {s : State} (_hv : rowServiceDrain.verdict p s = none) : DoneKept s (rowServiceDrain.act p id s) := by
  unfold rowServiceDrain
  dsimp only
  exact .after actService_evolves (.refl _)

theorem execServiceDrain_evolves {p : Pkt} {s : State} : Kept s (execServiceDrain p s) := by
  unfold execServiceDrain
  refine .next (.after (hostCommand_evolves ?_) (.refl _))
  intros
  exact rowServiceDrain_evolves ‹_›

theorem rowReadEventLog_evolves {p : Pkt} {id : Nat} {s : State} (_hv : rowReadEventLog.verdict p s = none) : DoneKept s (rowReadEventLog.act p id s) := by
  unfold rowReadEventLog
  dsimp only
  exact .ite (.done (.refl _)) (.done (.refl _))

theorem execReadEventLog_evolves {p : Pkt} {s : State} : Kept s (execReadEventLog p s) := by
  unfold execReadEventLog
  refine .next (.after (hostCommand_evolves ?_) (.refl _))
  intros
  exact rowReadEventLog_evolves ‹_›

theorem rowConfigGet_evolves {p : Pkt} {id : Nat} {s : State} (_hv : rowConfigGet.verdict p s = none) : DoneKept s (rowConfigGet.act p id s) := by
  unfold rowConfigGet
  dsimp only
  split
  · exact .done (.refl _)
  · exact .done (.refl _)

theorem execConfigGet_evolves {p : Pkt} {s : State} : Kept s (execConfigGet p s) := by
  unfold execConfigGet
  refine .next (.after (hostCommand_evolves ?_) (.refl _))
  intros
  exact rowConfigGet_evolves ‹_›

theorem State.recordKey_evolves : ∀ {s : State} {r : KeyRow} {ix v : Nat}, (r.key = kSvnFloor → s.idn.svnFused ≤ v) → Evolves s (s.recordKey r ix v) := by
  intro s r ix v h
  unfold State.recordKey
  split
  · rename_i hk
    exact .idn id rfl (h hk) (Nat.le_refl _) (fun _ => ⟨rfl, Nat.le_refl _⟩) id
  · dsimp only
    exact .ite (.after State.recompute_evolves (.after State.setKey_evolves (.refl _))) (.after State.setKey_evolves (.refl _))

theorem rowConfigSet_evolves {p : Pkt} {id : Nat} {s : State} (hv : rowConfigSet.verdict p s = none) : DoneKept s (rowConfigSet.act p id s) := by
  unfold rowConfigSet at hv ⊢
  dsimp only
  split
  · exact .done (.refl _)
  · rename_i r hr
    refine .ite (.done (.refl _)) (.done (State.recordKey_evolves fun hk => ?_))
    have hc : checkConfigSet p s = none := CmdRow.check_of_verdict hv
    unfold checkConfigSet at hc
    rw [hr] at hc
    dsimp only at hc
    have hb : s.badValue r (p.f 127 64) = false := by
      have h2 := (firstFail_none hc _ (.tail _ (.head _)))
      by_contra hne
      rw [Bool.not_eq_false] at hne
      rw [hne] at h2
      simp only [Bool.or_true] at h2
      cases h2
    unfold State.badValue at hb
    rw [if_pos hk] at hb
    simp only [Bool.or_eq_false_iff, decide_eq_false_iff_not, Nat.not_lt] at hb
    exact hb.1

theorem execConfigSet_evolves {p : Pkt} {s : State} : Kept s (execConfigSet p s) := by
  unfold execConfigSet
  refine .next (.after (hostCommand_evolves ?_) (.refl _))
  intros
  exact rowConfigSet_evolves ‹_›

theorem State.singleBit_evolves {s : State} {c : Nat} : Evolves s (s.singleBit c) := by
  unfold State.singleBit
  exact .after State.bumpStat_evolves (.refl _)

theorem State.doubleBit_evolves {s : State} {c : Nat} {a : Nat} {bank : Bool} : Evolves s (s.doubleBit c a bank) := by
  unfold State.doubleBit
  dsimp only
  refine .ite ?_ ?_
  · refine .after State.postEvent_evolves (.after State.adopt_evolves (.ite ?_ ?_))
    · with_reducible refine .upd rfl rfl rfl rfl rfl rfl rfl rfl rfl rfl rfl rfl ?_
      exact .after State.bumpStat_evolves (.refl _)
    · with_reducible refine .upd rfl rfl rfl rfl rfl rfl rfl rfl rfl rfl rfl rfl ?_
      exact .after State.bumpStat_evolves (.refl _)
  · refine .after State.adopt_evolves (.ite ?_ ?_)
    · with_reducible refine .upd rfl rfl rfl rfl rfl rfl rfl rfl rfl rfl rfl rfl ?_
      exact .after State.bumpStat_evolves (.refl _)
    · with_reducible refine .upd rfl rfl rfl rfl rfl rfl rfl rfl rfl rfl rfl rfl ?_
      exact .after State.bumpStat_evolves (.refl _)

theorem State.nodeEvent_evolves {s : State} {n : Nat} {cause : Nat} {reporter : Nat} : Evolves s (s.nodeEvent n cause reporter) := by
  unfold State.nodeEvent
  exact .after State.postEvent_evolves (.refl _)

theorem State.unmapPort_evolves {s : State} {l : Nat} : Evolves s (s.unmapPort l) := by
  unfold State.unmapPort
  dsimp only
  exact .ite (.after State.reholds_evolves (.after State.portTo_evolves (.refl _))) (.refl _)

theorem State.failToward_evolves {s : State} {n : Nat} : Evolves s (s.failToward n) := by
  unfold State.failToward
  dsimp only
  refine .foldl _ ?_ (fun _ _ => ?_)
  · exact .after State.dropTxns_evolves (.after State.finishAll_evolves (.refl _))
  · refine .ite (.refl _) ?_
    split
    · exact .after State.sessError_evolves (.refl _)
    · exact .ite (.after State.runEnd_evolves (.refl _)) (.refl _)
    · exact .ite (.after State.runEnd_evolves (.refl _)) (.refl _)
    · exact .refl _

theorem State.sendReports_evolves {s : State} : Evolves s s.sendReports := by
  unfold State.sendReports
  refine .foldl _ ?_ (fun _ _ => ?_)
  · exact .refl _
  · exact .after State.sendReport_evolves (.refl _)

theorem State.markDead_evolves {s : State} {n : Nat} {cause : Nat} {reporter : Nat} : Evolves s (s.markDead n cause reporter) := by
  unfold State.markDead
  dsimp only
  refine .after State.sendReports_evolves (.after State.failToward_evolves (.after State.hingeDead_evolves (.foldl _ ?_ (fun _ _ => ?_))))
  · exact .after State.nodeEvent_evolves (.after State.modNode_evolves (.refl _))
  · exact .after State.unmapPort_evolves (.refl _)

theorem State.isolate_evolves {s : State} : Evolves s s.isolate := by
  unfold State.isolate
  dsimp only
  refine .ite (.refl _) (.foldl _ ?_ (fun _ _ => ?_))
  · refine .after State.nodeEvent_evolves (.after State.flood_evolves (.foldl _ ?_ (fun _ _ => ?_)))
    · refine .after State.endReqs_evolves (.foldl _ ?_ (fun _ _ => ?_))
      · with_reducible refine .upd rfl rfl rfl rfl rfl rfl rfl rfl rfl rfl rfl rfl ?_
        exact .refl _
      · exact .after State.dropCopy_evolves (.refl _)
    · exact .after State.endProg_evolves (.refl _)
  · exact .after State.unmapPort_evolves (.refl _)

theorem execNodeDown_evolves {l : Nat} {node : Nat} {cause : Nat} {reporter : Nat} {s : State} : Kept s (execNodeDown l node cause reporter s) := by
  unfold execNodeDown
  dsimp only
  exact .ite (.next (.refl _)) (.ite (.next (.after State.isolate_evolves (.ite (.after State.flood_evolves (.after State.modNode_evolves (.after State.gotMgmt_evolves (.refl _)))) (.after State.gotMgmt_evolves (.refl _))))) (.ite (.next (.after State.markDead_evolves (.ite (.after State.flood_evolves (.after State.modNode_evolves (.after State.gotMgmt_evolves (.refl _)))) (.after State.gotMgmt_evolves (.refl _))))) (.next (.ite (.after State.flood_evolves (.after State.modNode_evolves (.after State.gotMgmt_evolves (.refl _)))) (.after State.gotMgmt_evolves (.refl _))))))

theorem State.judgeSilence_evolves {s : State} : Evolves s s.judgeSilence := by
  unfold State.judgeSilence
  dsimp only
  refine .ite ?_ ?_
  · refine .after State.isolate_evolves ?_
    with_reducible refine .upd rfl rfl rfl rfl rfl rfl rfl rfl rfl rfl rfl rfl ?_
    exact .refl _
  · with_reducible refine .upd rfl rfl rfl rfl rfl rfl rfl rfl rfl rfl rfl rfl ?_
    exact .refl _

theorem execHeartbeatTimer_evolves {s : State} : Kept s (execHeartbeatTimer s) := by
  unfold execHeartbeatTimer
  dsimp only
  refine .ite (.next (.refl _)) (.next (.after State.sendReports_evolves ?_))
  with_reducible refine .upd rfl rfl rfl rfl rfl rfl rfl rfl rfl rfl rfl rfl ?_
  refine .foldl _ ?_ (fun _ _ => ?_)
  · refine .after State.adopt_evolves (.foldl _ ?_ (fun _ _ => ?_))
    · exact .after State.judgeSilence_evolves (.refl _)
    · exact .ite (.after State.suspect_evolves (.refl _)) (.refl _)
  · exact .after State.mgmtOn_evolves (.refl _)

theorem State.revive_evolves {s : State} {n : Nat} : Evolves s (s.revive n) := by
  unfold State.revive
  exact .ite (.after State.modNode_evolves (.refl _)) (.refl _)

theorem execHeartbeat_evolves {l : Nat} {uid : Nat} {node : Nat} {epoch : Nat} {s : State} : Kept s (execHeartbeat l uid node epoch s) := by
  unfold execHeartbeat
  dsimp only
  refine .ite (.next (.refl _)) (.ite (.next (.after State.revive_evolves (.after State.heardFrom_evolves (.after State.modNode_evolves ?_)))) (.next (.after State.gotMgmt_evolves (.refl _))))
  with_reducible refine .upd rfl rfl rfl rfl rfl rfl rfl rfl rfl rfl rfl rfl ?_
  exact .after State.gotMgmt_evolves (.refl _)

theorem execProbe_evolves {l : Nat} {uid : Nat} {node : Nat} {target : Nat} {number : Nat} {s : State} : Kept s (execProbe l uid node target number s) := by
  unfold execProbe
  dsimp only
  exact .ite (.next (.after State.mgmtTo_evolves (.after State.heardFrom_evolves (.after State.gotMgmt_evolves (.refl _))))) (.next (.refl _))

theorem execProbeAnswer_evolves {l : Nat} {uid : Nat} {node : Nat} {target : Nat} {number : Nat} {s : State} : Kept s (execProbeAnswer l uid node target number s) := by
  unfold execProbeAnswer
  exact .ite (.next (.after State.revive_evolves (.after State.heardFrom_evolves (.after State.gotMgmt_evolves (.refl _))))) (.next (.refl _))

theorem execProbeInterval_evolves {node : Nat} {s : State} : Kept s (execProbeInterval node s) := by
  unfold execProbeInterval
  dsimp only
  exact .ite (.ite (.next (.after State.markDead_evolves (.after State.flood_evolves (.after State.modNode_evolves (.refl _))))) (.next (.after State.probe_evolves (.after State.setNode_evolves (.refl _))))) (.next (.refl _))

theorem State.tookMgmt_evolves {s : State} {m : MMsg} : Evolves s (s.tookMgmt m) := by
  unfold State.tookMgmt
  exact .after State.takeRxAny_evolves (.refl _)

theorem execJobFault_evolves {src : Nat} {job : Nat} {gen : Nat} {cause : Nat} {target : Nat} {s : State} : Kept s (execJobFault src job gen cause target s) := by
  unfold execJobFault
  dsimp only
  exact .ite (.next (.after State.manageFault_evolves (.after State.mgmtTo_evolves (.after State.heardFrom_evolves (.after State.tookMgmt_evolves (.refl _)))))) (.next (.refl _))

theorem execTeardown_evolves {job : Nat} {gen : Nat} {cause : Nat} {target : Nat} {reporter : Nat} {s : State} : Kept s (execTeardown job gen cause target reporter s) := by
  unfold execTeardown
  exact .ite (.next (.after State.teardownHere_evolves (.after State.tookMgmt_evolves (.refl _)))) (.next (.refl _))

end Sys2Proof.Machine
end

