-- ==== Sys2Proof/Laws/EvolvesMatrix.lean ====
section
/-! SUPPORT. What the operations of Matrix, Restart, Switch, Traffic, Vector, Ward, Safety keep (`Laws/Evolves.lean`). -/

namespace Sys2Proof.Machine

theorem State.countBlock_evolves {s : State} {a : At} {x : Nat} {bad : Bool} : Evolves s (s.countBlock a x bad) := by
  unfold State.countBlock
  dsimp only
  exact .ite (.after State.bumpExp_evolves (.refl _)) (.ite (.after State.bump_evolves (.after State.bumpExp_evolves (.refl _))) (.ite (.after State.postEvent_evolves (.after State.adopt_evolves (.after State.modPc_evolves (.after State.bump_evolves (.after State.bumpExp_evolves (.refl _)))))) (.after State.adopt_evolves (.after State.modPc_evolves (.after State.bump_evolves (.after State.bumpExp_evolves (.refl _)))))))

theorem State.loadTile_evolves {s : State} {a : At} {wgt : Nat} {delta : Nat} : Evolves s (s.loadTile a wgt delta).2 := by
  unfold State.loadTile
  dsimp only
  refine .after State.bump_evolves (.after State.bumpStat_evolves ?_)
  split
  · dsimp only
    refine .foldl _ ?_ (fun _ _ => ?_)
    · exact .refl _
    · exact .after State.countBlock_evolves (.refl _)
  · dsimp only
    exact .refl _

theorem State.bankRow_evolves {s : State} {a : At} {x : Nat} {x3 : List (Nat × Bool)} : Evolves s (s.bankRow a x x3) := by
  induction s, x, x3 using State.bankRow.induct (a := a) with
  | case1 => exact .refl _
  | case2 => exact State.accWrite_evolves
  | case3 s x e f es ih => exact .after ih State.accWrite_evolves

theorem State.passRow_evolves {s : State} {a : At} {t : Tile} {det : Bool} {m : Nat} : Evolves s (s.passRow a t det m) := by
  unfold State.passRow
  dsimp only
  refine .after State.bankRow_evolves (.ite (.after State.bump_evolves (.after State.bumpStat_evolves (.refl _))) ?_)
  with_reducible refine .upd rfl rfl rfl rfl rfl rfl rfl rfl rfl rfl rfl rfl ?_
  exact .after State.bump_evolves (.after State.bumpStat_evolves (.refl _))

theorem State.matmul_evolves {s : State} {a : At} : Evolves s (s.matmul a) := by
  unfold State.matmul
  dsimp only
  refine .after (State.runDesc_evolves ?_) (.refl _)
  intros
  refine .foldl _ ?_ (fun _ _ => ?_)
  · refine .after State.modEng_evolves ?_
    split
    · dsimp only
      exact .refl _
    · exact .after State.loadTile_evolves (.refl _)
  · exact .after State.passRow_evolves (.refl _)

theorem execMatmul_evolves {e : EngAt} {d : Desc} {s : State} : Kept s (execMatmul e d s) := by
  unfold execMatmul
  refine .after (onEngine_evolves ?_) (.refl _)
  intros
  exact .after State.matmul_evolves (.refl _)

theorem State.beginRestart_evolves {s : State} : Evolves s s.beginRestart := by
  unfold State.beginRestart
  dsimp only
  refine .after State.bump_evolves ?_
  with_reducible refine .upd rfl rfl rfl rfl rfl rfl rfl rfl rfl rfl rfl rfl ?_
  exact .after State.abandonAll_evolves (.refl _)

theorem execCtlWatchdogExpiry_evolves {_core : Nat} {s : State} : Kept s (execCtlWatchdogExpiry _core s) := by
  unfold execCtlWatchdogExpiry
  dsimp only
  exact .ite (.next (.ite (.after State.fatalStop_evolves (.after State.adopt_evolves (.after State.adopt_evolves (.refl _)))) (.after State.beginRestart_evolves (.after State.adopt_evolves (.after State.adopt_evolves (.refl _)))))) (.next (.refl _))

theorem State.loseCtx_evolves {s : State} {i : Nat} : Evolves s (s.loseCtx i) := by
  unfold State.loseCtx
  dsimp only
  refine .after State.postEvent_evolves (.ite ?_ ?_)
  · refine .foldl _ ?_ (fun _ _ => ?_)
    · refine .after State.finishAll_evolves ?_
      with_reducible refine .upd rfl rfl rfl rfl rfl rfl rfl rfl rfl rfl rfl rfl ?_
      refine .after State.freeCtxAt_evolves (.after State.releaseCtx_evolves ?_)
      split
      · exact .after State.dropLatch_evolves (.refl _)
      · exact .refl _
    · split
      · exact .ite (.after State.unseal_evolves (.refl _)) (.refl _)
      · exact .refl _
  · refine .after State.finishId_evolves (.foldl _ ?_ (fun _ _ => ?_))
    · refine .after State.finishAll_evolves ?_
      with_reducible refine .upd rfl rfl rfl rfl rfl rfl rfl rfl rfl rfl rfl rfl ?_
      refine .after State.freeCtxAt_evolves (.after State.releaseCtx_evolves ?_)
      split
      · exact .after State.dropLatch_evolves (.refl _)
      · exact .refl _
    · split
      · exact .ite (.after State.unseal_evolves (.refl _)) (.refl _)
      · exact .refl _

theorem State.checkRecords_evolves {s : State} {badCtx : List Nat} {badLatch : List Nat} : Evolves s (s.checkRecords badCtx badLatch) := by
  unfold State.checkRecords
  dsimp only
  refine .foldl _ ?_ (fun _ _ => ?_)
  · refine .foldl _ ?_ (fun _ _ => ?_)
    · exact .refl _
    · exact .after State.loseCtx_evolves (.refl _)
  · exact .ite (.refl _) (.after State.dropLatch_evolves (.refl _))

theorem State.lateMisses_evolves {s : State} : Evolves s s.lateMisses := by
  unfold State.lateMisses
  refine .foldl _ ?_ (fun _ _ => ?_)
  · exact .refl _
  · exact .ite (.refl _) (.ite (.after State.writeMisses_evolves (.refl _)) (.after State.recordMiss_evolves (.refl _)))

theorem State.actLatched_evolves {s : State} : Evolves s s.actLatched := by
  unfold State.actLatched
  dsimp only
  refine .foldl _ ?_ (fun _ _ => ?_)
  · refine .foldl _ ?_ (fun _ _ => ?_)
    · with_reducible refine .upd rfl rfl rfl rfl rfl rfl rfl rfl rfl rfl rfl rfl ?_
      exact .refl _
    · exact .after State.ringDoorbell_evolves (.refl _)
  · exact .after State.press_evolves (.refl _)

theorem execControlRestartComplete_evolves {badCtx : List Nat} {badLatch : List Nat} {s : State} : Kept s (execControlRestartComplete badCtx badLatch s) := by
  unfold execControlRestartComplete
  dsimp only
  refine .ite (.next (.after State.actLatched_evolves (.after State.lateMisses_evolves (.after State.postEvent_evolves (.after State.checkRecords_evolves ?_))))) (.next (.refl _))
  with_reducible refine .upd rfl rfl rfl rfl rfl rfl rfl rfl rfl rfl rfl rfl ?_
  exact .refl _

theorem State.modSw_evolves {s : State} {k : Nat} {decode : Bool} {f : Switch → Switch} : Evolves s (s.modSw k decode f) := by
  unfold State.modSw
  dsimp only
  exact .after State.setRot_evolves (.refl _)

theorem execSliceEnd_evolves {part : Nat} {decode : Bool} {s : State} : Kept s (execSliceEnd part decode s) := by
  unfold execSliceEnd
  dsimp only
  exact .ite (.next (.after State.choosePc_evolves (.after State.setRot_evolves (.refl _)))) (.next (.refl _))

theorem execYieldRequest_evolves {part : Nat} {decode : Bool} {s : State} : Kept s (execYieldRequest part decode s) := by
  unfold execYieldRequest
  split
  · exact .ite (.next (.after State.modSw_evolves (.after State.modPc_evolves (.refl _)))) (.next (.refl _))
  · exact .next (.refl _)

theorem execContextStopped_evolves {part : Nat} {decode : Bool} {s : State} : Kept s (execContextStopped part decode s) := by
  unfold execContextStopped
  dsimp only
  split
  · split
    · exact .next (.refl _)
    · exact .ite (.next (.after State.modSw_evolves (.refl _))) (.next (.refl _))
    · exact .ite (.next (.after State.modSw_evolves (.refl _))) (.next (.refl _))
    · exact .next (.refl _)
    · exact .next (.refl _)
  · exact .next (.refl _)

theorem execPreemptBoundExpiry_evolves {part : Nat} {decode : Bool} {s : State} : Kept s (execPreemptBoundExpiry part decode s) := by
  unfold execPreemptBoundExpiry
  split
  · exact .ite (.next (.after State.modSw_evolves (.after State.modPc_evolves (.after State.bump_evolves (.refl _))))) (.next (.refl _))
  · exact .next (.refl _)

theorem execSaveComplete_evolves {part : Nat} {decode : Bool} {s : State} : Kept s (execSaveComplete part decode s) := by
  unfold execSaveComplete
  dsimp only
  split
  · exact .ite (.next (.ite (.after State.choosePc_evolves (.after State.setRot_evolves (.after State.bump_evolves (.after State.bump_evolves (.after State.setPc_evolves (.refl _)))))) (.after State.setRot_evolves (.after State.bump_evolves (.after State.bump_evolves (.after State.setPc_evolves (.refl _))))))) (.next (.refl _))
  · exact .next (.refl _)

theorem State.restoreCore_evolves {s : State} {x : ProgCtx} {rank : Nat} {core : Nat} : Evolves s (s.restoreCore x rank core) := by
  unfold State.restoreCore
  dsimp only
  refine .gen rfl rfl rfl rfl rfl rfl rfl rfl rfl rfl rfl rfl id id id (fun h => splice_wf h _ _ _) (fun h => splice_wf h _ _ _) List.prefix_rfl List.prefix_rfl ?_
  exact .refl _

theorem State.reloadTile_evolves {s : State} {id : Nat} {rank : Nat} {core : Nat} {eng : Nat} : Evolves s (s.reloadTile id rank core eng) := by
  unfold State.reloadTile
  dsimp only
  split
  · exact .after State.modEng_evolves (.refl _)
  · exact .refl _

theorem State.restoreCores_evolves {s : State} {id : Nat} : Evolves s (s.restoreCores id) := by
  unfold State.restoreCores
  dsimp only
  refine .after State.modPc_evolves (.foldl _ ?_ (fun _ _ => ?_))
  · refine .foldl _ ?_ (fun _ _ => ?_)
    · exact .refl _
    · exact .after State.restoreCore_evolves (.refl _)
  · refine .foldl _ ?_ (fun _ _ => ?_)
    · exact .refl _
    · exact .after State.reloadTile_evolves (.refl _)

theorem State.arrive_evolves {s : State} {k : Nat} {decode : Bool} {w : Switch} : Evolves s (s.arrive k decode w) := by
  unfold State.arrive
  dsimp only
  exact .after State.choosePc_evolves (.after State.settleHalt_evolves (.ite (.after State.setCtr_evolves (.ite (.after State.bump_evolves (.after State.bump_evolves (.after State.setRot_evolves (.after State.adopt_evolves (.after State.modPc_evolves (.ite (.after State.restoreCores_evolves (.refl _)) (.refl _))))))) (.after State.bump_evolves (.after State.setRot_evolves (.after State.adopt_evolves (.after State.modPc_evolves (.ite (.after State.restoreCores_evolves (.refl _)) (.refl _)))))))) (.ite (.after State.bump_evolves (.after State.bump_evolves (.after State.setRot_evolves (.after State.adopt_evolves (.after State.modPc_evolves (.ite (.after State.restoreCores_evolves (.refl _)) (.refl _))))))) (.after State.bump_evolves (.after State.setRot_evolves (.after State.adopt_evolves (.after State.modPc_evolves (.ite (.after State.restoreCores_evolves (.refl _)) (.refl _)))))))))

theorem execRestoreComplete_evolves {part : Nat} {decode : Bool} {s : State} : Kept s (execRestoreComplete part decode s) := by
  unfold execRestoreComplete
  split
  · exact .ite (.next (.after State.arrive_evolves (.refl _))) (.next (.refl _))
  · exact .next (.refl _)

theorem State.count_evolves {s : State} {key : Nat} {ix : Nat} : Evolves s (s.count key ix) := by
  unfold State.count
  exact .after State.setCtr_evolves (.refl _)

theorem State.sample_evolves {s : State} {l : Nat} {q : Nat} {depth : Nat} {joined : Nat} : Evolves s (s.sample l q depth joined) := by
  unfold State.sample
  dsimp only
  exact .ite (.after State.bump_evolves (.after State.hbmWrite_evolves (.after State.count_evolves (.after State.count_evolves (.refl _))))) (.after State.count_evolves (.after State.count_evolves (.refl _)))

theorem State.startPkt_evolves {s : State} {l : Nat} {q : Nat} {e : QPkt} {resp : Bool} : Evolves s (s.startPkt l q e resp) := by
  unfold State.startPkt
  dsimp only
  refine .after State.unhold_evolves ?_
  split
  · exact .after State.sample_evolves (.after State.bump_evolves (.after State.setLink_evolves (.refl _)))
  · exact .after State.bump_evolves (.after State.setLink_evolves (.refl _))

theorem State.drr_evolves {l : Nat} {held : Bool} {a : Nat} {x3 : State} : Evolves x3 (State.drr l held a x3) := by
  induction a generalizing x3 with
  | zero => exact .refl _
  | succ n ih =>
    unfold State.drr
    dsimp only
    split
    · refine .after ih ?_
      exact .after State.modLink_evolves (.refl _)
    · split
      · split
        · refine .after State.startPkt_evolves ?_
          exact .after State.modLink_evolves (.after State.adopt_evolves (.refl _))
        · refine .after ih ?_
          exact .after State.modLink_evolves (.after State.modLink_evolves (.after State.adopt_evolves (.refl _)))
      · split
        · refine .after State.startPkt_evolves ?_
          exact .refl _
        · refine .after ih ?_
          exact .after State.modLink_evolves (.refl _)

theorem execPacketStart_evolves {l : Nat} {s : State} : Kept s (execPacketStart l s) := by
  unfold execPacketStart
  exact .ite (.ite (.next (.after State.drr_evolves (.after State.nextFree_evolves (.refl _)))) (.next (.after State.drr_evolves (.refl _)))) (.next (.refl _))

theorem execShaperRefill_evolves {l : Nat} {q : Nat} {s : State} : Kept s (execShaperRefill l q s) := by
  unfold execShaperRefill
  dsimp only
  exact .ite (.next (.after State.modLink_evolves (.refl _))) (.next (.refl _))

theorem rowSetShaper_evolves {p : Pkt} {id : Nat} {s : State} (_hv : rowSetShaper.verdict p s = none) : DoneKept s (rowSetShaper.act p id s) := by
  unfold rowSetShaper
  dsimp only
  exact .ite (.ite (.done (.after State.modLink_evolves (.refl _))) (.ite (.done (.refl _)) (.done (.after State.modLink_evolves (.refl _))))) (.ite (.done (.after State.modLink_evolves (.refl _))) (.done (.refl _)))

theorem execSetShaper_evolves {p : Pkt} {s : State} : Kept s (execSetShaper p s) := by
  unfold execSetShaper
  refine .next (.after (hostCommand_evolves ?_) (.refl _))
  intros
  exact rowSetShaper_evolves ‹_›

theorem execGateEntryAdvance_evolves {l : Nat} {s : State} : Kept s (execGateEntryAdvance l s) := by
  unfold execGateEntryAdvance
  exact .ite (.next (.after State.modLink_evolves (.refl _))) (.next (.refl _))

theorem State.adoptGate_evolves {s : State} {l : Nat} {g : GateList} : Evolves s (s.adoptGate l g) := by
  unfold State.adoptGate
  dsimp only
  exact .after State.postEvent_evolves (.after State.bump_evolves (.after State.modLink_evolves (.refl _)))

theorem execGateAdopt_evolves {l : Nat} {s : State} : Kept s (execGateAdopt l s) := by
  unfold execGateAdopt
  split
  · exact .ite (.next (.after State.adoptGate_evolves (.refl _))) (.next (.refl _))
  · exact .next (.refl _)

theorem State.dueGate_evolves {s : State} {l : Nat} : Evolves s (s.dueGate l) := by
  unfold State.dueGate
  split
  · exact .ite (.after State.adoptGate_evolves (.refl _)) (.refl _)
  · exact .refl _

theorem rowStageGateList_evolves {p : Pkt} {id : Nat} {s : State} (_hv : rowStageGateList.verdict p s = none) : DoneKept s (rowStageGateList.act p id s) := by
  unfold rowStageGateList
  dsimp only
  exact .done (.after State.modLink_evolves (.after State.dueGate_evolves (.refl _)))

theorem execStageGateList_evolves {p : Pkt} {s : State} : Kept s (execStageGateList p s) := by
  unfold execStageGateList
  refine .next (.after (hostCommand_evolves ?_) (.refl _))
  intros
  exact rowStageGateList_evolves ‹_›

theorem rowGateListCancel_evolves {p : Pkt} {id : Nat} {s : State} (_hv : rowGateListCancel.verdict p s = none) : DoneKept s (rowGateListCancel.act p id s) := by
  unfold rowGateListCancel
  dsimp only
  exact .ite (.done (.after State.modLink_evolves (.after State.dueGate_evolves (.refl _)))) (.done (.after State.dueGate_evolves (.refl _)))

theorem execGateListCancel_evolves {p : Pkt} {s : State} : Kept s (execGateListCancel p s) := by
  unfold execGateListCancel
  refine .next (.after (hostCommand_evolves ?_) (.refl _))
  intros
  exact rowGateListCancel_evolves ‹_›

theorem rowReadGateList_evolves {p : Pkt} {id : Nat} {s : State} (_hv : rowReadGateList.verdict p s = none) : DoneKept s (rowReadGateList.act p id s) := by
  unfold rowReadGateList
  dsimp only
  exact .done (.refl _)

theorem execReadGateList_evolves {p : Pkt} {s : State} : Kept s (execReadGateList p s) := by
  unfold execReadGateList
  refine .next (.after (hostCommand_evolves ?_) (.refl _))
  intros
  exact rowReadGateList_evolves ‹_›

theorem rowSamplingQueue_evolves {p : Pkt} {id : Nat} {s : State} (_hv : rowSamplingQueue.verdict p s = none) : DoneKept s (rowSamplingQueue.act p id s) := by
  unfold rowSamplingQueue
  dsimp only
  refine .ite (.done (.refl _)) (.done (.after State.modLink_evolves (.ite (.foldl _ ?_ (fun _ _ => ?_)) (.refl _))))
  · exact .refl _
  · exact .after State.setCtr_evolves (.after State.setCtr_evolves (.refl _))

theorem execSamplingQueue_evolves {p : Pkt} {s : State} : Kept s (execSamplingQueue p s) := by
  unfold execSamplingQueue
  refine .next (.after (hostCommand_evolves ?_) (.refl _))
  intros
  exact rowSamplingQueue_evolves ‹_›

theorem rowSamplingRing_evolves {p : Pkt} {id : Nat} {s : State} (_hv : rowSamplingRing.verdict p s = none) : DoneKept s (rowSamplingRing.act p id s) := by
  unfold rowSamplingRing
  dsimp only
  refine .ite (.done (.refl _)) (.done (.after State.setCtr_evolves ?_))
  with_reducible refine .upd rfl rfl rfl rfl rfl rfl rfl rfl rfl rfl rfl rfl ?_
  exact .refl _

theorem execSamplingRing_evolves {p : Pkt} {s : State} : Kept s (execSamplingRing p s) := by
  unfold execSamplingRing
  refine .next (.after (hostCommand_evolves ?_) (.refl _))
  intros
  exact rowSamplingRing_evolves ‹_›

theorem State.countBlocked_evolves {s : State} {l : Nat} {n : Nat} : Evolves s (s.countBlocked l n) := by
  unfold State.countBlocked
  dsimp only
  refine .foldl _ ?_ (fun _ _ => ?_)
  · exact .refl _
  · split
    · exact .ite (.refl _) (.after State.bump_evolves (.refl _))
    · exact .ite (.after State.bump_evolves (.ite (.refl _) (.after State.bump_evolves (.refl _)))) (.ite (.refl _) (.after State.bump_evolves (.refl _)))

theorem State.putRow_evolves {s : State} {a : At} {x : Nat} {bs : List Byte} {bad : List Bool} : Evolves s (s.putRow a x bs bad) := by
  unfold State.putRow
  dsimp only
  refine .ite ?_ (.after State.spWrite_evolves (.refl _))
  with_reducible refine .upd rfl rfl rfl rfl rfl rfl rfl rfl rfl rfl rfl rfl ?_
  exact .after State.spWrite_evolves (.refl _)

theorem State.vector_evolves {s : State} {a : At} : Evolves s (s.vector a) := by
  unfold State.vector
  dsimp only
  refine .after (State.runDesc_evolves ?_) (.refl _)
  intros
  refine .after State.scramble_evolves (.foldl _ ?_ (fun _ _ => ?_))
  · refine .ite ?_ ?_
    · refine .foldl _ ?_ (fun _ _ => ?_)
      · refine .ite ?_ (.after State.bump_evolves (.after State.bumpStat_evolves (.refl _)))
        with_reducible refine .upd rfl rfl rfl rfl rfl rfl rfl rfl rfl rfl rfl rfl ?_
        exact .after State.bump_evolves (.after State.bumpStat_evolves (.refl _))
      · exact .after State.accWrite_evolves (.refl _)
    · refine .ite ?_ (.after State.bump_evolves (.after State.bumpStat_evolves (.refl _)))
      with_reducible refine .upd rfl rfl rfl rfl rfl rfl rfl rfl rfl rfl rfl rfl ?_
      exact .after State.bump_evolves (.after State.bumpStat_evolves (.refl _))
  · exact .after State.putRow_evolves (.ite (.after State.nextFree_evolves (.refl _)) (.refl _))

theorem execVopAdd_evolves {e : EngAt} {d : Desc} {s : State} : Kept s (execVopAdd e d s) := by
  unfold execVopAdd
  refine .after (onEngine_evolves ?_) (.refl _)
  intros
  exact .after State.vector_evolves (.refl _)

theorem execVopSub_evolves {e : EngAt} {d : Desc} {s : State} : Kept s (execVopSub e d s) := by
  unfold execVopSub
  refine .after (onEngine_evolves ?_) (.refl _)
  intros
  exact .after State.vector_evolves (.refl _)

theorem execVopMul_evolves {e : EngAt} {d : Desc} {s : State} : Kept s (execVopMul e d s) := by
  unfold execVopMul
  refine .after (onEngine_evolves ?_) (.refl _)
  intros
  exact .after State.vector_evolves (.refl _)

theorem execVopFma_evolves {e : EngAt} {d : Desc} {s : State} : Kept s (execVopFma e d s) := by
  unfold execVopFma
  refine .after (onEngine_evolves ?_) (.refl _)
  intros
  exact .after State.vector_evolves (.refl _)

theorem execVopMax_evolves {e : EngAt} {d : Desc} {s : State} : Kept s (execVopMax e d s) := by
  unfold execVopMax
  refine .after (onEngine_evolves ?_) (.refl _)
  intros
  exact .after State.vector_evolves (.refl _)

theorem execVopMin_evolves {e : EngAt} {d : Desc} {s : State} : Kept s (execVopMin e d s) := by
  unfold execVopMin
  refine .after (onEngine_evolves ?_) (.refl _)
  intros
  exact .after State.vector_evolves (.refl _)

theorem execCmpgt_evolves {e : EngAt} {d : Desc} {s : State} : Kept s (execCmpgt e d s) := by
  unfold execCmpgt
  refine .after (onEngine_evolves ?_) (.refl _)
  intros
  exact .after State.vector_evolves (.refl _)

theorem execSelect_evolves {e : EngAt} {d : Desc} {s : State} : Kept s (execSelect e d s) := by
  unfold execSelect
  refine .after (onEngine_evolves ?_) (.refl _)
  intros
  exact .after State.vector_evolves (.refl _)

theorem execConvert_evolves {e : EngAt} {d : Desc} {s : State} : Kept s (execConvert e d s) := by
  unfold execConvert
  refine .after (onEngine_evolves ?_) (.refl _)
  intros
  exact .after State.vector_evolves (.refl _)

theorem execExp_evolves {e : EngAt} {d : Desc} {s : State} : Kept s (execExp e d s) := by
  unfold execExp
  refine .after (onEngine_evolves ?_) (.refl _)
  intros
  exact .after State.vector_evolves (.refl _)

theorem execRecip_evolves {e : EngAt} {d : Desc} {s : State} : Kept s (execRecip e d s) := by
  unfold execRecip
  refine .after (onEngine_evolves ?_) (.refl _)
  intros
  exact .after State.vector_evolves (.refl _)

theorem execRsqrt_evolves {e : EngAt} {d : Desc} {s : State} : Kept s (execRsqrt e d s) := by
  unfold execRsqrt
  refine .after (onEngine_evolves ?_) (.refl _)
  intros
  exact .after State.vector_evolves (.refl _)

theorem execRowsum_evolves {e : EngAt} {d : Desc} {s : State} : Kept s (execRowsum e d s) := by
  unfold execRowsum
  refine .after (onEngine_evolves ?_) (.refl _)
  intros
  exact .after State.vector_evolves (.refl _)

theorem execRowmax_evolves {e : EngAt} {d : Desc} {s : State} : Kept s (execRowmax e d s) := by
  unfold execRowmax
  refine .after (onEngine_evolves ?_) (.refl _)
  intros
  exact .after State.vector_evolves (.refl _)

theorem execDrain_evolves {e : EngAt} {d : Desc} {s : State} : Kept s (execDrain e d s) := by
  unfold execDrain
  refine .after (onEngine_evolves ?_) (.refl _)
  intros
  exact .after State.vector_evolves (.refl _)

theorem State.wardRow_evolves {s : State} {a : At} {x : Nat} {y : Nat} {place : Nat} {cols : Nat} {addrBad : Bool} : Evolves s (s.wardRow a x y place cols addrBad) := by
  unfold State.wardRow
  dsimp only
  exact .ite (.after State.spWrite_evolves (.after State.nextFree_evolves (.after State.fwWrite_evolves (.after State.bump_evolves (.after State.bump_evolves (.refl _)))))) (.ite (.after State.spWrite_evolves (.after State.fwWrite_evolves (.after State.bump_evolves (.after State.bump_evolves (.after State.bump_evolves (.refl _)))))) (.after State.spWrite_evolves (.after State.fwWrite_evolves (.ite (.after State.bump_evolves (.after State.bump_evolves (.after State.bump_evolves (.refl _)))) (.after State.bump_evolves (.after State.bump_evolves (.refl _)))))))

theorem State.ward_evolves {s : State} {a : At} : Evolves s (s.ward a) := by
  unfold State.ward
  dsimp only
  refine .after (State.runDesc_evolves ?_) (.refl _)
  intros
  refine .foldl _ ?_ (fun _ _ => ?_)
  · exact .refl _
  · exact .after State.wardRow_evolves (.refl _)

theorem execWard_evolves {e : EngAt} {d : Desc} {s : State} : Kept s (execWard e d s) := by
  unfold execWard
  refine .after (onEngine_evolves ?_) (.refl _)
  intros
  exact .after State.ward_evolves (.refl _)

theorem State.taken_evolves {s : State} {r : CmdRow} {p : Pkt} : Evolves s (s.taken r p) := by
  unfold State.taken
  dsimp only
  with_reducible refine .upd rfl rfl rfl rfl rfl rfl rfl rfl rfl rfl rfl rfl ?_
  exact .after State.takeFrom_evolves (.refl _)

theorem same_evolves {x : Pkt} {u : State} : Evolves u (same x u) := by
  unfold same
  exact .refl _

end Sys2Proof.Machine
end

