-- ==== Sys2Proof/Laws/EvolvesExec.lean ====
section
/-! SUPPORT. What every command keeps, SYS_PWROK's two edges apart. -/

namespace Sys2Proof.Machine

theorem exec_evolves {i : Instr} {s : State} (h1 : i ≠ .sysPwrokRise) (h2 : i ≠ .sysPwrokFall) : Kept s (exec i s) := by
  cases i with
  | nop _ => exact execNop_evolves
  | createRing _ => exact execCreateRing_evolves
  | deleteRing _ => exact execDeleteRing_evolves
  | configGet _ => exact execConfigGet_evolves
  | configSet _ => exact execConfigSet_evolves
  | setPowerMode _ => exact execSetPowerMode_evolves
  | getCapabilities _ => exact execGetCapabilities_evolves
  | sampleCounters _ => exact execSampleCounters_evolves
  | admitRequest _ => exact execAdmitRequest_evolves
  | cancel _ => exact execCancel_evolves
  | pause _ => exact execPause_evolves
  | resume _ => exact execResume_evolves
  | queryRequest _ => exact execQueryRequest_evolves
  | releaseContext _ => exact execReleaseContext_evolves
  | moveState _ => exact execMoveState_evolves
  | fetchPrefix _ => exact execFetchPrefix_evolves
  | sealPrefix _ => exact execSealPrefix_evolves
  | queryLatch _ => exact execQueryLatch_evolves
  | setMirror _ => exact execSetMirror_evolves
  | loadImage _ => exact execLoadImage_evolves
  | unloadImage _ => exact execUnloadImage_evolves
  | launchProgram _ => exact execLaunchProgram_evolves
  | readCoreStats _ => exact execReadCoreStats_evolves
  | loadModel _ => exact execLoadModel_evolves
  | unloadModel _ => exact execUnloadModel_evolves
  | readAttnCounters _ => exact execReadAttnCounters_evolves
  | loadDelta _ => exact execLoadDelta_evolves
  | replaceDelta _ => exact execReplaceDelta_evolves
  | unloadDelta _ => exact execUnloadDelta_evolves
  | readExpanderStats _ => exact execReadExpanderStats_evolves
  | loadGrammar _ => exact execLoadGrammar_evolves
  | unloadGrammar _ => exact execUnloadGrammar_evolves
  | createPartition _ => exact execCreatePartition_evolves
  | destroyPartition _ => exact execDestroyPartition_evolves
  | bindImage _ => exact execBindImage_evolves
  | unbindImage _ => exact execUnbindImage_evolves
  | grantExtent _ => exact execGrantExtent_evolves
  | revokeExtent _ => exact execRevokeExtent_evolves
  | setQuota _ => exact execSetQuota_evolves
  | queryQuota _ => exact execQueryQuota_evolves
  | flushRange _ => exact execFlushRange_evolves
  | acquireRange _ => exact execAcquireRange_evolves
  | publish _ => exact execPublish_evolves
  | queryNode _ => exact execQueryNode_evolves
  | portEnable _ => exact execPortEnable_evolves
  | portDisable _ => exact execPortDisable_evolves
  | portRetrain _ => exact execPortRetrain_evolves
  | portDrain _ => exact execPortDrain_evolves
  | portRestore _ => exact execPortRestore_evolves
  | portStatus _ => exact execPortStatus_evolves
  | openReduce _ => exact execOpenReduce_evolves
  | collectiveClose _ => exact execCollectiveClose_evolves
  | runGather _ => exact execRunGather_evolves
  | runFilter _ => exact execRunFilter_evolves
  | setShaper _ => exact execSetShaper_evolves
  | stageGateList _ => exact execStageGateList_evolves
  | gateListCancel _ => exact execGateListCancel_evolves
  | readGateList _ => exact execReadGateList_evolves
  | samplingQueue _ => exact execSamplingQueue_evolves
  | samplingRing _ => exact execSamplingRing_evolves
  | createTable _ => exact execCreateTable_evolves
  | destroyTable _ => exact execDestroyTable_evolves
  | insertEntry _ => exact execInsertEntry_evolves
  | updateEntry _ => exact execUpdateEntry_evolves
  | deleteEntry _ => exact execDeleteEntry_evolves
  | search _ => exact execSearch_evolves
  | swapShadow _ => exact execSwapShadow_evolves
  | getEvidence _ => exact execGetEvidence_evolves
  | getCertificates _ => exact execGetCertificates_evolves
  | stageManifest _ => exact execStageManifest_evolves
  | readEventLog _ => exact execReadEventLog_evolves
  | serviceDrain _ => exact execServiceDrain_evolves
  | fabricBoot _ => exact execFabricBoot_evolves
  | enterLowPower _ => exact execEnterLowPower_evolves
  | hostIfEnable _ _ => exact execHostIfEnable_evolves
  | hostIfDisable _ _ => exact execHostIfDisable_evolves
  | hostIfReady => exact execHostIfReady_evolves
  | teardownComplete => exact execTeardownComplete_evolves
  | registerWrite _ _ _ _ => exact execRegisterWrite_evolves
  | submissionDoorbell _ _ _ => exact execSubmissionDoorbell_evolves
  | completionDoorbell _ _ _ => exact execCompletionDoorbell_evolves
  | outputDoorbell _ _ _ => exact execOutputDoorbell_evolves
  | bar2Access _ _ _ _ => exact execBar2Access_evolves
  | hostLinkDown => exact execHostLinkDown_evolves
  | hotReset => exact execHotReset_evolves
  | d3hotEntry => exact execD3hotEntry_evolves
  | commandTimeout _ => exact execCommandTimeout_evolves
  | irqDelayExpiry _ _ => exact execIrqDelayExpiry_evolves
  | heldTokenWrite _ => exact execHeldTokenWrite_evolves
  | powerWindow _ => exact execPowerWindow_evolves
  | pmbusPoll _ _ _ => exact execPmbusPoll_evolves
  | pmbAlert _ _ => exact execPmbAlert_evolves
  | timingMonitorReport _ _ => exact execTimingMonitorReport_evolves
  | dieOvertempTrip x0 x1 => exact execDieOvertempTrip_evolves (_die := x0)
  | prochotAssert => exact execProchotAssert_evolves
  | prochotDeassert => exact execProchotDeassert_evolves
  | sysPwrokRise => exact absurd rfl h1
  | sysPwrokFall => exact absurd rfl h2
  | stage1Start => exact execStage1Start_evolves
  | firmwareImagesChecked => exact execFirmwareImagesChecked_evolves
  | hbmTrainingComplete _ => exact execHbmTrainingComplete_evolves
  | subtreeGenerated => exact execSubtreeGenerated_evolves
  | flashReq => exact execFlashReq_evolves
  | flashRelease => exact execFlashRelease_evolves
  | buttonPress _ => exact execButtonPress_evolves
  | abortWindowExpiry _ => exact execAbortWindowExpiry_evolves
  | drivePresenceChange _ _ _ => exact execDrivePresenceChange_evolves
  | driveFailure _ => exact execDriveFailure_evolves
  | driveIoComplete _ _ _ => exact execDriveIoComplete_evolves
  | tierTimeout _ => exact execTierTimeout_evolves
  | driveDrainComplete _ => exact execDriveDrainComplete_evolves
  | linkTrained _ => exact execLinkTrained_evolves
  | ident _ _ => exact execIdent_evolves
  | flitReceive _ _ _ => exact execFlitReceive_evolves
  | replayTimerExpiry _ => exact execReplayTimerExpiry_evolves
  | laneSignalLoss _ _ => exact execLaneSignalLoss_evolves
  | retrainComplete _ => exact execRetrainComplete_evolves
  | retrainTimeout _ => exact execRetrainTimeout_evolves
  | portDrainEnd _ => exact execPortDrainEnd_evolves
  | packetStart _ => exact execPacketStart_evolves
  | shaperRefill _ _ => exact execShaperRefill_evolves
  | gateEntryAdvance _ => exact execGateEntryAdvance_evolves
  | gateAdopt _ => exact execGateAdopt_evolves
  | packetForward _ _ => exact execPacketForward_evolves
  | read _ _ => exact execRead_evolves
  | write _ _ => exact execWrite_evolves
  | atomic _ _ => exact execAtomic_evolves
  | readData _ _ => exact execReadData_evolves
  | ack _ _ => exact execAck_evolves
  | nack _ _ => exact execNack_evolves
  | atomicData _ _ => exact execAtomicData_evolves
  | pendingRsp _ _ => exact execPendingRsp_evolves
  | publishPacket _ _ => exact execPublishPacket_evolves
  | publishResp _ _ => exact execPublishResp_evolves
  | versionRead _ _ => exact execVersionRead_evolves
  | versionData _ _ => exact execVersionData_evolves
  | fabricTxnTimeout _ => exact execFabricTxnTimeout_evolves
  | twinInvalidate _ => exact execTwinInvalidate_evolves
  | collLineTimeout _ _ _ => exact execCollLineTimeout_evolves
  | regionOpening _ _ _ _ _ _ _ _ _ _ _ => exact execRegionOpening_evolves
  | openingResponse _ _ _ _ _ _ => exact execOpeningResponse_evolves
  | prepare _ _ _ _ _ => exact execPrepare_evolves
  | ready _ _ => exact execReady_evolves
  | commit _ _ => exact execCommit_evolves
  | commitAck _ => exact execCommitAck_evolves
  | refuse _ _ => exact execRefuse_evolves
  | abandon _ _ => exact execAbandon_evolves
  | abandonAck _ => exact execAbandonAck_evolves
  | withdraw _ => exact execWithdraw_evolves
  | redirect _ _ _ => exact execRedirect_evolves
  | sourceQuery _ _ => exact execSourceQuery_evolves
  | moveStateBoundExpiry _ => exact execMoveStateBoundExpiry_evolves
  | prefixLookup _ => exact execPrefixLookup_evolves
  | prefixFetchComplete _ _ _ => exact execPrefixFetchComplete_evolves
  | layerPushStart _ _ => exact execLayerPushStart_evolves
  | workItemWrite _ _ _ _ _ => exact execWorkItemWrite_evolves
  | prefillLayerDone _ => exact execPrefillLayerDone_evolves
  | stepCommit _ => exact execStepCommit_evolves
  | deadlinePass _ => exact execDeadlinePass_evolves
  | demoteCheck => exact execDemoteCheck_evolves
  | demotionCommit _ => exact execDemotionCommit_evolves
  | recallCommit _ => exact execRecallCommit_evolves
  | recallTimeout _ => exact execRecallTimeout_evolves
  | ctxRetainExpiry _ => exact execCtxRetainExpiry_evolves
  | fwdRecordCheck => exact execFwdRecordCheck_evolves
  | mirrorScrub _ => exact execMirrorScrub_evolves
  | twinLinkFail => exact execTwinLinkFail_evolves
  | twinLinkReturn _ => exact execTwinLinkReturn_evolves
  | extentDrainEnd _ _ => exact execExtentDrainEnd_evolves
  | extentDrainTimeout _ _ => exact execExtentDrainTimeout_evolves
  | scrubComplete _ _ => exact execScrubComplete_evolves
  | descNop _ _ => exact execDescNop_evolves
  | set _ _ => exact execSet_evolves
  | add _ _ => exact execAdd_evolves
  | mul _ _ => exact execMul_evolves
  | ldreg _ _ => exact execLdreg_evolves
  | loop _ _ => exact execLoop_evolves
  | halt _ _ => exact execHalt_evolves
  | load _ _ => exact execLoad_evolves
  | gather _ _ => exact execGather_evolves
  | store _ _ => exact execStore_evolves
  | scatter _ _ => exact execScatter_evolves
  | descAtomic _ _ => exact execDescAtomic_evolves
  | matmul _ _ => exact execMatmul_evolves
  | vopAdd _ _ => exact execVopAdd_evolves
  | vopSub _ _ => exact execVopSub_evolves
  | vopMul _ _ => exact execVopMul_evolves
  | vopFma _ _ => exact execVopFma_evolves
  | vopMax _ _ => exact execVopMax_evolves
  | vopMin _ _ => exact execVopMin_evolves
  | cmpgt _ _ => exact execCmpgt_evolves
  | select _ _ => exact execSelect_evolves
  | convert _ _ => exact execConvert_evolves
  | exp _ _ => exact execExp_evolves
  | recip _ _ => exact execRecip_evolves
  | rsqrt _ _ => exact execRsqrt_evolves
  | rowsum _ _ => exact execRowsum_evolves
  | rowmax _ _ => exact execRowmax_evolves
  | drain _ _ => exact execDrain_evolves
  | ward _ _ => exact execWard_evolves
  | engineQueueTimeout _ => exact execEngineQueueTimeout_evolves
  | sliceEnd _ _ => exact execSliceEnd_evolves
  | yieldRequest _ _ => exact execYieldRequest_evolves
  | contextStopped _ _ => exact execContextStopped_evolves
  | preemptBoundExpiry _ _ => exact execPreemptBoundExpiry_evolves
  | saveComplete _ _ => exact execSaveComplete_evolves
  | restoreComplete _ _ => exact execRestoreComplete_evolves
  | tumblerIdleCycle _ => exact execTumblerIdleCycle_evolves
  | insertTimeout _ => exact execInsertTimeout_evolves
  | cascadeToken _ _ => exact execCascadeToken_evolves
  | cascadeTimeout _ => exact execCascadeTimeout_evolves
  | cascadeProbeTimer => exact execCascadeProbeTimer_evolves
  | boot _ _ _ _ => exact execBoot_evolves
  | linkPhaseEnd => exact execLinkPhaseEnd_evolves
  | claim _ _ _ _ => exact execClaim_evolves
  | sliceTable _ _ => exact execSliceTable_evolves
  | floodQuietExpiry => exact execFloodQuietExpiry_evolves
  | propose _ _ _ _ _ _ => exact execPropose_evolves
  | agreeAck _ _ _ _ _ => exact execAgreeAck_evolves
  | agreeTimeout => exact execAgreeTimeout_evolves
  | mapCommit _ _ _ => exact execMapCommit_evolves
  | heartbeatTimer => exact execHeartbeatTimer_evolves
  | heartbeat _ _ _ _ => exact execHeartbeat_evolves
  | probe _ _ _ _ _ => exact execProbe_evolves
  | probeAnswer _ _ _ _ _ => exact execProbeAnswer_evolves
  | probeInterval _ => exact execProbeInterval_evolves
  | nodeDown _ _ _ _ => exact execNodeDown_evolves
  | jobFault _ _ _ _ _ => exact execJobFault_evolves
  | teardown _ _ _ _ _ => exact execTeardown_evolves
  | dieHeartbeatTimeout _ => exact execDieHeartbeatTimeout_evolves
  | ctlWatchdogExpiry x0 => exact execCtlWatchdogExpiry_evolves (_core := x0)
  | controlRestartComplete _ _ => exact execControlRestartComplete_evolves
  | moduleDrainTimeout => exact execModuleDrainTimeout_evolves
  | spdmRequest _ _ => exact execSpdmRequest_evolves
  | vendorDefinedRequest _ _ => exact execVendorDefinedRequest_evolves
  | entdaa _ => exact execEntdaa_evolves
  | rstdaa => exact execRstdaa_evolves
  | objectCopyComplete _ _ => exact execObjectCopyComplete_evolves
  | driveTrained _ _ => exact execDriveTrained_evolves
  | peerDetected _ => exact execPeerDetected_evolves
  | i3cBusReset => exact execI3cBusReset_evolves
  | mctpControlMessage _ => exact execMctpControlMessage_evolves
  | flashWriteComplete => exact execFlashWriteComplete_evolves
  | selfRefreshExit => exact execSelfRefreshExit_evolves
  | drainRefusedPatternEnd _ => exact execDrainRefusedPatternEnd_evolves

end Sys2Proof.Machine
end

