-- ==== Sys2Proof/Laws/Host.lean ====
section
/-! SUPPORT. What a host command does: left in its ring, ended by a fetch fault, refused, completed or left in flight (02 R57, R61, R62). -/

namespace Sys2Proof.Machine

variable {r : CmdRow} {p : Pkt} {s : State}

/-- A packet the device cannot take now stays in its ring. -/
theorem hostCommand_waiting (h : s.mayTake p = false) : hostCommand r p s = s := by
  simp [hostCommand, h]

/-- A packet whose fetch faults completes with BAD_FIELD, `tag`, `opcode` and `handle` 0. -/
theorem hostCommand_fetchFault (h : s.mayTake p = true) (hf : p.fetchFault = true) :
    hostCommand r p s =
      (s.taken r p).finish { s.newCmd r p with tag := 0, opcode := 0, handle := 0, irq := false } (refuse sBadField) := by
  simp [hostCommand, h, hf, State.taken]

/-- A command taken whose packet was fetched. -/
theorem hostCommand_taken (h : s.mayTake p = true) (hf : p.fetchFault = false) :
    hostCommand r p s = match r.verdict p (s.taken r p) with
      | some a => (s.taken r p).finish (s.newCmd r p) a
      | none => match r.act p s.cmdNext (s.taken r p) with
        | .done a t => s.answered r p a t
        | .wait w c b t => s.waits r p w c b t := by
  unfold hostCommand
  rw [if_pos h]
  dsimp only
  rw [if_neg (by simp [hf])]
  rfl

/-- A command one of whose checks fails completes with that check's answer. -/
theorem hostCommand_refused {a : Ans} (h : s.mayTake p = true) (hf : p.fetchFault = false)
    (hv : r.verdict p (s.taken r p) = some a) : hostCommand r p s = (s.taken r p).finish (s.newCmd r p) a := by
  rw [hostCommand_taken h hf, hv]

/-- An accepted command that completes at once. -/
theorem hostCommand_done {a : Ans} {t : State} (h : Accepted r p s) (ha : r.act p s.cmdNext (s.taken r p) = .done a t) :
    hostCommand r p s = s.answered r p a t := by
  rw [hostCommand_taken h.1 h.2.1, h.2.2, ha]

/-- An accepted command that stays in flight. -/
theorem hostCommand_wait {w : Wait} {c : Bool} {b : Option Nat} {t : State} (h : Accepted r p s)
    (ha : r.act p s.cmdNext (s.taken r p) = .wait w c b t) : hostCommand r p s = s.waits r p w c b t := by
  rw [hostCommand_taken h.1 h.2.1, h.2.2, ha]

theorem State.takeFrom_cmdNext (s : State) (n : Nat) : (s.takeFrom n).cmdNext = s.cmdNext := by
  unfold State.takeFrom State.adopt State.setSq
  dsimp only
  split <;> (try split) <;> rfl

@[simp] theorem State.taken_lastCmd (s : State) (r : CmdRow) (p : Pkt) : (s.taken r p).lastCmd = s.cmdNext := by
  unfold State.taken State.lastCmd
  simp [State.takeFrom_cmdNext]

theorem Completes.of {c : Pkt → Instr} {cond : Pkt → State → Prop} {a : Pkt → State → Ans} {t : Pkt → State → State}
    (hc : ∀ p s, exec (c p) s = .next (hostCommand r p s))
    (ha : ∀ p u, cond p u → r.act p u.lastCmd u = .done (a p u) (t p u)) : Completes r c cond a t := fun p s h hp => by
  have := ha p _ hp
  rw [State.taken_lastCmd] at this
  rw [hc, hostCommand_done h this]

theorem Begins.of {c : Pkt → Instr} {cond : Pkt → State → Prop} {w : Pkt → State → Wait} {k : Bool} {b : Pkt → State → Option Nat}
    {t : Pkt → State → State} (hc : ∀ p s, exec (c p) s = .next (hostCommand r p s))
    (ha : ∀ p u, cond p u → r.act p u.lastCmd u = .wait (w p u) k (b p u) (t p u)) : Begins r c cond w k b t := fun p s h hp => by
  have := ha p _ hp
  rw [State.taken_lastCmd] at this
  rw [hc, hostCommand_wait h this]

end Sys2Proof.Machine
end

