-- ==== Sys2Proof/Laws/Frame.lean ====
section
/-! SUPPORT. What completing a command changes, and nothing else (02 R50, R51, R57, R58). -/

namespace Sys2Proof.Machine

/-- `s` with the rings, round robin, pending vectors, output record and commands in flight of `u`. -/
def State.posting (s u : State) : State :=
  { s with
    host := { s.host with
      sq := u.host.sq, cq := u.host.cq, wrrRing := u.host.wrrRing, wrrTaken := u.host.wrrTaken, msixPba := u.host.msixPba }
    hostWr := u.hostWr, msix := u.msix, inflight := u.inflight, cmdNext := u.cmdNext }

/-- `t` is `s` but for those. -/
def Posts (s t : State) : Prop := t = s.posting t

theorem Posts.refl (s : State) : Posts s s := rfl

theorem Posts.trans {s t u : State} (a : Posts s t) (b : Posts t u) : Posts s u :=
  have h := congrArg (fun x : State => x.posting u) (show t = s.posting t from a)
  Eq.trans b h

theorem Posts.foldl {α : Type} {f : State → α → State} (hf : ∀ u a, Posts u (f u a)) (l : List α) (s : State) : Posts s (l.foldl f s) := by
  induction l generalizing s with
  | nil => exact Posts.refl s
  | cons a l ih => exact (hf s a).trans (ih _)

theorem State.hostWrite_posts (s : State) (a : Nat) (bs : List Byte) : Posts s (s.hostWrite a bs) := rfl

theorem State.hostWrites_posts (s : State) (ws : List (Nat × List Byte)) : Posts s (s.hostWrites ws) :=
  Posts.foldl (f := fun u (w : Nat × List Byte) => u.hostWrite w.1 w.2) (fun u w => u.hostWrite_posts w.1 w.2) ws s

theorem State.setSq_posts (s : State) (n : Nat) (r : SubRing) : Posts s (s.setSq n r) := rfl
theorem State.setCq_posts (s : State) (n : Nat) (r : DevRing) : Posts s (s.setCq n r) := rfl

theorem State.signalVector_posts (s : State) (v : Nat) : Posts s (s.signalVector v) := by
  unfold State.signalVector
  repeat' split
  all_goals rfl

theorem State.cqPost_posts (s : State) (c : Nat) (e : Bool → Nat) (irq : Bool) : Posts s (s.cqPost c e irq) := by
  unfold State.cqPost
  dsimp only
  split
  · split
    · exact (((s.hostWrite_posts _ _).trans (State.setCq_posts _ _ _)).trans (State.signalVector_posts _ _))
    · exact (s.hostWrite_posts _ _).trans (State.setCq_posts _ _ _)
  · exact Posts.refl s

theorem State.postCompletion_posts (s : State) (f : Inflight) (a : Ans) : Posts s (s.postCompletion f a) := by
  unfold State.postCompletion
  split
  · dsimp only
    split
    · exact s.cqPost_posts _ _ _
    · exact (s.hostWrites_posts _).trans (State.cqPost_posts _ _ _ _)
  · exact Posts.refl s

theorem State.finish1_posts (s : State) (f : Inflight) (a : Ans) : Posts s (s.finish1 f a) :=
  (s.postCompletion_posts f a).trans (u := s.finish1 f a) rfl

theorem State.settleDeletes_posts (s : State) : Posts s s.settleDeletes := by
  refine Posts.foldl (fun u f => ?_) _ s
  split
  · split
    · exact (u.setSq_posts _ _).trans (State.finish1_posts _ _ _)
    · exact Posts.refl u
  · exact Posts.refl u

/-- Completing a command posts its completion and changes nothing else of the device. -/
theorem State.finish_posts (s : State) (f : Inflight) (a : Ans) : Posts s (s.finish f a) :=
  (s.finish1_posts f a).trans (State.settleDeletes_posts _)

theorem State.taken_posts (s : State) (r : CmdRow) (p : Pkt) : Posts (s.adopt kMaxInflight) (s.taken r p) := by
  unfold State.taken State.takeFrom
  dsimp only
  split <;> rfl

theorem OnlyCompletes.of_posts {s u : State} (h : Posts (s.adopt kMaxInflight) u) : OnlyCompletes s u := h

/-- A command that is taken and completes at once, on the state it was taken in, changes no more than its completion. -/
theorem OnlyCompletes.finish (s : State) (r : CmdRow) (p : Pkt) (f : Inflight) (a : Ans) : OnlyCompletes s ((s.taken r p).finish f a) :=
  OnlyCompletes.of_posts ((s.taken_posts r p).trans (State.finish_posts _ f a))

/-! ## Field by field: taking and completing a command leave these alone -/

section
variable {s t : State} (r : CmdRow) (p : Pkt) (f : Inflight) (a : Ans)

theorem Posts.pending (h : Posts s t) : t.pending = s.pending := Eq.trans (congrArg State.pending (show t = s.posting t from h)) rfl
theorem Posts.now (h : Posts s t) : t.now = s.now := Eq.trans (congrArg State.now (show t = s.posting t from h)) rfl
theorem Posts.islands (h : Posts s t) : t.islands = s.islands := Eq.trans (congrArg State.islands (show t = s.posting t from h)) rfl
theorem Posts.free (h : Posts s t) : t.free = s.free := Eq.trans (congrArg State.free (show t = s.posting t from h)) rfl
theorem Posts.keySet (h : Posts s t) : t.keySet = s.keySet := Eq.trans (congrArg State.keySet (show t = s.posting t from h)) rfl
theorem Posts.keyEff (h : Posts s t) : t.keyEff = s.keyEff := Eq.trans (congrArg State.keyEff (show t = s.posting t from h)) rfl
theorem Posts.ctrs (h : Posts s t) : t.ctrs = s.ctrs := Eq.trans (congrArg State.ctrs (show t = s.posting t from h)) rfl
theorem Posts.pow (h : Posts s t) : t.pow = s.pow := Eq.trans (congrArg State.pow (show t = s.posting t from h)) rfl
theorem Posts.board (h : Posts s t) : t.board = s.board := Eq.trans (congrArg State.board (show t = s.posting t from h)) rfl
theorem Posts.rcv (h : Posts s t) : t.rcv = s.rcv := Eq.trans (congrArg State.rcv (show t = s.posting t from h)) rfl
theorem Posts.ctxs (h : Posts s t) : t.ctxs = s.ctxs := Eq.trans (congrArg State.ctxs (show t = s.posting t from h)) rfl
theorem Posts.outHeld (h : Posts s t) : t.outHeld = s.outHeld := Eq.trans (congrArg State.outHeld (show t = s.posting t from h)) rfl
theorem Posts.latches (h : Posts s t) : t.latches = s.latches := Eq.trans (congrArg State.latches (show t = s.posting t from h)) rfl
theorem Posts.withheld (h : Posts s t) : t.withheld = s.withheld := Eq.trans (congrArg State.withheld (show t = s.posting t from h)) rfl
theorem Posts.images (h : Posts s t) : t.images = s.images := Eq.trans (congrArg State.images (show t = s.posting t from h)) rfl
theorem Posts.models (h : Posts s t) : t.models = s.models := Eq.trans (congrArg State.models (show t = s.posting t from h)) rfl
theorem Posts.deltas (h : Posts s t) : t.deltas = s.deltas := Eq.trans (congrArg State.deltas (show t = s.posting t from h)) rfl
theorem Posts.grammars (h : Posts s t) : t.grammars = s.grammars := Eq.trans (congrArg State.grammars (show t = s.posting t from h)) rfl
theorem Posts.prefixes (h : Posts s t) : t.prefixes = s.prefixes := Eq.trans (congrArg State.prefixes (show t = s.posting t from h)) rfl
theorem Posts.regions (h : Posts s t) : t.regions = s.regions := Eq.trans (congrArg State.regions (show t = s.posting t from h)) rfl
theorem Posts.nextId (h : Posts s t) : t.nextId = s.nextId := Eq.trans (congrArg State.nextId (show t = s.posting t from h)) rfl
theorem Posts.parts (h : Posts s t) : t.parts = s.parts := Eq.trans (congrArg State.parts (show t = s.posting t from h)) rfl
theorem Posts.pcs (h : Posts s t) : t.pcs = s.pcs := Eq.trans (congrArg State.pcs (show t = s.posting t from h)) rfl
theorem Posts.sp (h : Posts s t) : t.sp = s.sp := Eq.trans (congrArg State.sp (show t = s.posting t from h)) rfl
theorem Posts.acc (h : Posts s t) : t.acc = s.acc := Eq.trans (congrArg State.acc (show t = s.posting t from h)) rfl
theorem Posts.spPoison (h : Posts s t) : t.spPoison = s.spPoison := Eq.trans (congrArg State.spPoison (show t = s.posting t from h)) rfl
theorem Posts.accPoison (h : Posts s t) : t.accPoison = s.accPoison := Eq.trans (congrArg State.accPoison (show t = s.posting t from h)) rfl
theorem Posts.stats (h : Posts s t) : t.stats = s.stats := Eq.trans (congrArg State.stats (show t = s.posting t from h)) rfl
theorem Posts.expStats (h : Posts s t) : t.expStats = s.expStats := Eq.trans (congrArg State.expStats (show t = s.posting t from h)) rfl
theorem Posts.hbm (h : Posts s t) : t.hbm = s.hbm := Eq.trans (congrArg State.hbm (show t = s.posting t from h)) rfl
theorem Posts.fw (h : Posts s t) : t.fw = s.fw := Eq.trans (congrArg State.fw (show t = s.posting t from h)) rfl
theorem Posts.t2 (h : Posts s t) : t.t2 = s.t2 := Eq.trans (congrArg State.t2 (show t = s.posting t from h)) rfl
theorem Posts.t1x (h : Posts s t) : t.t1x = s.t1x := Eq.trans (congrArg State.t1x (show t = s.posting t from h)) rfl
theorem Posts.t1Res (h : Posts s t) : t.t1Res = s.t1Res := Eq.trans (congrArg State.t1Res (show t = s.posting t from h)) rfl
theorem Posts.t1Map (h : Posts s t) : t.t1Map = s.t1Map := Eq.trans (congrArg State.t1Map (show t = s.posting t from h)) rfl
theorem Posts.t1Cache (h : Posts s t) : t.t1Cache = s.t1Cache := Eq.trans (congrArg State.t1Cache (show t = s.posting t from h)) rfl
theorem Posts.t2x (h : Posts s t) : t.t2x = s.t2x := Eq.trans (congrArg State.t2x (show t = s.posting t from h)) rfl
theorem Posts.quota (h : Posts s t) : t.quota = s.quota := Eq.trans (congrArg State.quota (show t = s.posting t from h)) rfl
theorem Posts.usage (h : Posts s t) : t.usage = s.usage := Eq.trans (congrArg State.usage (show t = s.posting t from h)) rfl
theorem Posts.hostT1 (h : Posts s t) : t.hostT1 = s.hostT1 := Eq.trans (congrArg State.hostT1 (show t = s.posting t from h)) rfl
theorem Posts.drives (h : Posts s t) : t.drives = s.drives := Eq.trans (congrArg State.drives (show t = s.posting t from h)) rfl
theorem Posts.frames (h : Posts s t) : t.frames = s.frames := Eq.trans (congrArg State.frames (show t = s.posting t from h)) rfl
theorem Posts.tierOps (h : Posts s t) : t.tierOps = s.tierOps := Eq.trans (congrArg State.tierOps (show t = s.posting t from h)) rfl
theorem Posts.tierNext (h : Posts s t) : t.tierNext = s.tierNext := Eq.trans (congrArg State.tierNext (show t = s.posting t from h)) rfl
theorem Posts.fab (h : Posts s t) : t.fab = s.fab := Eq.trans (congrArg State.fab (show t = s.posting t from h)) rfl
theorem Posts.net (h : Posts s t) : t.net = s.net := Eq.trans (congrArg State.net (show t = s.posting t from h)) rfl
theorem Posts.tum (h : Posts s t) : t.tum = s.tum := Eq.trans (congrArg State.tum (show t = s.posting t from h)) rfl
theorem Posts.idn (h : Posts s t) : t.idn = s.idn := Eq.trans (congrArg State.idn (show t = s.posting t from h)) rfl
theorem Posts.compo (h : Posts s t) : t.compo = s.compo := Eq.trans (congrArg State.compo (show t = s.posting t from h)) rfl

@[simp] theorem State.taken_pending : (s.taken r p).pending = s.pending := (s.taken_posts r p).pending
@[simp] theorem State.finish_pending : (s.finish f a).pending = s.pending := (s.finish_posts f a).pending
@[simp] theorem State.taken_now : (s.taken r p).now = s.now := (s.taken_posts r p).now
@[simp] theorem State.finish_now : (s.finish f a).now = s.now := (s.finish_posts f a).now
@[simp] theorem State.taken_islands : (s.taken r p).islands = s.islands := (s.taken_posts r p).islands
@[simp] theorem State.finish_islands : (s.finish f a).islands = s.islands := (s.finish_posts f a).islands
@[simp] theorem State.taken_free : (s.taken r p).free = s.free := (s.taken_posts r p).free
@[simp] theorem State.finish_free : (s.finish f a).free = s.free := (s.finish_posts f a).free
@[simp] theorem State.taken_keySet : (s.taken r p).keySet = s.keySet := (s.taken_posts r p).keySet
@[simp] theorem State.finish_keySet : (s.finish f a).keySet = s.keySet := (s.finish_posts f a).keySet
@[simp] theorem State.finish_keyEff : (s.finish f a).keyEff = s.keyEff := (s.finish_posts f a).keyEff
@[simp] theorem State.taken_ctrs : (s.taken r p).ctrs = s.ctrs := (s.taken_posts r p).ctrs
@[simp] theorem State.finish_ctrs : (s.finish f a).ctrs = s.ctrs := (s.finish_posts f a).ctrs
@[simp] theorem State.taken_pow : (s.taken r p).pow = s.pow := (s.taken_posts r p).pow
@[simp] theorem State.finish_pow : (s.finish f a).pow = s.pow := (s.finish_posts f a).pow
@[simp] theorem State.taken_board : (s.taken r p).board = s.board := (s.taken_posts r p).board
@[simp] theorem State.finish_board : (s.finish f a).board = s.board := (s.finish_posts f a).board
@[simp] theorem State.taken_rcv : (s.taken r p).rcv = s.rcv := (s.taken_posts r p).rcv
@[simp] theorem State.finish_rcv : (s.finish f a).rcv = s.rcv := (s.finish_posts f a).rcv
@[simp] theorem State.taken_ctxs : (s.taken r p).ctxs = s.ctxs := (s.taken_posts r p).ctxs
@[simp] theorem State.finish_ctxs : (s.finish f a).ctxs = s.ctxs := (s.finish_posts f a).ctxs
@[simp] theorem State.taken_outHeld : (s.taken r p).outHeld = s.outHeld := (s.taken_posts r p).outHeld
@[simp] theorem State.finish_outHeld : (s.finish f a).outHeld = s.outHeld := (s.finish_posts f a).outHeld
@[simp] theorem State.taken_latches : (s.taken r p).latches = s.latches := (s.taken_posts r p).latches
@[simp] theorem State.finish_latches : (s.finish f a).latches = s.latches := (s.finish_posts f a).latches
@[simp] theorem State.taken_withheld : (s.taken r p).withheld = s.withheld := (s.taken_posts r p).withheld
@[simp] theorem State.finish_withheld : (s.finish f a).withheld = s.withheld := (s.finish_posts f a).withheld
@[simp] theorem State.taken_images : (s.taken r p).images = s.images := (s.taken_posts r p).images
@[simp] theorem State.finish_images : (s.finish f a).images = s.images := (s.finish_posts f a).images
@[simp] theorem State.taken_models : (s.taken r p).models = s.models := (s.taken_posts r p).models
@[simp] theorem State.finish_models : (s.finish f a).models = s.models := (s.finish_posts f a).models
@[simp] theorem State.taken_deltas : (s.taken r p).deltas = s.deltas := (s.taken_posts r p).deltas
@[simp] theorem State.finish_deltas : (s.finish f a).deltas = s.deltas := (s.finish_posts f a).deltas
@[simp] theorem State.taken_grammars : (s.taken r p).grammars = s.grammars := (s.taken_posts r p).grammars
@[simp] theorem State.finish_grammars : (s.finish f a).grammars = s.grammars := (s.finish_posts f a).grammars
@[simp] theorem State.taken_prefixes : (s.taken r p).prefixes = s.prefixes := (s.taken_posts r p).prefixes
@[simp] theorem State.finish_prefixes : (s.finish f a).prefixes = s.prefixes := (s.finish_posts f a).prefixes
@[simp] theorem State.taken_regions : (s.taken r p).regions = s.regions := (s.taken_posts r p).regions
@[simp] theorem State.finish_regions : (s.finish f a).regions = s.regions := (s.finish_posts f a).regions
@[simp] theorem State.taken_nextId : (s.taken r p).nextId = s.nextId := (s.taken_posts r p).nextId
@[simp] theorem State.finish_nextId : (s.finish f a).nextId = s.nextId := (s.finish_posts f a).nextId
@[simp] theorem State.taken_parts : (s.taken r p).parts = s.parts := (s.taken_posts r p).parts
@[simp] theorem State.finish_parts : (s.finish f a).parts = s.parts := (s.finish_posts f a).parts
@[simp] theorem State.taken_pcs : (s.taken r p).pcs = s.pcs := (s.taken_posts r p).pcs
@[simp] theorem State.finish_pcs : (s.finish f a).pcs = s.pcs := (s.finish_posts f a).pcs
@[simp] theorem State.taken_sp : (s.taken r p).sp = s.sp := (s.taken_posts r p).sp
@[simp] theorem State.finish_sp : (s.finish f a).sp = s.sp := (s.finish_posts f a).sp
@[simp] theorem State.taken_acc : (s.taken r p).acc = s.acc := (s.taken_posts r p).acc
@[simp] theorem State.finish_acc : (s.finish f a).acc = s.acc := (s.finish_posts f a).acc
@[simp] theorem State.taken_spPoison : (s.taken r p).spPoison = s.spPoison := (s.taken_posts r p).spPoison
@[simp] theorem State.finish_spPoison : (s.finish f a).spPoison = s.spPoison := (s.finish_posts f a).spPoison
@[simp] theorem State.taken_accPoison : (s.taken r p).accPoison = s.accPoison := (s.taken_posts r p).accPoison
@[simp] theorem State.finish_accPoison : (s.finish f a).accPoison = s.accPoison := (s.finish_posts f a).accPoison
@[simp] theorem State.taken_stats : (s.taken r p).stats = s.stats := (s.taken_posts r p).stats
@[simp] theorem State.finish_stats : (s.finish f a).stats = s.stats := (s.finish_posts f a).stats
@[simp] theorem State.taken_expStats : (s.taken r p).expStats = s.expStats := (s.taken_posts r p).expStats
@[simp] theorem State.finish_expStats : (s.finish f a).expStats = s.expStats := (s.finish_posts f a).expStats
@[simp] theorem State.taken_hbm : (s.taken r p).hbm = s.hbm := (s.taken_posts r p).hbm
@[simp] theorem State.finish_hbm : (s.finish f a).hbm = s.hbm := (s.finish_posts f a).hbm
@[simp] theorem State.taken_fw : (s.taken r p).fw = s.fw := (s.taken_posts r p).fw
@[simp] theorem State.finish_fw : (s.finish f a).fw = s.fw := (s.finish_posts f a).fw
@[simp] theorem State.taken_t2 : (s.taken r p).t2 = s.t2 := (s.taken_posts r p).t2
@[simp] theorem State.finish_t2 : (s.finish f a).t2 = s.t2 := (s.finish_posts f a).t2
@[simp] theorem State.taken_t1x : (s.taken r p).t1x = s.t1x := (s.taken_posts r p).t1x
@[simp] theorem State.finish_t1x : (s.finish f a).t1x = s.t1x := (s.finish_posts f a).t1x
@[simp] theorem State.taken_t1Res : (s.taken r p).t1Res = s.t1Res := (s.taken_posts r p).t1Res
@[simp] theorem State.finish_t1Res : (s.finish f a).t1Res = s.t1Res := (s.finish_posts f a).t1Res
@[simp] theorem State.taken_t1Map : (s.taken r p).t1Map = s.t1Map := (s.taken_posts r p).t1Map
@[simp] theorem State.finish_t1Map : (s.finish f a).t1Map = s.t1Map := (s.finish_posts f a).t1Map
@[simp] theorem State.taken_t1Cache : (s.taken r p).t1Cache = s.t1Cache := (s.taken_posts r p).t1Cache
@[simp] theorem State.finish_t1Cache : (s.finish f a).t1Cache = s.t1Cache := (s.finish_posts f a).t1Cache
@[simp] theorem State.taken_t2x : (s.taken r p).t2x = s.t2x := (s.taken_posts r p).t2x
@[simp] theorem State.finish_t2x : (s.finish f a).t2x = s.t2x := (s.finish_posts f a).t2x
@[simp] theorem State.taken_quota : (s.taken r p).quota = s.quota := (s.taken_posts r p).quota
@[simp] theorem State.finish_quota : (s.finish f a).quota = s.quota := (s.finish_posts f a).quota
@[simp] theorem State.taken_usage : (s.taken r p).usage = s.usage := (s.taken_posts r p).usage
@[simp] theorem State.finish_usage : (s.finish f a).usage = s.usage := (s.finish_posts f a).usage
@[simp] theorem State.taken_hostT1 : (s.taken r p).hostT1 = s.hostT1 := (s.taken_posts r p).hostT1
@[simp] theorem State.finish_hostT1 : (s.finish f a).hostT1 = s.hostT1 := (s.finish_posts f a).hostT1
@[simp] theorem State.taken_drives : (s.taken r p).drives = s.drives := (s.taken_posts r p).drives
@[simp] theorem State.finish_drives : (s.finish f a).drives = s.drives := (s.finish_posts f a).drives
@[simp] theorem State.taken_frames : (s.taken r p).frames = s.frames := (s.taken_posts r p).frames
@[simp] theorem State.finish_frames : (s.finish f a).frames = s.frames := (s.finish_posts f a).frames
@[simp] theorem State.taken_tierOps : (s.taken r p).tierOps = s.tierOps := (s.taken_posts r p).tierOps
@[simp] theorem State.finish_tierOps : (s.finish f a).tierOps = s.tierOps := (s.finish_posts f a).tierOps
@[simp] theorem State.taken_tierNext : (s.taken r p).tierNext = s.tierNext := (s.taken_posts r p).tierNext
@[simp] theorem State.finish_tierNext : (s.finish f a).tierNext = s.tierNext := (s.finish_posts f a).tierNext
@[simp] theorem State.taken_fab : (s.taken r p).fab = s.fab := (s.taken_posts r p).fab
@[simp] theorem State.finish_fab : (s.finish f a).fab = s.fab := (s.finish_posts f a).fab
@[simp] theorem State.taken_net : (s.taken r p).net = s.net := (s.taken_posts r p).net
@[simp] theorem State.finish_net : (s.finish f a).net = s.net := (s.finish_posts f a).net
@[simp] theorem State.taken_tum : (s.taken r p).tum = s.tum := (s.taken_posts r p).tum
@[simp] theorem State.finish_tum : (s.finish f a).tum = s.tum := (s.finish_posts f a).tum
@[simp] theorem State.taken_idn : (s.taken r p).idn = s.idn := (s.taken_posts r p).idn
@[simp] theorem State.finish_idn : (s.finish f a).idn = s.idn := (s.finish_posts f a).idn
@[simp] theorem State.taken_compo : (s.taken r p).compo = s.compo := (s.taken_posts r p).compo
@[simp] theorem State.finish_compo : (s.finish f a).compo = s.compo := (s.finish_posts f a).compo

end

end Sys2Proof.Machine
end

