-- ==== Sys2Proof/Laws/State.lean ====
section
/-! SUPPORT. What each named update of the state leaves alone, field by field, and what reads give after it. -/

namespace Sys2Proof.Machine

variable (s : State)

/-! ## Reads after updates -/

@[simp] theorem State.setSq_sqr (n m : Nat) (r : SubRing) : (s.setSq n r).sqr m = if m = n then r else s.sqr m := Tab.getD_put _ _ _ _ _
@[simp] theorem State.setCq_cqr (n m : Nat) (r : DevRing) : (s.setCq n r).cqr m = if m = n then r else s.cqr m := Tab.getD_put _ _ _ _ _
@[simp] theorem State.setOq_oqr (n m : Nat) (r : DevRing) : (s.setOq n r).oqr m = if m = n then r else s.oqr m := Tab.getD_put _ _ _ _ _
@[simp] theorem State.setCtx_ctx (n m : Nat) (r : Ctx) : (s.setCtx n r).ctx m = if m = n then r else s.ctx m := Tab.getD_put _ _ _ _ _
@[simp] theorem State.setPart_part (n m : Nat) (r : Part) : (s.setPart n r).part m = if m = n then r else s.part m := Tab.getD_put _ _ _ _ _
@[simp] theorem State.setPc_pc (n m : Nat) (r : ProgCtx) : (s.setPc n r).pc m = if m = n then r else s.pc m := Tab.getD_put _ _ _ _ _
@[simp] theorem State.setLink_link (n m : Nat) (r : Link) : (s.setLink n r).link m = if m = n then r else s.link m := Tab.getD_put _ _ _ _ _
@[simp] theorem State.setSess_sess (n m : Nat) (r : Sess) : (s.setSess n r).sess m = if m = n then r else s.sess m := Tab.getD_put _ _ _ _ _
@[simp] theorem State.setNode_node (n m : Nat) (r : Node) : (s.setNode n r).node m = if m = n then r else s.node m := Tab.getD_put _ _ _ _ _
@[simp] theorem State.setTable_table (n m : Nat) (r : Table) : (s.setTable n r).table m = if m = n then r else s.table m := Tab.getD_put _ _ _ _ _
@[simp] theorem State.setDrive_drive (n m : Nat) (r : Drive) : (s.setDrive n r).drive m = if m = n then r else s.drive m := Tab.getD_put _ _ _ _ _

/-! ## `setSq` -/

@[simp] theorem State.setSq_pending (n : Nat) (r : SubRing) : (s.setSq n r).pending = s.pending := rfl
@[simp] theorem State.setSq_now (n : Nat) (r : SubRing) : (s.setSq n r).now = s.now := rfl
@[simp] theorem State.setSq_islands (n : Nat) (r : SubRing) : (s.setSq n r).islands = s.islands := rfl
@[simp] theorem State.setSq_free (n : Nat) (r : SubRing) : (s.setSq n r).free = s.free := rfl
@[simp] theorem State.setSq_keySet (n : Nat) (r : SubRing) : (s.setSq n r).keySet = s.keySet := rfl
@[simp] theorem State.setSq_keyEff (n : Nat) (r : SubRing) : (s.setSq n r).keyEff = s.keyEff := rfl
@[simp] theorem State.setSq_ctrs (n : Nat) (r : SubRing) : (s.setSq n r).ctrs = s.ctrs := rfl
@[simp] theorem State.setSq_hostWr (n : Nat) (r : SubRing) : (s.setSq n r).hostWr = s.hostWr := rfl
@[simp] theorem State.setSq_msix (n : Nat) (r : SubRing) : (s.setSq n r).msix = s.msix := rfl
@[simp] theorem State.setSq_inflight (n : Nat) (r : SubRing) : (s.setSq n r).inflight = s.inflight := rfl
@[simp] theorem State.setSq_cmdNext (n : Nat) (r : SubRing) : (s.setSq n r).cmdNext = s.cmdNext := rfl
@[simp] theorem State.setSq_pow (n : Nat) (r : SubRing) : (s.setSq n r).pow = s.pow := rfl
@[simp] theorem State.setSq_board (n : Nat) (r : SubRing) : (s.setSq n r).board = s.board := rfl
@[simp] theorem State.setSq_rcv (n : Nat) (r : SubRing) : (s.setSq n r).rcv = s.rcv := rfl
@[simp] theorem State.setSq_ctxs (n : Nat) (r : SubRing) : (s.setSq n r).ctxs = s.ctxs := rfl
@[simp] theorem State.setSq_outHeld (n : Nat) (r : SubRing) : (s.setSq n r).outHeld = s.outHeld := rfl
@[simp] theorem State.setSq_latches (n : Nat) (r : SubRing) : (s.setSq n r).latches = s.latches := rfl
@[simp] theorem State.setSq_withheld (n : Nat) (r : SubRing) : (s.setSq n r).withheld = s.withheld := rfl
@[simp] theorem State.setSq_images (n : Nat) (r : SubRing) : (s.setSq n r).images = s.images := rfl
@[simp] theorem State.setSq_models (n : Nat) (r : SubRing) : (s.setSq n r).models = s.models := rfl
@[simp] theorem State.setSq_deltas (n : Nat) (r : SubRing) : (s.setSq n r).deltas = s.deltas := rfl
@[simp] theorem State.setSq_grammars (n : Nat) (r : SubRing) : (s.setSq n r).grammars = s.grammars := rfl
@[simp] theorem State.setSq_prefixes (n : Nat) (r : SubRing) : (s.setSq n r).prefixes = s.prefixes := rfl
@[simp] theorem State.setSq_regions (n : Nat) (r : SubRing) : (s.setSq n r).regions = s.regions := rfl
@[simp] theorem State.setSq_nextId (n : Nat) (r : SubRing) : (s.setSq n r).nextId = s.nextId := rfl
@[simp] theorem State.setSq_parts (n : Nat) (r : SubRing) : (s.setSq n r).parts = s.parts := rfl
@[simp] theorem State.setSq_pcs (n : Nat) (r : SubRing) : (s.setSq n r).pcs = s.pcs := rfl
@[simp] theorem State.setSq_sp (n : Nat) (r : SubRing) : (s.setSq n r).sp = s.sp := rfl
@[simp] theorem State.setSq_acc (n : Nat) (r : SubRing) : (s.setSq n r).acc = s.acc := rfl
@[simp] theorem State.setSq_spPoison (n : Nat) (r : SubRing) : (s.setSq n r).spPoison = s.spPoison := rfl
@[simp] theorem State.setSq_accPoison (n : Nat) (r : SubRing) : (s.setSq n r).accPoison = s.accPoison := rfl
@[simp] theorem State.setSq_stats (n : Nat) (r : SubRing) : (s.setSq n r).stats = s.stats := rfl
@[simp] theorem State.setSq_expStats (n : Nat) (r : SubRing) : (s.setSq n r).expStats = s.expStats := rfl
@[simp] theorem State.setSq_hbm (n : Nat) (r : SubRing) : (s.setSq n r).hbm = s.hbm := rfl
@[simp] theorem State.setSq_fw (n : Nat) (r : SubRing) : (s.setSq n r).fw = s.fw := rfl
@[simp] theorem State.setSq_t2 (n : Nat) (r : SubRing) : (s.setSq n r).t2 = s.t2 := rfl
@[simp] theorem State.setSq_t1x (n : Nat) (r : SubRing) : (s.setSq n r).t1x = s.t1x := rfl
@[simp] theorem State.setSq_t1Res (n : Nat) (r : SubRing) : (s.setSq n r).t1Res = s.t1Res := rfl
@[simp] theorem State.setSq_t1Map (n : Nat) (r : SubRing) : (s.setSq n r).t1Map = s.t1Map := rfl
@[simp] theorem State.setSq_t1Cache (n : Nat) (r : SubRing) : (s.setSq n r).t1Cache = s.t1Cache := rfl
@[simp] theorem State.setSq_t2x (n : Nat) (r : SubRing) : (s.setSq n r).t2x = s.t2x := rfl
@[simp] theorem State.setSq_quota (n : Nat) (r : SubRing) : (s.setSq n r).quota = s.quota := rfl
@[simp] theorem State.setSq_usage (n : Nat) (r : SubRing) : (s.setSq n r).usage = s.usage := rfl
@[simp] theorem State.setSq_hostT1 (n : Nat) (r : SubRing) : (s.setSq n r).hostT1 = s.hostT1 := rfl
@[simp] theorem State.setSq_drives (n : Nat) (r : SubRing) : (s.setSq n r).drives = s.drives := rfl
@[simp] theorem State.setSq_frames (n : Nat) (r : SubRing) : (s.setSq n r).frames = s.frames := rfl
@[simp] theorem State.setSq_tierOps (n : Nat) (r : SubRing) : (s.setSq n r).tierOps = s.tierOps := rfl
@[simp] theorem State.setSq_tierNext (n : Nat) (r : SubRing) : (s.setSq n r).tierNext = s.tierNext := rfl
@[simp] theorem State.setSq_fab (n : Nat) (r : SubRing) : (s.setSq n r).fab = s.fab := rfl
@[simp] theorem State.setSq_net (n : Nat) (r : SubRing) : (s.setSq n r).net = s.net := rfl
@[simp] theorem State.setSq_tum (n : Nat) (r : SubRing) : (s.setSq n r).tum = s.tum := rfl
@[simp] theorem State.setSq_idn (n : Nat) (r : SubRing) : (s.setSq n r).idn = s.idn := rfl
@[simp] theorem State.setSq_compo (n : Nat) (r : SubRing) : (s.setSq n r).compo = s.compo := rfl

/-! ## `setCq` -/

@[simp] theorem State.setCq_pending (n : Nat) (r : DevRing) : (s.setCq n r).pending = s.pending := rfl
@[simp] theorem State.setCq_now (n : Nat) (r : DevRing) : (s.setCq n r).now = s.now := rfl
@[simp] theorem State.setCq_islands (n : Nat) (r : DevRing) : (s.setCq n r).islands = s.islands := rfl
@[simp] theorem State.setCq_free (n : Nat) (r : DevRing) : (s.setCq n r).free = s.free := rfl
@[simp] theorem State.setCq_keySet (n : Nat) (r : DevRing) : (s.setCq n r).keySet = s.keySet := rfl
@[simp] theorem State.setCq_keyEff (n : Nat) (r : DevRing) : (s.setCq n r).keyEff = s.keyEff := rfl
@[simp] theorem State.setCq_ctrs (n : Nat) (r : DevRing) : (s.setCq n r).ctrs = s.ctrs := rfl
@[simp] theorem State.setCq_hostWr (n : Nat) (r : DevRing) : (s.setCq n r).hostWr = s.hostWr := rfl
@[simp] theorem State.setCq_msix (n : Nat) (r : DevRing) : (s.setCq n r).msix = s.msix := rfl
@[simp] theorem State.setCq_inflight (n : Nat) (r : DevRing) : (s.setCq n r).inflight = s.inflight := rfl
@[simp] theorem State.setCq_cmdNext (n : Nat) (r : DevRing) : (s.setCq n r).cmdNext = s.cmdNext := rfl
@[simp] theorem State.setCq_pow (n : Nat) (r : DevRing) : (s.setCq n r).pow = s.pow := rfl
@[simp] theorem State.setCq_board (n : Nat) (r : DevRing) : (s.setCq n r).board = s.board := rfl
@[simp] theorem State.setCq_rcv (n : Nat) (r : DevRing) : (s.setCq n r).rcv = s.rcv := rfl
@[simp] theorem State.setCq_ctxs (n : Nat) (r : DevRing) : (s.setCq n r).ctxs = s.ctxs := rfl
@[simp] theorem State.setCq_outHeld (n : Nat) (r : DevRing) : (s.setCq n r).outHeld = s.outHeld := rfl
@[simp] theorem State.setCq_latches (n : Nat) (r : DevRing) : (s.setCq n r).latches = s.latches := rfl
@[simp] theorem State.setCq_withheld (n : Nat) (r : DevRing) : (s.setCq n r).withheld = s.withheld := rfl
@[simp] theorem State.setCq_images (n : Nat) (r : DevRing) : (s.setCq n r).images = s.images := rfl
@[simp] theorem State.setCq_models (n : Nat) (r : DevRing) : (s.setCq n r).models = s.models := rfl
@[simp] theorem State.setCq_deltas (n : Nat) (r : DevRing) : (s.setCq n r).deltas = s.deltas := rfl
@[simp] theorem State.setCq_grammars (n : Nat) (r : DevRing) : (s.setCq n r).grammars = s.grammars := rfl
@[simp] theorem State.setCq_prefixes (n : Nat) (r : DevRing) : (s.setCq n r).prefixes = s.prefixes := rfl
@[simp] theorem State.setCq_regions (n : Nat) (r : DevRing) : (s.setCq n r).regions = s.regions := rfl
@[simp] theorem State.setCq_nextId (n : Nat) (r : DevRing) : (s.setCq n r).nextId = s.nextId := rfl
@[simp] theorem State.setCq_parts (n : Nat) (r : DevRing) : (s.setCq n r).parts = s.parts := rfl
@[simp] theorem State.setCq_pcs (n : Nat) (r : DevRing) : (s.setCq n r).pcs = s.pcs := rfl
@[simp] theorem State.setCq_sp (n : Nat) (r : DevRing) : (s.setCq n r).sp = s.sp := rfl
@[simp] theorem State.setCq_acc (n : Nat) (r : DevRing) : (s.setCq n r).acc = s.acc := rfl
@[simp] theorem State.setCq_spPoison (n : Nat) (r : DevRing) : (s.setCq n r).spPoison = s.spPoison := rfl
@[simp] theorem State.setCq_accPoison (n : Nat) (r : DevRing) : (s.setCq n r).accPoison = s.accPoison := rfl
@[simp] theorem State.setCq_stats (n : Nat) (r : DevRing) : (s.setCq n r).stats = s.stats := rfl
@[simp] theorem State.setCq_expStats (n : Nat) (r : DevRing) : (s.setCq n r).expStats = s.expStats := rfl
@[simp] theorem State.setCq_hbm (n : Nat) (r : DevRing) : (s.setCq n r).hbm = s.hbm := rfl
@[simp] theorem State.setCq_fw (n : Nat) (r : DevRing) : (s.setCq n r).fw = s.fw := rfl
@[simp] theorem State.setCq_t2 (n : Nat) (r : DevRing) : (s.setCq n r).t2 = s.t2 := rfl
@[simp] theorem State.setCq_t1x (n : Nat) (r : DevRing) : (s.setCq n r).t1x = s.t1x := rfl
@[simp] theorem State.setCq_t1Res (n : Nat) (r : DevRing) : (s.setCq n r).t1Res = s.t1Res := rfl
@[simp] theorem State.setCq_t1Map (n : Nat) (r : DevRing) : (s.setCq n r).t1Map = s.t1Map := rfl
@[simp] theorem State.setCq_t1Cache (n : Nat) (r : DevRing) : (s.setCq n r).t1Cache = s.t1Cache := rfl
@[simp] theorem State.setCq_t2x (n : Nat) (r : DevRing) : (s.setCq n r).t2x = s.t2x := rfl
@[simp] theorem State.setCq_quota (n : Nat) (r : DevRing) : (s.setCq n r).quota = s.quota := rfl
@[simp] theorem State.setCq_usage (n : Nat) (r : DevRing) : (s.setCq n r).usage = s.usage := rfl
@[simp] theorem State.setCq_hostT1 (n : Nat) (r : DevRing) : (s.setCq n r).hostT1 = s.hostT1 := rfl
@[simp] theorem State.setCq_drives (n : Nat) (r : DevRing) : (s.setCq n r).drives = s.drives := rfl
@[simp] theorem State.setCq_frames (n : Nat) (r : DevRing) : (s.setCq n r).frames = s.frames := rfl
@[simp] theorem State.setCq_tierOps (n : Nat) (r : DevRing) : (s.setCq n r).tierOps = s.tierOps := rfl
@[simp] theorem State.setCq_tierNext (n : Nat) (r : DevRing) : (s.setCq n r).tierNext = s.tierNext := rfl
@[simp] theorem State.setCq_fab (n : Nat) (r : DevRing) : (s.setCq n r).fab = s.fab := rfl
@[simp] theorem State.setCq_net (n : Nat) (r : DevRing) : (s.setCq n r).net = s.net := rfl
@[simp] theorem State.setCq_tum (n : Nat) (r : DevRing) : (s.setCq n r).tum = s.tum := rfl
@[simp] theorem State.setCq_idn (n : Nat) (r : DevRing) : (s.setCq n r).idn = s.idn := rfl
@[simp] theorem State.setCq_compo (n : Nat) (r : DevRing) : (s.setCq n r).compo = s.compo := rfl

/-! ## `setOq` -/

@[simp] theorem State.setOq_pending (n : Nat) (r : DevRing) : (s.setOq n r).pending = s.pending := rfl
@[simp] theorem State.setOq_now (n : Nat) (r : DevRing) : (s.setOq n r).now = s.now := rfl
@[simp] theorem State.setOq_islands (n : Nat) (r : DevRing) : (s.setOq n r).islands = s.islands := rfl
@[simp] theorem State.setOq_free (n : Nat) (r : DevRing) : (s.setOq n r).free = s.free := rfl
@[simp] theorem State.setOq_keySet (n : Nat) (r : DevRing) : (s.setOq n r).keySet = s.keySet := rfl
@[simp] theorem State.setOq_keyEff (n : Nat) (r : DevRing) : (s.setOq n r).keyEff = s.keyEff := rfl
@[simp] theorem State.setOq_ctrs (n : Nat) (r : DevRing) : (s.setOq n r).ctrs = s.ctrs := rfl
@[simp] theorem State.setOq_hostWr (n : Nat) (r : DevRing) : (s.setOq n r).hostWr = s.hostWr := rfl
@[simp] theorem State.setOq_msix (n : Nat) (r : DevRing) : (s.setOq n r).msix = s.msix := rfl
@[simp] theorem State.setOq_inflight (n : Nat) (r : DevRing) : (s.setOq n r).inflight = s.inflight := rfl
@[simp] theorem State.setOq_cmdNext (n : Nat) (r : DevRing) : (s.setOq n r).cmdNext = s.cmdNext := rfl
@[simp] theorem State.setOq_pow (n : Nat) (r : DevRing) : (s.setOq n r).pow = s.pow := rfl
@[simp] theorem State.setOq_board (n : Nat) (r : DevRing) : (s.setOq n r).board = s.board := rfl
@[simp] theorem State.setOq_rcv (n : Nat) (r : DevRing) : (s.setOq n r).rcv = s.rcv := rfl
@[simp] theorem State.setOq_ctxs (n : Nat) (r : DevRing) : (s.setOq n r).ctxs = s.ctxs := rfl
@[simp] theorem State.setOq_outHeld (n : Nat) (r : DevRing) : (s.setOq n r).outHeld = s.outHeld := rfl
@[simp] theorem State.setOq_latches (n : Nat) (r : DevRing) : (s.setOq n r).latches = s.latches := rfl
@[simp] theorem State.setOq_withheld (n : Nat) (r : DevRing) : (s.setOq n r).withheld = s.withheld := rfl
@[simp] theorem State.setOq_images (n : Nat) (r : DevRing) : (s.setOq n r).images = s.images := rfl
@[simp] theorem State.setOq_models (n : Nat) (r : DevRing) : (s.setOq n r).models = s.models := rfl
@[simp] theorem State.setOq_deltas (n : Nat) (r : DevRing) : (s.setOq n r).deltas = s.deltas := rfl
@[simp] theorem State.setOq_grammars (n : Nat) (r : DevRing) : (s.setOq n r).grammars = s.grammars := rfl
@[simp] theorem State.setOq_prefixes (n : Nat) (r : DevRing) : (s.setOq n r).prefixes = s.prefixes := rfl
@[simp] theorem State.setOq_regions (n : Nat) (r : DevRing) : (s.setOq n r).regions = s.regions := rfl
@[simp] theorem State.setOq_nextId (n : Nat) (r : DevRing) : (s.setOq n r).nextId = s.nextId := rfl
@[simp] theorem State.setOq_parts (n : Nat) (r : DevRing) : (s.setOq n r).parts = s.parts := rfl
@[simp] theorem State.setOq_pcs (n : Nat) (r : DevRing) : (s.setOq n r).pcs = s.pcs := rfl
@[simp] theorem State.setOq_sp (n : Nat) (r : DevRing) : (s.setOq n r).sp = s.sp := rfl
@[simp] theorem State.setOq_acc (n : Nat) (r : DevRing) : (s.setOq n r).acc = s.acc := rfl
@[simp] theorem State.setOq_spPoison (n : Nat) (r : DevRing) : (s.setOq n r).spPoison = s.spPoison := rfl
@[simp] theorem State.setOq_accPoison (n : Nat) (r : DevRing) : (s.setOq n r).accPoison = s.accPoison := rfl
@[simp] theorem State.setOq_stats (n : Nat) (r : DevRing) : (s.setOq n r).stats = s.stats := rfl
@[simp] theorem State.setOq_expStats (n : Nat) (r : DevRing) : (s.setOq n r).expStats = s.expStats := rfl
@[simp] theorem State.setOq_hbm (n : Nat) (r : DevRing) : (s.setOq n r).hbm = s.hbm := rfl
@[simp] theorem State.setOq_fw (n : Nat) (r : DevRing) : (s.setOq n r).fw = s.fw := rfl
@[simp] theorem State.setOq_t2 (n : Nat) (r : DevRing) : (s.setOq n r).t2 = s.t2 := rfl
@[simp] theorem State.setOq_t1x (n : Nat) (r : DevRing) : (s.setOq n r).t1x = s.t1x := rfl
@[simp] theorem State.setOq_t1Res (n : Nat) (r : DevRing) : (s.setOq n r).t1Res = s.t1Res := rfl
@[simp] theorem State.setOq_t1Map (n : Nat) (r : DevRing) : (s.setOq n r).t1Map = s.t1Map := rfl
@[simp] theorem State.setOq_t1Cache (n : Nat) (r : DevRing) : (s.setOq n r).t1Cache = s.t1Cache := rfl
@[simp] theorem State.setOq_t2x (n : Nat) (r : DevRing) : (s.setOq n r).t2x = s.t2x := rfl
@[simp] theorem State.setOq_quota (n : Nat) (r : DevRing) : (s.setOq n r).quota = s.quota := rfl
@[simp] theorem State.setOq_usage (n : Nat) (r : DevRing) : (s.setOq n r).usage = s.usage := rfl
@[simp] theorem State.setOq_hostT1 (n : Nat) (r : DevRing) : (s.setOq n r).hostT1 = s.hostT1 := rfl
@[simp] theorem State.setOq_drives (n : Nat) (r : DevRing) : (s.setOq n r).drives = s.drives := rfl
@[simp] theorem State.setOq_frames (n : Nat) (r : DevRing) : (s.setOq n r).frames = s.frames := rfl
@[simp] theorem State.setOq_tierOps (n : Nat) (r : DevRing) : (s.setOq n r).tierOps = s.tierOps := rfl
@[simp] theorem State.setOq_tierNext (n : Nat) (r : DevRing) : (s.setOq n r).tierNext = s.tierNext := rfl
@[simp] theorem State.setOq_fab (n : Nat) (r : DevRing) : (s.setOq n r).fab = s.fab := rfl
@[simp] theorem State.setOq_net (n : Nat) (r : DevRing) : (s.setOq n r).net = s.net := rfl
@[simp] theorem State.setOq_tum (n : Nat) (r : DevRing) : (s.setOq n r).tum = s.tum := rfl
@[simp] theorem State.setOq_idn (n : Nat) (r : DevRing) : (s.setOq n r).idn = s.idn := rfl
@[simp] theorem State.setOq_compo (n : Nat) (r : DevRing) : (s.setOq n r).compo = s.compo := rfl

/-! ## `hostWrite` -/

@[simp] theorem State.hostWrite_pending (a : Nat) (bs : List Byte) : (s.hostWrite a bs).pending = s.pending := rfl
@[simp] theorem State.hostWrite_now (a : Nat) (bs : List Byte) : (s.hostWrite a bs).now = s.now := rfl
@[simp] theorem State.hostWrite_islands (a : Nat) (bs : List Byte) : (s.hostWrite a bs).islands = s.islands := rfl
@[simp] theorem State.hostWrite_free (a : Nat) (bs : List Byte) : (s.hostWrite a bs).free = s.free := rfl
@[simp] theorem State.hostWrite_keySet (a : Nat) (bs : List Byte) : (s.hostWrite a bs).keySet = s.keySet := rfl
@[simp] theorem State.hostWrite_keyEff (a : Nat) (bs : List Byte) : (s.hostWrite a bs).keyEff = s.keyEff := rfl
@[simp] theorem State.hostWrite_ctrs (a : Nat) (bs : List Byte) : (s.hostWrite a bs).ctrs = s.ctrs := rfl
@[simp] theorem State.hostWrite_host (a : Nat) (bs : List Byte) : (s.hostWrite a bs).host = s.host := rfl
@[simp] theorem State.hostWrite_msix (a : Nat) (bs : List Byte) : (s.hostWrite a bs).msix = s.msix := rfl
@[simp] theorem State.hostWrite_inflight (a : Nat) (bs : List Byte) : (s.hostWrite a bs).inflight = s.inflight := rfl
@[simp] theorem State.hostWrite_cmdNext (a : Nat) (bs : List Byte) : (s.hostWrite a bs).cmdNext = s.cmdNext := rfl
@[simp] theorem State.hostWrite_pow (a : Nat) (bs : List Byte) : (s.hostWrite a bs).pow = s.pow := rfl
@[simp] theorem State.hostWrite_board (a : Nat) (bs : List Byte) : (s.hostWrite a bs).board = s.board := rfl
@[simp] theorem State.hostWrite_rcv (a : Nat) (bs : List Byte) : (s.hostWrite a bs).rcv = s.rcv := rfl
@[simp] theorem State.hostWrite_ctxs (a : Nat) (bs : List Byte) : (s.hostWrite a bs).ctxs = s.ctxs := rfl
@[simp] theorem State.hostWrite_outHeld (a : Nat) (bs : List Byte) : (s.hostWrite a bs).outHeld = s.outHeld := rfl
@[simp] theorem State.hostWrite_latches (a : Nat) (bs : List Byte) : (s.hostWrite a bs).latches = s.latches := rfl
@[simp] theorem State.hostWrite_withheld (a : Nat) (bs : List Byte) : (s.hostWrite a bs).withheld = s.withheld := rfl
@[simp] theorem State.hostWrite_images (a : Nat) (bs : List Byte) : (s.hostWrite a bs).images = s.images := rfl
@[simp] theorem State.hostWrite_models (a : Nat) (bs : List Byte) : (s.hostWrite a bs).models = s.models := rfl
@[simp] theorem State.hostWrite_deltas (a : Nat) (bs : List Byte) : (s.hostWrite a bs).deltas = s.deltas := rfl
@[simp] theorem State.hostWrite_grammars (a : Nat) (bs : List Byte) : (s.hostWrite a bs).grammars = s.grammars := rfl
@[simp] theorem State.hostWrite_prefixes (a : Nat) (bs : List Byte) : (s.hostWrite a bs).prefixes = s.prefixes := rfl
@[simp] theorem State.hostWrite_regions (a : Nat) (bs : List Byte) : (s.hostWrite a bs).regions = s.regions := rfl
@[simp] theorem State.hostWrite_nextId (a : Nat) (bs : List Byte) : (s.hostWrite a bs).nextId = s.nextId := rfl
@[simp] theorem State.hostWrite_parts (a : Nat) (bs : List Byte) : (s.hostWrite a bs).parts = s.parts := rfl
@[simp] theorem State.hostWrite_pcs (a : Nat) (bs : List Byte) : (s.hostWrite a bs).pcs = s.pcs := rfl
@[simp] theorem State.hostWrite_sp (a : Nat) (bs : List Byte) : (s.hostWrite a bs).sp = s.sp := rfl
@[simp] theorem State.hostWrite_acc (a : Nat) (bs : List Byte) : (s.hostWrite a bs).acc = s.acc := rfl
@[simp] theorem State.hostWrite_spPoison (a : Nat) (bs : List Byte) : (s.hostWrite a bs).spPoison = s.spPoison := rfl
@[simp] theorem State.hostWrite_accPoison (a : Nat) (bs : List Byte) : (s.hostWrite a bs).accPoison = s.accPoison := rfl
@[simp] theorem State.hostWrite_stats (a : Nat) (bs : List Byte) : (s.hostWrite a bs).stats = s.stats := rfl
@[simp] theorem State.hostWrite_expStats (a : Nat) (bs : List Byte) : (s.hostWrite a bs).expStats = s.expStats := rfl
@[simp] theorem State.hostWrite_hbm (a : Nat) (bs : List Byte) : (s.hostWrite a bs).hbm = s.hbm := rfl
@[simp] theorem State.hostWrite_fw (a : Nat) (bs : List Byte) : (s.hostWrite a bs).fw = s.fw := rfl
@[simp] theorem State.hostWrite_t2 (a : Nat) (bs : List Byte) : (s.hostWrite a bs).t2 = s.t2 := rfl
@[simp] theorem State.hostWrite_t1x (a : Nat) (bs : List Byte) : (s.hostWrite a bs).t1x = s.t1x := rfl
@[simp] theorem State.hostWrite_t1Res (a : Nat) (bs : List Byte) : (s.hostWrite a bs).t1Res = s.t1Res := rfl
@[simp] theorem State.hostWrite_t1Map (a : Nat) (bs : List Byte) : (s.hostWrite a bs).t1Map = s.t1Map := rfl
@[simp] theorem State.hostWrite_t1Cache (a : Nat) (bs : List Byte) : (s.hostWrite a bs).t1Cache = s.t1Cache := rfl
@[simp] theorem State.hostWrite_t2x (a : Nat) (bs : List Byte) : (s.hostWrite a bs).t2x = s.t2x := rfl
@[simp] theorem State.hostWrite_quota (a : Nat) (bs : List Byte) : (s.hostWrite a bs).quota = s.quota := rfl
@[simp] theorem State.hostWrite_usage (a : Nat) (bs : List Byte) : (s.hostWrite a bs).usage = s.usage := rfl
@[simp] theorem State.hostWrite_hostT1 (a : Nat) (bs : List Byte) : (s.hostWrite a bs).hostT1 = s.hostT1 := rfl
@[simp] theorem State.hostWrite_drives (a : Nat) (bs : List Byte) : (s.hostWrite a bs).drives = s.drives := rfl
@[simp] theorem State.hostWrite_frames (a : Nat) (bs : List Byte) : (s.hostWrite a bs).frames = s.frames := rfl
@[simp] theorem State.hostWrite_tierOps (a : Nat) (bs : List Byte) : (s.hostWrite a bs).tierOps = s.tierOps := rfl
@[simp] theorem State.hostWrite_tierNext (a : Nat) (bs : List Byte) : (s.hostWrite a bs).tierNext = s.tierNext := rfl
@[simp] theorem State.hostWrite_fab (a : Nat) (bs : List Byte) : (s.hostWrite a bs).fab = s.fab := rfl
@[simp] theorem State.hostWrite_net (a : Nat) (bs : List Byte) : (s.hostWrite a bs).net = s.net := rfl
@[simp] theorem State.hostWrite_tum (a : Nat) (bs : List Byte) : (s.hostWrite a bs).tum = s.tum := rfl
@[simp] theorem State.hostWrite_idn (a : Nat) (bs : List Byte) : (s.hostWrite a bs).idn = s.idn := rfl
@[simp] theorem State.hostWrite_compo (a : Nat) (bs : List Byte) : (s.hostWrite a bs).compo = s.compo := rfl

/-! ## `logEvent` -/

@[simp] theorem State.logEvent_pending (c h a b : Nat) : (s.logEvent c h a b).pending = s.pending := by unfold State.logEvent; rfl
@[simp] theorem State.logEvent_now (c h a b : Nat) : (s.logEvent c h a b).now = s.now := by unfold State.logEvent; rfl
@[simp] theorem State.logEvent_islands (c h a b : Nat) : (s.logEvent c h a b).islands = s.islands := by unfold State.logEvent; rfl
@[simp] theorem State.logEvent_free (c h a b : Nat) : (s.logEvent c h a b).free = s.free := by unfold State.logEvent; rfl
@[simp] theorem State.logEvent_keySet (c h a b : Nat) : (s.logEvent c h a b).keySet = s.keySet := by unfold State.logEvent; rfl
@[simp] theorem State.logEvent_keyEff (c h a b : Nat) : (s.logEvent c h a b).keyEff = s.keyEff := by unfold State.logEvent; rfl
@[simp] theorem State.logEvent_ctrs (c h a b : Nat) : (s.logEvent c h a b).ctrs = s.ctrs := by unfold State.logEvent; rfl
@[simp] theorem State.logEvent_host (c h a b : Nat) : (s.logEvent c h a b).host = s.host := by unfold State.logEvent; rfl
@[simp] theorem State.logEvent_hostWr (c h a b : Nat) : (s.logEvent c h a b).hostWr = s.hostWr := by unfold State.logEvent; rfl
@[simp] theorem State.logEvent_msix (c h a b : Nat) : (s.logEvent c h a b).msix = s.msix := by unfold State.logEvent; rfl
@[simp] theorem State.logEvent_inflight (c h a b : Nat) : (s.logEvent c h a b).inflight = s.inflight := by unfold State.logEvent; rfl
@[simp] theorem State.logEvent_cmdNext (c h a b : Nat) : (s.logEvent c h a b).cmdNext = s.cmdNext := by unfold State.logEvent; rfl
@[simp] theorem State.logEvent_pow (c h a b : Nat) : (s.logEvent c h a b).pow = s.pow := by unfold State.logEvent; rfl
@[simp] theorem State.logEvent_board (c h a b : Nat) : (s.logEvent c h a b).board = s.board := by unfold State.logEvent; rfl
@[simp] theorem State.logEvent_ctxs (c h a b : Nat) : (s.logEvent c h a b).ctxs = s.ctxs := by unfold State.logEvent; rfl
@[simp] theorem State.logEvent_outHeld (c h a b : Nat) : (s.logEvent c h a b).outHeld = s.outHeld := by unfold State.logEvent; rfl
@[simp] theorem State.logEvent_latches (c h a b : Nat) : (s.logEvent c h a b).latches = s.latches := by unfold State.logEvent; rfl
@[simp] theorem State.logEvent_withheld (c h a b : Nat) : (s.logEvent c h a b).withheld = s.withheld := by unfold State.logEvent; rfl
@[simp] theorem State.logEvent_images (c h a b : Nat) : (s.logEvent c h a b).images = s.images := by unfold State.logEvent; rfl
@[simp] theorem State.logEvent_models (c h a b : Nat) : (s.logEvent c h a b).models = s.models := by unfold State.logEvent; rfl
@[simp] theorem State.logEvent_deltas (c h a b : Nat) : (s.logEvent c h a b).deltas = s.deltas := by unfold State.logEvent; rfl
@[simp] theorem State.logEvent_grammars (c h a b : Nat) : (s.logEvent c h a b).grammars = s.grammars := by unfold State.logEvent; rfl
@[simp] theorem State.logEvent_prefixes (c h a b : Nat) : (s.logEvent c h a b).prefixes = s.prefixes := by unfold State.logEvent; rfl
@[simp] theorem State.logEvent_regions (c h a b : Nat) : (s.logEvent c h a b).regions = s.regions := by unfold State.logEvent; rfl
@[simp] theorem State.logEvent_nextId (c h a b : Nat) : (s.logEvent c h a b).nextId = s.nextId := by unfold State.logEvent; rfl
@[simp] theorem State.logEvent_parts (c h a b : Nat) : (s.logEvent c h a b).parts = s.parts := by unfold State.logEvent; rfl
@[simp] theorem State.logEvent_pcs (c h a b : Nat) : (s.logEvent c h a b).pcs = s.pcs := by unfold State.logEvent; rfl
@[simp] theorem State.logEvent_sp (c h a b : Nat) : (s.logEvent c h a b).sp = s.sp := by unfold State.logEvent; rfl
@[simp] theorem State.logEvent_acc (c h a b : Nat) : (s.logEvent c h a b).acc = s.acc := by unfold State.logEvent; rfl
@[simp] theorem State.logEvent_spPoison (c h a b : Nat) : (s.logEvent c h a b).spPoison = s.spPoison := by unfold State.logEvent; rfl
@[simp] theorem State.logEvent_accPoison (c h a b : Nat) : (s.logEvent c h a b).accPoison = s.accPoison := by unfold State.logEvent; rfl
@[simp] theorem State.logEvent_stats (c h a b : Nat) : (s.logEvent c h a b).stats = s.stats := by unfold State.logEvent; rfl
@[simp] theorem State.logEvent_expStats (c h a b : Nat) : (s.logEvent c h a b).expStats = s.expStats := by unfold State.logEvent; rfl
@[simp] theorem State.logEvent_hbm (c h a b : Nat) : (s.logEvent c h a b).hbm = s.hbm := by unfold State.logEvent; rfl
@[simp] theorem State.logEvent_fw (c h a b : Nat) : (s.logEvent c h a b).fw = s.fw := by unfold State.logEvent; rfl
@[simp] theorem State.logEvent_t2 (c h a b : Nat) : (s.logEvent c h a b).t2 = s.t2 := by unfold State.logEvent; rfl
@[simp] theorem State.logEvent_t1x (c h a b : Nat) : (s.logEvent c h a b).t1x = s.t1x := by unfold State.logEvent; rfl
@[simp] theorem State.logEvent_t1Res (c h a b : Nat) : (s.logEvent c h a b).t1Res = s.t1Res := by unfold State.logEvent; rfl
@[simp] theorem State.logEvent_t1Map (c h a b : Nat) : (s.logEvent c h a b).t1Map = s.t1Map := by unfold State.logEvent; rfl
@[simp] theorem State.logEvent_t1Cache (c h a b : Nat) : (s.logEvent c h a b).t1Cache = s.t1Cache := by unfold State.logEvent; rfl
@[simp] theorem State.logEvent_t2x (c h a b : Nat) : (s.logEvent c h a b).t2x = s.t2x := by unfold State.logEvent; rfl
@[simp] theorem State.logEvent_quota (c h a b : Nat) : (s.logEvent c h a b).quota = s.quota := by unfold State.logEvent; rfl
@[simp] theorem State.logEvent_usage (c h a b : Nat) : (s.logEvent c h a b).usage = s.usage := by unfold State.logEvent; rfl
@[simp] theorem State.logEvent_hostT1 (c h a b : Nat) : (s.logEvent c h a b).hostT1 = s.hostT1 := by unfold State.logEvent; rfl
@[simp] theorem State.logEvent_drives (c h a b : Nat) : (s.logEvent c h a b).drives = s.drives := by unfold State.logEvent; rfl
@[simp] theorem State.logEvent_frames (c h a b : Nat) : (s.logEvent c h a b).frames = s.frames := by unfold State.logEvent; rfl
@[simp] theorem State.logEvent_tierOps (c h a b : Nat) : (s.logEvent c h a b).tierOps = s.tierOps := by unfold State.logEvent; rfl
@[simp] theorem State.logEvent_tierNext (c h a b : Nat) : (s.logEvent c h a b).tierNext = s.tierNext := by unfold State.logEvent; rfl
@[simp] theorem State.logEvent_fab (c h a b : Nat) : (s.logEvent c h a b).fab = s.fab := by unfold State.logEvent; rfl
@[simp] theorem State.logEvent_net (c h a b : Nat) : (s.logEvent c h a b).net = s.net := by unfold State.logEvent; rfl
@[simp] theorem State.logEvent_tum (c h a b : Nat) : (s.logEvent c h a b).tum = s.tum := by unfold State.logEvent; rfl
@[simp] theorem State.logEvent_idn (c h a b : Nat) : (s.logEvent c h a b).idn = s.idn := by unfold State.logEvent; rfl
@[simp] theorem State.logEvent_compo (c h a b : Nat) : (s.logEvent c h a b).compo = s.compo := by unfold State.logEvent; rfl

/-! ## `bump` -/

@[simp] theorem State.bump_pending (k n ix : Nat) : (s.bump k n ix).pending = s.pending := rfl
@[simp] theorem State.bump_now (k n ix : Nat) : (s.bump k n ix).now = s.now := rfl
@[simp] theorem State.bump_islands (k n ix : Nat) : (s.bump k n ix).islands = s.islands := rfl
@[simp] theorem State.bump_free (k n ix : Nat) : (s.bump k n ix).free = s.free := rfl
@[simp] theorem State.bump_keySet (k n ix : Nat) : (s.bump k n ix).keySet = s.keySet := rfl
@[simp] theorem State.bump_keyEff (k n ix : Nat) : (s.bump k n ix).keyEff = s.keyEff := rfl
@[simp] theorem State.bump_host (k n ix : Nat) : (s.bump k n ix).host = s.host := rfl
@[simp] theorem State.bump_hostWr (k n ix : Nat) : (s.bump k n ix).hostWr = s.hostWr := rfl
@[simp] theorem State.bump_msix (k n ix : Nat) : (s.bump k n ix).msix = s.msix := rfl
@[simp] theorem State.bump_inflight (k n ix : Nat) : (s.bump k n ix).inflight = s.inflight := rfl
@[simp] theorem State.bump_cmdNext (k n ix : Nat) : (s.bump k n ix).cmdNext = s.cmdNext := rfl
@[simp] theorem State.bump_pow (k n ix : Nat) : (s.bump k n ix).pow = s.pow := rfl
@[simp] theorem State.bump_board (k n ix : Nat) : (s.bump k n ix).board = s.board := rfl
@[simp] theorem State.bump_rcv (k n ix : Nat) : (s.bump k n ix).rcv = s.rcv := rfl
@[simp] theorem State.bump_ctxs (k n ix : Nat) : (s.bump k n ix).ctxs = s.ctxs := rfl
@[simp] theorem State.bump_outHeld (k n ix : Nat) : (s.bump k n ix).outHeld = s.outHeld := rfl
@[simp] theorem State.bump_latches (k n ix : Nat) : (s.bump k n ix).latches = s.latches := rfl
@[simp] theorem State.bump_withheld (k n ix : Nat) : (s.bump k n ix).withheld = s.withheld := rfl
@[simp] theorem State.bump_images (k n ix : Nat) : (s.bump k n ix).images = s.images := rfl
@[simp] theorem State.bump_models (k n ix : Nat) : (s.bump k n ix).models = s.models := rfl
@[simp] theorem State.bump_deltas (k n ix : Nat) : (s.bump k n ix).deltas = s.deltas := rfl
@[simp] theorem State.bump_grammars (k n ix : Nat) : (s.bump k n ix).grammars = s.grammars := rfl
@[simp] theorem State.bump_prefixes (k n ix : Nat) : (s.bump k n ix).prefixes = s.prefixes := rfl
@[simp] theorem State.bump_regions (k n ix : Nat) : (s.bump k n ix).regions = s.regions := rfl
@[simp] theorem State.bump_nextId (k n ix : Nat) : (s.bump k n ix).nextId = s.nextId := rfl
@[simp] theorem State.bump_parts (k n ix : Nat) : (s.bump k n ix).parts = s.parts := rfl
@[simp] theorem State.bump_pcs (k n ix : Nat) : (s.bump k n ix).pcs = s.pcs := rfl
@[simp] theorem State.bump_sp (k n ix : Nat) : (s.bump k n ix).sp = s.sp := rfl
@[simp] theorem State.bump_acc (k n ix : Nat) : (s.bump k n ix).acc = s.acc := rfl
@[simp] theorem State.bump_spPoison (k n ix : Nat) : (s.bump k n ix).spPoison = s.spPoison := rfl
@[simp] theorem State.bump_accPoison (k n ix : Nat) : (s.bump k n ix).accPoison = s.accPoison := rfl
@[simp] theorem State.bump_stats (k n ix : Nat) : (s.bump k n ix).stats = s.stats := rfl
@[simp] theorem State.bump_expStats (k n ix : Nat) : (s.bump k n ix).expStats = s.expStats := rfl
@[simp] theorem State.bump_hbm (k n ix : Nat) : (s.bump k n ix).hbm = s.hbm := rfl
@[simp] theorem State.bump_fw (k n ix : Nat) : (s.bump k n ix).fw = s.fw := rfl
@[simp] theorem State.bump_t2 (k n ix : Nat) : (s.bump k n ix).t2 = s.t2 := rfl
@[simp] theorem State.bump_t1x (k n ix : Nat) : (s.bump k n ix).t1x = s.t1x := rfl
@[simp] theorem State.bump_t1Res (k n ix : Nat) : (s.bump k n ix).t1Res = s.t1Res := rfl
@[simp] theorem State.bump_t1Map (k n ix : Nat) : (s.bump k n ix).t1Map = s.t1Map := rfl
@[simp] theorem State.bump_t1Cache (k n ix : Nat) : (s.bump k n ix).t1Cache = s.t1Cache := rfl
@[simp] theorem State.bump_t2x (k n ix : Nat) : (s.bump k n ix).t2x = s.t2x := rfl
@[simp] theorem State.bump_quota (k n ix : Nat) : (s.bump k n ix).quota = s.quota := rfl
@[simp] theorem State.bump_usage (k n ix : Nat) : (s.bump k n ix).usage = s.usage := rfl
@[simp] theorem State.bump_hostT1 (k n ix : Nat) : (s.bump k n ix).hostT1 = s.hostT1 := rfl
@[simp] theorem State.bump_drives (k n ix : Nat) : (s.bump k n ix).drives = s.drives := rfl
@[simp] theorem State.bump_frames (k n ix : Nat) : (s.bump k n ix).frames = s.frames := rfl
@[simp] theorem State.bump_tierOps (k n ix : Nat) : (s.bump k n ix).tierOps = s.tierOps := rfl
@[simp] theorem State.bump_tierNext (k n ix : Nat) : (s.bump k n ix).tierNext = s.tierNext := rfl
@[simp] theorem State.bump_fab (k n ix : Nat) : (s.bump k n ix).fab = s.fab := rfl
@[simp] theorem State.bump_net (k n ix : Nat) : (s.bump k n ix).net = s.net := rfl
@[simp] theorem State.bump_tum (k n ix : Nat) : (s.bump k n ix).tum = s.tum := rfl
@[simp] theorem State.bump_idn (k n ix : Nat) : (s.bump k n ix).idn = s.idn := rfl
@[simp] theorem State.bump_compo (k n ix : Nat) : (s.bump k n ix).compo = s.compo := rfl

/-! ## `setCtr` -/

@[simp] theorem State.setCtr_pending (k v ix : Nat) : (s.setCtr k v ix).pending = s.pending := rfl
@[simp] theorem State.setCtr_now (k v ix : Nat) : (s.setCtr k v ix).now = s.now := rfl
@[simp] theorem State.setCtr_islands (k v ix : Nat) : (s.setCtr k v ix).islands = s.islands := rfl
@[simp] theorem State.setCtr_free (k v ix : Nat) : (s.setCtr k v ix).free = s.free := rfl
@[simp] theorem State.setCtr_keySet (k v ix : Nat) : (s.setCtr k v ix).keySet = s.keySet := rfl
@[simp] theorem State.setCtr_keyEff (k v ix : Nat) : (s.setCtr k v ix).keyEff = s.keyEff := rfl
@[simp] theorem State.setCtr_host (k v ix : Nat) : (s.setCtr k v ix).host = s.host := rfl
@[simp] theorem State.setCtr_hostWr (k v ix : Nat) : (s.setCtr k v ix).hostWr = s.hostWr := rfl
@[simp] theorem State.setCtr_msix (k v ix : Nat) : (s.setCtr k v ix).msix = s.msix := rfl
@[simp] theorem State.setCtr_inflight (k v ix : Nat) : (s.setCtr k v ix).inflight = s.inflight := rfl
@[simp] theorem State.setCtr_cmdNext (k v ix : Nat) : (s.setCtr k v ix).cmdNext = s.cmdNext := rfl
@[simp] theorem State.setCtr_pow (k v ix : Nat) : (s.setCtr k v ix).pow = s.pow := rfl
@[simp] theorem State.setCtr_board (k v ix : Nat) : (s.setCtr k v ix).board = s.board := rfl
@[simp] theorem State.setCtr_rcv (k v ix : Nat) : (s.setCtr k v ix).rcv = s.rcv := rfl
@[simp] theorem State.setCtr_ctxs (k v ix : Nat) : (s.setCtr k v ix).ctxs = s.ctxs := rfl
@[simp] theorem State.setCtr_outHeld (k v ix : Nat) : (s.setCtr k v ix).outHeld = s.outHeld := rfl
@[simp] theorem State.setCtr_latches (k v ix : Nat) : (s.setCtr k v ix).latches = s.latches := rfl
@[simp] theorem State.setCtr_withheld (k v ix : Nat) : (s.setCtr k v ix).withheld = s.withheld := rfl
@[simp] theorem State.setCtr_images (k v ix : Nat) : (s.setCtr k v ix).images = s.images := rfl
@[simp] theorem State.setCtr_models (k v ix : Nat) : (s.setCtr k v ix).models = s.models := rfl
@[simp] theorem State.setCtr_deltas (k v ix : Nat) : (s.setCtr k v ix).deltas = s.deltas := rfl
@[simp] theorem State.setCtr_grammars (k v ix : Nat) : (s.setCtr k v ix).grammars = s.grammars := rfl
@[simp] theorem State.setCtr_prefixes (k v ix : Nat) : (s.setCtr k v ix).prefixes = s.prefixes := rfl
@[simp] theorem State.setCtr_regions (k v ix : Nat) : (s.setCtr k v ix).regions = s.regions := rfl
@[simp] theorem State.setCtr_nextId (k v ix : Nat) : (s.setCtr k v ix).nextId = s.nextId := rfl
@[simp] theorem State.setCtr_parts (k v ix : Nat) : (s.setCtr k v ix).parts = s.parts := rfl
@[simp] theorem State.setCtr_pcs (k v ix : Nat) : (s.setCtr k v ix).pcs = s.pcs := rfl
@[simp] theorem State.setCtr_sp (k v ix : Nat) : (s.setCtr k v ix).sp = s.sp := rfl
@[simp] theorem State.setCtr_acc (k v ix : Nat) : (s.setCtr k v ix).acc = s.acc := rfl
@[simp] theorem State.setCtr_spPoison (k v ix : Nat) : (s.setCtr k v ix).spPoison = s.spPoison := rfl
@[simp] theorem State.setCtr_accPoison (k v ix : Nat) : (s.setCtr k v ix).accPoison = s.accPoison := rfl
@[simp] theorem State.setCtr_stats (k v ix : Nat) : (s.setCtr k v ix).stats = s.stats := rfl
@[simp] theorem State.setCtr_expStats (k v ix : Nat) : (s.setCtr k v ix).expStats = s.expStats := rfl
@[simp] theorem State.setCtr_hbm (k v ix : Nat) : (s.setCtr k v ix).hbm = s.hbm := rfl
@[simp] theorem State.setCtr_fw (k v ix : Nat) : (s.setCtr k v ix).fw = s.fw := rfl
@[simp] theorem State.setCtr_t2 (k v ix : Nat) : (s.setCtr k v ix).t2 = s.t2 := rfl
@[simp] theorem State.setCtr_t1x (k v ix : Nat) : (s.setCtr k v ix).t1x = s.t1x := rfl
@[simp] theorem State.setCtr_t1Res (k v ix : Nat) : (s.setCtr k v ix).t1Res = s.t1Res := rfl
@[simp] theorem State.setCtr_t1Map (k v ix : Nat) : (s.setCtr k v ix).t1Map = s.t1Map := rfl
@[simp] theorem State.setCtr_t1Cache (k v ix : Nat) : (s.setCtr k v ix).t1Cache = s.t1Cache := rfl
@[simp] theorem State.setCtr_t2x (k v ix : Nat) : (s.setCtr k v ix).t2x = s.t2x := rfl
@[simp] theorem State.setCtr_quota (k v ix : Nat) : (s.setCtr k v ix).quota = s.quota := rfl
@[simp] theorem State.setCtr_usage (k v ix : Nat) : (s.setCtr k v ix).usage = s.usage := rfl
@[simp] theorem State.setCtr_hostT1 (k v ix : Nat) : (s.setCtr k v ix).hostT1 = s.hostT1 := rfl
@[simp] theorem State.setCtr_drives (k v ix : Nat) : (s.setCtr k v ix).drives = s.drives := rfl
@[simp] theorem State.setCtr_frames (k v ix : Nat) : (s.setCtr k v ix).frames = s.frames := rfl
@[simp] theorem State.setCtr_tierOps (k v ix : Nat) : (s.setCtr k v ix).tierOps = s.tierOps := rfl
@[simp] theorem State.setCtr_tierNext (k v ix : Nat) : (s.setCtr k v ix).tierNext = s.tierNext := rfl
@[simp] theorem State.setCtr_fab (k v ix : Nat) : (s.setCtr k v ix).fab = s.fab := rfl
@[simp] theorem State.setCtr_net (k v ix : Nat) : (s.setCtr k v ix).net = s.net := rfl
@[simp] theorem State.setCtr_tum (k v ix : Nat) : (s.setCtr k v ix).tum = s.tum := rfl
@[simp] theorem State.setCtr_idn (k v ix : Nat) : (s.setCtr k v ix).idn = s.idn := rfl
@[simp] theorem State.setCtr_compo (k v ix : Nat) : (s.setCtr k v ix).compo = s.compo := rfl

/-! ## `adopt` -/

@[simp] theorem State.adopt_pending (k ix : Nat) : (s.adopt k ix).pending = s.pending := rfl
@[simp] theorem State.adopt_now (k ix : Nat) : (s.adopt k ix).now = s.now := rfl
@[simp] theorem State.adopt_islands (k ix : Nat) : (s.adopt k ix).islands = s.islands := rfl
@[simp] theorem State.adopt_free (k ix : Nat) : (s.adopt k ix).free = s.free := rfl
@[simp] theorem State.adopt_keySet (k ix : Nat) : (s.adopt k ix).keySet = s.keySet := rfl
@[simp] theorem State.adopt_ctrs (k ix : Nat) : (s.adopt k ix).ctrs = s.ctrs := rfl
@[simp] theorem State.adopt_host (k ix : Nat) : (s.adopt k ix).host = s.host := rfl
@[simp] theorem State.adopt_hostWr (k ix : Nat) : (s.adopt k ix).hostWr = s.hostWr := rfl
@[simp] theorem State.adopt_msix (k ix : Nat) : (s.adopt k ix).msix = s.msix := rfl
@[simp] theorem State.adopt_inflight (k ix : Nat) : (s.adopt k ix).inflight = s.inflight := rfl
@[simp] theorem State.adopt_cmdNext (k ix : Nat) : (s.adopt k ix).cmdNext = s.cmdNext := rfl
@[simp] theorem State.adopt_pow (k ix : Nat) : (s.adopt k ix).pow = s.pow := rfl
@[simp] theorem State.adopt_board (k ix : Nat) : (s.adopt k ix).board = s.board := rfl
@[simp] theorem State.adopt_rcv (k ix : Nat) : (s.adopt k ix).rcv = s.rcv := rfl
@[simp] theorem State.adopt_ctxs (k ix : Nat) : (s.adopt k ix).ctxs = s.ctxs := rfl
@[simp] theorem State.adopt_outHeld (k ix : Nat) : (s.adopt k ix).outHeld = s.outHeld := rfl
@[simp] theorem State.adopt_latches (k ix : Nat) : (s.adopt k ix).latches = s.latches := rfl
@[simp] theorem State.adopt_withheld (k ix : Nat) : (s.adopt k ix).withheld = s.withheld := rfl
@[simp] theorem State.adopt_images (k ix : Nat) : (s.adopt k ix).images = s.images := rfl
@[simp] theorem State.adopt_models (k ix : Nat) : (s.adopt k ix).models = s.models := rfl
@[simp] theorem State.adopt_deltas (k ix : Nat) : (s.adopt k ix).deltas = s.deltas := rfl
@[simp] theorem State.adopt_grammars (k ix : Nat) : (s.adopt k ix).grammars = s.grammars := rfl
@[simp] theorem State.adopt_prefixes (k ix : Nat) : (s.adopt k ix).prefixes = s.prefixes := rfl
@[simp] theorem State.adopt_regions (k ix : Nat) : (s.adopt k ix).regions = s.regions := rfl
@[simp] theorem State.adopt_nextId (k ix : Nat) : (s.adopt k ix).nextId = s.nextId := rfl
@[simp] theorem State.adopt_parts (k ix : Nat) : (s.adopt k ix).parts = s.parts := rfl
@[simp] theorem State.adopt_pcs (k ix : Nat) : (s.adopt k ix).pcs = s.pcs := rfl
@[simp] theorem State.adopt_sp (k ix : Nat) : (s.adopt k ix).sp = s.sp := rfl
@[simp] theorem State.adopt_acc (k ix : Nat) : (s.adopt k ix).acc = s.acc := rfl
@[simp] theorem State.adopt_spPoison (k ix : Nat) : (s.adopt k ix).spPoison = s.spPoison := rfl
@[simp] theorem State.adopt_accPoison (k ix : Nat) : (s.adopt k ix).accPoison = s.accPoison := rfl
@[simp] theorem State.adopt_stats (k ix : Nat) : (s.adopt k ix).stats = s.stats := rfl
@[simp] theorem State.adopt_expStats (k ix : Nat) : (s.adopt k ix).expStats = s.expStats := rfl
@[simp] theorem State.adopt_hbm (k ix : Nat) : (s.adopt k ix).hbm = s.hbm := rfl
@[simp] theorem State.adopt_fw (k ix : Nat) : (s.adopt k ix).fw = s.fw := rfl
@[simp] theorem State.adopt_t2 (k ix : Nat) : (s.adopt k ix).t2 = s.t2 := rfl
@[simp] theorem State.adopt_t1x (k ix : Nat) : (s.adopt k ix).t1x = s.t1x := rfl
@[simp] theorem State.adopt_t1Res (k ix : Nat) : (s.adopt k ix).t1Res = s.t1Res := rfl
@[simp] theorem State.adopt_t1Map (k ix : Nat) : (s.adopt k ix).t1Map = s.t1Map := rfl
@[simp] theorem State.adopt_t1Cache (k ix : Nat) : (s.adopt k ix).t1Cache = s.t1Cache := rfl
@[simp] theorem State.adopt_t2x (k ix : Nat) : (s.adopt k ix).t2x = s.t2x := rfl
@[simp] theorem State.adopt_quota (k ix : Nat) : (s.adopt k ix).quota = s.quota := rfl
@[simp] theorem State.adopt_usage (k ix : Nat) : (s.adopt k ix).usage = s.usage := rfl
@[simp] theorem State.adopt_hostT1 (k ix : Nat) : (s.adopt k ix).hostT1 = s.hostT1 := rfl
@[simp] theorem State.adopt_drives (k ix : Nat) : (s.adopt k ix).drives = s.drives := rfl
@[simp] theorem State.adopt_frames (k ix : Nat) : (s.adopt k ix).frames = s.frames := rfl
@[simp] theorem State.adopt_tierOps (k ix : Nat) : (s.adopt k ix).tierOps = s.tierOps := rfl
@[simp] theorem State.adopt_tierNext (k ix : Nat) : (s.adopt k ix).tierNext = s.tierNext := rfl
@[simp] theorem State.adopt_fab (k ix : Nat) : (s.adopt k ix).fab = s.fab := rfl
@[simp] theorem State.adopt_net (k ix : Nat) : (s.adopt k ix).net = s.net := rfl
@[simp] theorem State.adopt_tum (k ix : Nat) : (s.adopt k ix).tum = s.tum := rfl
@[simp] theorem State.adopt_idn (k ix : Nat) : (s.adopt k ix).idn = s.idn := rfl
@[simp] theorem State.adopt_compo (k ix : Nat) : (s.adopt k ix).compo = s.compo := rfl

/-! ## `setCtx` -/

@[simp] theorem State.setCtx_pending (i : Nat) (c : Ctx) : (s.setCtx i c).pending = s.pending := rfl
@[simp] theorem State.setCtx_now (i : Nat) (c : Ctx) : (s.setCtx i c).now = s.now := rfl
@[simp] theorem State.setCtx_islands (i : Nat) (c : Ctx) : (s.setCtx i c).islands = s.islands := rfl
@[simp] theorem State.setCtx_free (i : Nat) (c : Ctx) : (s.setCtx i c).free = s.free := rfl
@[simp] theorem State.setCtx_keySet (i : Nat) (c : Ctx) : (s.setCtx i c).keySet = s.keySet := rfl
@[simp] theorem State.setCtx_keyEff (i : Nat) (c : Ctx) : (s.setCtx i c).keyEff = s.keyEff := rfl
@[simp] theorem State.setCtx_ctrs (i : Nat) (c : Ctx) : (s.setCtx i c).ctrs = s.ctrs := rfl
@[simp] theorem State.setCtx_host (i : Nat) (c : Ctx) : (s.setCtx i c).host = s.host := rfl
@[simp] theorem State.setCtx_hostWr (i : Nat) (c : Ctx) : (s.setCtx i c).hostWr = s.hostWr := rfl
@[simp] theorem State.setCtx_msix (i : Nat) (c : Ctx) : (s.setCtx i c).msix = s.msix := rfl
@[simp] theorem State.setCtx_inflight (i : Nat) (c : Ctx) : (s.setCtx i c).inflight = s.inflight := rfl
@[simp] theorem State.setCtx_cmdNext (i : Nat) (c : Ctx) : (s.setCtx i c).cmdNext = s.cmdNext := rfl
@[simp] theorem State.setCtx_pow (i : Nat) (c : Ctx) : (s.setCtx i c).pow = s.pow := rfl
@[simp] theorem State.setCtx_board (i : Nat) (c : Ctx) : (s.setCtx i c).board = s.board := rfl
@[simp] theorem State.setCtx_rcv (i : Nat) (c : Ctx) : (s.setCtx i c).rcv = s.rcv := rfl
@[simp] theorem State.setCtx_outHeld (i : Nat) (c : Ctx) : (s.setCtx i c).outHeld = s.outHeld := rfl
@[simp] theorem State.setCtx_latches (i : Nat) (c : Ctx) : (s.setCtx i c).latches = s.latches := rfl
@[simp] theorem State.setCtx_withheld (i : Nat) (c : Ctx) : (s.setCtx i c).withheld = s.withheld := rfl
@[simp] theorem State.setCtx_images (i : Nat) (c : Ctx) : (s.setCtx i c).images = s.images := rfl
@[simp] theorem State.setCtx_models (i : Nat) (c : Ctx) : (s.setCtx i c).models = s.models := rfl
@[simp] theorem State.setCtx_deltas (i : Nat) (c : Ctx) : (s.setCtx i c).deltas = s.deltas := rfl
@[simp] theorem State.setCtx_grammars (i : Nat) (c : Ctx) : (s.setCtx i c).grammars = s.grammars := rfl
@[simp] theorem State.setCtx_prefixes (i : Nat) (c : Ctx) : (s.setCtx i c).prefixes = s.prefixes := rfl
@[simp] theorem State.setCtx_regions (i : Nat) (c : Ctx) : (s.setCtx i c).regions = s.regions := rfl
@[simp] theorem State.setCtx_nextId (i : Nat) (c : Ctx) : (s.setCtx i c).nextId = s.nextId := rfl
@[simp] theorem State.setCtx_parts (i : Nat) (c : Ctx) : (s.setCtx i c).parts = s.parts := rfl
@[simp] theorem State.setCtx_pcs (i : Nat) (c : Ctx) : (s.setCtx i c).pcs = s.pcs := rfl
@[simp] theorem State.setCtx_sp (i : Nat) (c : Ctx) : (s.setCtx i c).sp = s.sp := rfl
@[simp] theorem State.setCtx_acc (i : Nat) (c : Ctx) : (s.setCtx i c).acc = s.acc := rfl
@[simp] theorem State.setCtx_spPoison (i : Nat) (c : Ctx) : (s.setCtx i c).spPoison = s.spPoison := rfl
@[simp] theorem State.setCtx_accPoison (i : Nat) (c : Ctx) : (s.setCtx i c).accPoison = s.accPoison := rfl
@[simp] theorem State.setCtx_stats (i : Nat) (c : Ctx) : (s.setCtx i c).stats = s.stats := rfl
@[simp] theorem State.setCtx_expStats (i : Nat) (c : Ctx) : (s.setCtx i c).expStats = s.expStats := rfl
@[simp] theorem State.setCtx_hbm (i : Nat) (c : Ctx) : (s.setCtx i c).hbm = s.hbm := rfl
@[simp] theorem State.setCtx_fw (i : Nat) (c : Ctx) : (s.setCtx i c).fw = s.fw := rfl
@[simp] theorem State.setCtx_t2 (i : Nat) (c : Ctx) : (s.setCtx i c).t2 = s.t2 := rfl
@[simp] theorem State.setCtx_t1x (i : Nat) (c : Ctx) : (s.setCtx i c).t1x = s.t1x := rfl
@[simp] theorem State.setCtx_t1Res (i : Nat) (c : Ctx) : (s.setCtx i c).t1Res = s.t1Res := rfl
@[simp] theorem State.setCtx_t1Map (i : Nat) (c : Ctx) : (s.setCtx i c).t1Map = s.t1Map := rfl
@[simp] theorem State.setCtx_t1Cache (i : Nat) (c : Ctx) : (s.setCtx i c).t1Cache = s.t1Cache := rfl
@[simp] theorem State.setCtx_t2x (i : Nat) (c : Ctx) : (s.setCtx i c).t2x = s.t2x := rfl
@[simp] theorem State.setCtx_quota (i : Nat) (c : Ctx) : (s.setCtx i c).quota = s.quota := rfl
@[simp] theorem State.setCtx_usage (i : Nat) (c : Ctx) : (s.setCtx i c).usage = s.usage := rfl
@[simp] theorem State.setCtx_hostT1 (i : Nat) (c : Ctx) : (s.setCtx i c).hostT1 = s.hostT1 := rfl
@[simp] theorem State.setCtx_drives (i : Nat) (c : Ctx) : (s.setCtx i c).drives = s.drives := rfl
@[simp] theorem State.setCtx_frames (i : Nat) (c : Ctx) : (s.setCtx i c).frames = s.frames := rfl
@[simp] theorem State.setCtx_tierOps (i : Nat) (c : Ctx) : (s.setCtx i c).tierOps = s.tierOps := rfl
@[simp] theorem State.setCtx_tierNext (i : Nat) (c : Ctx) : (s.setCtx i c).tierNext = s.tierNext := rfl
@[simp] theorem State.setCtx_fab (i : Nat) (c : Ctx) : (s.setCtx i c).fab = s.fab := rfl
@[simp] theorem State.setCtx_net (i : Nat) (c : Ctx) : (s.setCtx i c).net = s.net := rfl
@[simp] theorem State.setCtx_tum (i : Nat) (c : Ctx) : (s.setCtx i c).tum = s.tum := rfl
@[simp] theorem State.setCtx_idn (i : Nat) (c : Ctx) : (s.setCtx i c).idn = s.idn := rfl
@[simp] theorem State.setCtx_compo (i : Nat) (c : Ctx) : (s.setCtx i c).compo = s.compo := rfl

/-! ## `setLatch` -/

@[simp] theorem State.setLatch_pending (k : Nat) (x : Latch) : (s.setLatch k x).pending = s.pending := rfl
@[simp] theorem State.setLatch_now (k : Nat) (x : Latch) : (s.setLatch k x).now = s.now := rfl
@[simp] theorem State.setLatch_islands (k : Nat) (x : Latch) : (s.setLatch k x).islands = s.islands := rfl
@[simp] theorem State.setLatch_free (k : Nat) (x : Latch) : (s.setLatch k x).free = s.free := rfl
@[simp] theorem State.setLatch_keySet (k : Nat) (x : Latch) : (s.setLatch k x).keySet = s.keySet := rfl
@[simp] theorem State.setLatch_keyEff (k : Nat) (x : Latch) : (s.setLatch k x).keyEff = s.keyEff := rfl
@[simp] theorem State.setLatch_ctrs (k : Nat) (x : Latch) : (s.setLatch k x).ctrs = s.ctrs := rfl
@[simp] theorem State.setLatch_host (k : Nat) (x : Latch) : (s.setLatch k x).host = s.host := rfl
@[simp] theorem State.setLatch_hostWr (k : Nat) (x : Latch) : (s.setLatch k x).hostWr = s.hostWr := rfl
@[simp] theorem State.setLatch_msix (k : Nat) (x : Latch) : (s.setLatch k x).msix = s.msix := rfl
@[simp] theorem State.setLatch_inflight (k : Nat) (x : Latch) : (s.setLatch k x).inflight = s.inflight := rfl
@[simp] theorem State.setLatch_cmdNext (k : Nat) (x : Latch) : (s.setLatch k x).cmdNext = s.cmdNext := rfl
@[simp] theorem State.setLatch_pow (k : Nat) (x : Latch) : (s.setLatch k x).pow = s.pow := rfl
@[simp] theorem State.setLatch_board (k : Nat) (x : Latch) : (s.setLatch k x).board = s.board := rfl
@[simp] theorem State.setLatch_rcv (k : Nat) (x : Latch) : (s.setLatch k x).rcv = s.rcv := rfl
@[simp] theorem State.setLatch_ctxs (k : Nat) (x : Latch) : (s.setLatch k x).ctxs = s.ctxs := rfl
@[simp] theorem State.setLatch_outHeld (k : Nat) (x : Latch) : (s.setLatch k x).outHeld = s.outHeld := rfl
@[simp] theorem State.setLatch_withheld (k : Nat) (x : Latch) : (s.setLatch k x).withheld = s.withheld := rfl
@[simp] theorem State.setLatch_images (k : Nat) (x : Latch) : (s.setLatch k x).images = s.images := rfl
@[simp] theorem State.setLatch_models (k : Nat) (x : Latch) : (s.setLatch k x).models = s.models := rfl
@[simp] theorem State.setLatch_deltas (k : Nat) (x : Latch) : (s.setLatch k x).deltas = s.deltas := rfl
@[simp] theorem State.setLatch_grammars (k : Nat) (x : Latch) : (s.setLatch k x).grammars = s.grammars := rfl
@[simp] theorem State.setLatch_prefixes (k : Nat) (x : Latch) : (s.setLatch k x).prefixes = s.prefixes := rfl
@[simp] theorem State.setLatch_regions (k : Nat) (x : Latch) : (s.setLatch k x).regions = s.regions := rfl
@[simp] theorem State.setLatch_nextId (k : Nat) (x : Latch) : (s.setLatch k x).nextId = s.nextId := rfl
@[simp] theorem State.setLatch_parts (k : Nat) (x : Latch) : (s.setLatch k x).parts = s.parts := rfl
@[simp] theorem State.setLatch_pcs (k : Nat) (x : Latch) : (s.setLatch k x).pcs = s.pcs := rfl
@[simp] theorem State.setLatch_sp (k : Nat) (x : Latch) : (s.setLatch k x).sp = s.sp := rfl
@[simp] theorem State.setLatch_acc (k : Nat) (x : Latch) : (s.setLatch k x).acc = s.acc := rfl
@[simp] theorem State.setLatch_spPoison (k : Nat) (x : Latch) : (s.setLatch k x).spPoison = s.spPoison := rfl
@[simp] theorem State.setLatch_accPoison (k : Nat) (x : Latch) : (s.setLatch k x).accPoison = s.accPoison := rfl
@[simp] theorem State.setLatch_stats (k : Nat) (x : Latch) : (s.setLatch k x).stats = s.stats := rfl
@[simp] theorem State.setLatch_expStats (k : Nat) (x : Latch) : (s.setLatch k x).expStats = s.expStats := rfl
@[simp] theorem State.setLatch_hbm (k : Nat) (x : Latch) : (s.setLatch k x).hbm = s.hbm := rfl
@[simp] theorem State.setLatch_fw (k : Nat) (x : Latch) : (s.setLatch k x).fw = s.fw := rfl
@[simp] theorem State.setLatch_t2 (k : Nat) (x : Latch) : (s.setLatch k x).t2 = s.t2 := rfl
@[simp] theorem State.setLatch_t1x (k : Nat) (x : Latch) : (s.setLatch k x).t1x = s.t1x := rfl
@[simp] theorem State.setLatch_t1Res (k : Nat) (x : Latch) : (s.setLatch k x).t1Res = s.t1Res := rfl
@[simp] theorem State.setLatch_t1Map (k : Nat) (x : Latch) : (s.setLatch k x).t1Map = s.t1Map := rfl
@[simp] theorem State.setLatch_t1Cache (k : Nat) (x : Latch) : (s.setLatch k x).t1Cache = s.t1Cache := rfl
@[simp] theorem State.setLatch_t2x (k : Nat) (x : Latch) : (s.setLatch k x).t2x = s.t2x := rfl
@[simp] theorem State.setLatch_quota (k : Nat) (x : Latch) : (s.setLatch k x).quota = s.quota := rfl
@[simp] theorem State.setLatch_usage (k : Nat) (x : Latch) : (s.setLatch k x).usage = s.usage := rfl
@[simp] theorem State.setLatch_hostT1 (k : Nat) (x : Latch) : (s.setLatch k x).hostT1 = s.hostT1 := rfl
@[simp] theorem State.setLatch_drives (k : Nat) (x : Latch) : (s.setLatch k x).drives = s.drives := rfl
@[simp] theorem State.setLatch_frames (k : Nat) (x : Latch) : (s.setLatch k x).frames = s.frames := rfl
@[simp] theorem State.setLatch_tierOps (k : Nat) (x : Latch) : (s.setLatch k x).tierOps = s.tierOps := rfl
@[simp] theorem State.setLatch_tierNext (k : Nat) (x : Latch) : (s.setLatch k x).tierNext = s.tierNext := rfl
@[simp] theorem State.setLatch_fab (k : Nat) (x : Latch) : (s.setLatch k x).fab = s.fab := rfl
@[simp] theorem State.setLatch_net (k : Nat) (x : Latch) : (s.setLatch k x).net = s.net := rfl
@[simp] theorem State.setLatch_tum (k : Nat) (x : Latch) : (s.setLatch k x).tum = s.tum := rfl
@[simp] theorem State.setLatch_idn (k : Nat) (x : Latch) : (s.setLatch k x).idn = s.idn := rfl
@[simp] theorem State.setLatch_compo (k : Nat) (x : Latch) : (s.setLatch k x).compo = s.compo := rfl

/-! ## `setRegion` -/

@[simp] theorem State.setRegion_pending (r : Region) : (s.setRegion r).pending = s.pending := rfl
@[simp] theorem State.setRegion_now (r : Region) : (s.setRegion r).now = s.now := rfl
@[simp] theorem State.setRegion_islands (r : Region) : (s.setRegion r).islands = s.islands := rfl
@[simp] theorem State.setRegion_free (r : Region) : (s.setRegion r).free = s.free := rfl
@[simp] theorem State.setRegion_keySet (r : Region) : (s.setRegion r).keySet = s.keySet := rfl
@[simp] theorem State.setRegion_keyEff (r : Region) : (s.setRegion r).keyEff = s.keyEff := rfl
@[simp] theorem State.setRegion_ctrs (r : Region) : (s.setRegion r).ctrs = s.ctrs := rfl
@[simp] theorem State.setRegion_host (r : Region) : (s.setRegion r).host = s.host := rfl
@[simp] theorem State.setRegion_hostWr (r : Region) : (s.setRegion r).hostWr = s.hostWr := rfl
@[simp] theorem State.setRegion_msix (r : Region) : (s.setRegion r).msix = s.msix := rfl
@[simp] theorem State.setRegion_inflight (r : Region) : (s.setRegion r).inflight = s.inflight := rfl
@[simp] theorem State.setRegion_cmdNext (r : Region) : (s.setRegion r).cmdNext = s.cmdNext := rfl
@[simp] theorem State.setRegion_pow (r : Region) : (s.setRegion r).pow = s.pow := rfl
@[simp] theorem State.setRegion_board (r : Region) : (s.setRegion r).board = s.board := rfl
@[simp] theorem State.setRegion_rcv (r : Region) : (s.setRegion r).rcv = s.rcv := rfl
@[simp] theorem State.setRegion_ctxs (r : Region) : (s.setRegion r).ctxs = s.ctxs := rfl
@[simp] theorem State.setRegion_outHeld (r : Region) : (s.setRegion r).outHeld = s.outHeld := rfl
@[simp] theorem State.setRegion_latches (r : Region) : (s.setRegion r).latches = s.latches := rfl
@[simp] theorem State.setRegion_withheld (r : Region) : (s.setRegion r).withheld = s.withheld := rfl
@[simp] theorem State.setRegion_images (r : Region) : (s.setRegion r).images = s.images := rfl
@[simp] theorem State.setRegion_models (r : Region) : (s.setRegion r).models = s.models := rfl
@[simp] theorem State.setRegion_deltas (r : Region) : (s.setRegion r).deltas = s.deltas := rfl
@[simp] theorem State.setRegion_grammars (r : Region) : (s.setRegion r).grammars = s.grammars := rfl
@[simp] theorem State.setRegion_prefixes (r : Region) : (s.setRegion r).prefixes = s.prefixes := rfl
@[simp] theorem State.setRegion_nextId (r : Region) : (s.setRegion r).nextId = s.nextId := rfl
@[simp] theorem State.setRegion_parts (r : Region) : (s.setRegion r).parts = s.parts := rfl
@[simp] theorem State.setRegion_pcs (r : Region) : (s.setRegion r).pcs = s.pcs := rfl
@[simp] theorem State.setRegion_sp (r : Region) : (s.setRegion r).sp = s.sp := rfl
@[simp] theorem State.setRegion_acc (r : Region) : (s.setRegion r).acc = s.acc := rfl
@[simp] theorem State.setRegion_spPoison (r : Region) : (s.setRegion r).spPoison = s.spPoison := rfl
@[simp] theorem State.setRegion_accPoison (r : Region) : (s.setRegion r).accPoison = s.accPoison := rfl
@[simp] theorem State.setRegion_stats (r : Region) : (s.setRegion r).stats = s.stats := rfl
@[simp] theorem State.setRegion_expStats (r : Region) : (s.setRegion r).expStats = s.expStats := rfl
@[simp] theorem State.setRegion_hbm (r : Region) : (s.setRegion r).hbm = s.hbm := rfl
@[simp] theorem State.setRegion_fw (r : Region) : (s.setRegion r).fw = s.fw := rfl
@[simp] theorem State.setRegion_t2 (r : Region) : (s.setRegion r).t2 = s.t2 := rfl
@[simp] theorem State.setRegion_t1x (r : Region) : (s.setRegion r).t1x = s.t1x := rfl
@[simp] theorem State.setRegion_t1Res (r : Region) : (s.setRegion r).t1Res = s.t1Res := rfl
@[simp] theorem State.setRegion_t1Map (r : Region) : (s.setRegion r).t1Map = s.t1Map := rfl
@[simp] theorem State.setRegion_t1Cache (r : Region) : (s.setRegion r).t1Cache = s.t1Cache := rfl
@[simp] theorem State.setRegion_t2x (r : Region) : (s.setRegion r).t2x = s.t2x := rfl
@[simp] theorem State.setRegion_quota (r : Region) : (s.setRegion r).quota = s.quota := rfl
@[simp] theorem State.setRegion_usage (r : Region) : (s.setRegion r).usage = s.usage := rfl
@[simp] theorem State.setRegion_hostT1 (r : Region) : (s.setRegion r).hostT1 = s.hostT1 := rfl
@[simp] theorem State.setRegion_drives (r : Region) : (s.setRegion r).drives = s.drives := rfl
@[simp] theorem State.setRegion_frames (r : Region) : (s.setRegion r).frames = s.frames := rfl
@[simp] theorem State.setRegion_tierOps (r : Region) : (s.setRegion r).tierOps = s.tierOps := rfl
@[simp] theorem State.setRegion_tierNext (r : Region) : (s.setRegion r).tierNext = s.tierNext := rfl
@[simp] theorem State.setRegion_fab (r : Region) : (s.setRegion r).fab = s.fab := rfl
@[simp] theorem State.setRegion_net (r : Region) : (s.setRegion r).net = s.net := rfl
@[simp] theorem State.setRegion_tum (r : Region) : (s.setRegion r).tum = s.tum := rfl
@[simp] theorem State.setRegion_idn (r : Region) : (s.setRegion r).idn = s.idn := rfl
@[simp] theorem State.setRegion_compo (r : Region) : (s.setRegion r).compo = s.compo := rfl

/-! ## `setPart` -/

@[simp] theorem State.setPart_pending (k : Nat) (x : Part) : (s.setPart k x).pending = s.pending := rfl
@[simp] theorem State.setPart_now (k : Nat) (x : Part) : (s.setPart k x).now = s.now := rfl
@[simp] theorem State.setPart_islands (k : Nat) (x : Part) : (s.setPart k x).islands = s.islands := rfl
@[simp] theorem State.setPart_free (k : Nat) (x : Part) : (s.setPart k x).free = s.free := rfl
@[simp] theorem State.setPart_keySet (k : Nat) (x : Part) : (s.setPart k x).keySet = s.keySet := rfl
@[simp] theorem State.setPart_keyEff (k : Nat) (x : Part) : (s.setPart k x).keyEff = s.keyEff := rfl
@[simp] theorem State.setPart_ctrs (k : Nat) (x : Part) : (s.setPart k x).ctrs = s.ctrs := rfl
@[simp] theorem State.setPart_host (k : Nat) (x : Part) : (s.setPart k x).host = s.host := rfl
@[simp] theorem State.setPart_hostWr (k : Nat) (x : Part) : (s.setPart k x).hostWr = s.hostWr := rfl
@[simp] theorem State.setPart_msix (k : Nat) (x : Part) : (s.setPart k x).msix = s.msix := rfl
@[simp] theorem State.setPart_inflight (k : Nat) (x : Part) : (s.setPart k x).inflight = s.inflight := rfl
@[simp] theorem State.setPart_cmdNext (k : Nat) (x : Part) : (s.setPart k x).cmdNext = s.cmdNext := rfl
@[simp] theorem State.setPart_pow (k : Nat) (x : Part) : (s.setPart k x).pow = s.pow := rfl
@[simp] theorem State.setPart_board (k : Nat) (x : Part) : (s.setPart k x).board = s.board := rfl
@[simp] theorem State.setPart_rcv (k : Nat) (x : Part) : (s.setPart k x).rcv = s.rcv := rfl
@[simp] theorem State.setPart_ctxs (k : Nat) (x : Part) : (s.setPart k x).ctxs = s.ctxs := rfl
@[simp] theorem State.setPart_outHeld (k : Nat) (x : Part) : (s.setPart k x).outHeld = s.outHeld := rfl
@[simp] theorem State.setPart_latches (k : Nat) (x : Part) : (s.setPart k x).latches = s.latches := rfl
@[simp] theorem State.setPart_withheld (k : Nat) (x : Part) : (s.setPart k x).withheld = s.withheld := rfl
@[simp] theorem State.setPart_images (k : Nat) (x : Part) : (s.setPart k x).images = s.images := rfl
@[simp] theorem State.setPart_models (k : Nat) (x : Part) : (s.setPart k x).models = s.models := rfl
@[simp] theorem State.setPart_deltas (k : Nat) (x : Part) : (s.setPart k x).deltas = s.deltas := rfl
@[simp] theorem State.setPart_grammars (k : Nat) (x : Part) : (s.setPart k x).grammars = s.grammars := rfl
@[simp] theorem State.setPart_prefixes (k : Nat) (x : Part) : (s.setPart k x).prefixes = s.prefixes := rfl
@[simp] theorem State.setPart_regions (k : Nat) (x : Part) : (s.setPart k x).regions = s.regions := rfl
@[simp] theorem State.setPart_nextId (k : Nat) (x : Part) : (s.setPart k x).nextId = s.nextId := rfl
@[simp] theorem State.setPart_pcs (k : Nat) (x : Part) : (s.setPart k x).pcs = s.pcs := rfl
@[simp] theorem State.setPart_sp (k : Nat) (x : Part) : (s.setPart k x).sp = s.sp := rfl
@[simp] theorem State.setPart_acc (k : Nat) (x : Part) : (s.setPart k x).acc = s.acc := rfl
@[simp] theorem State.setPart_spPoison (k : Nat) (x : Part) : (s.setPart k x).spPoison = s.spPoison := rfl
@[simp] theorem State.setPart_accPoison (k : Nat) (x : Part) : (s.setPart k x).accPoison = s.accPoison := rfl
@[simp] theorem State.setPart_stats (k : Nat) (x : Part) : (s.setPart k x).stats = s.stats := rfl
@[simp] theorem State.setPart_expStats (k : Nat) (x : Part) : (s.setPart k x).expStats = s.expStats := rfl
@[simp] theorem State.setPart_hbm (k : Nat) (x : Part) : (s.setPart k x).hbm = s.hbm := rfl
@[simp] theorem State.setPart_fw (k : Nat) (x : Part) : (s.setPart k x).fw = s.fw := rfl
@[simp] theorem State.setPart_t2 (k : Nat) (x : Part) : (s.setPart k x).t2 = s.t2 := rfl
@[simp] theorem State.setPart_t1x (k : Nat) (x : Part) : (s.setPart k x).t1x = s.t1x := rfl
@[simp] theorem State.setPart_t1Res (k : Nat) (x : Part) : (s.setPart k x).t1Res = s.t1Res := rfl
@[simp] theorem State.setPart_t1Map (k : Nat) (x : Part) : (s.setPart k x).t1Map = s.t1Map := rfl
@[simp] theorem State.setPart_t1Cache (k : Nat) (x : Part) : (s.setPart k x).t1Cache = s.t1Cache := rfl
@[simp] theorem State.setPart_t2x (k : Nat) (x : Part) : (s.setPart k x).t2x = s.t2x := rfl
@[simp] theorem State.setPart_quota (k : Nat) (x : Part) : (s.setPart k x).quota = s.quota := rfl
@[simp] theorem State.setPart_usage (k : Nat) (x : Part) : (s.setPart k x).usage = s.usage := rfl
@[simp] theorem State.setPart_hostT1 (k : Nat) (x : Part) : (s.setPart k x).hostT1 = s.hostT1 := rfl
@[simp] theorem State.setPart_drives (k : Nat) (x : Part) : (s.setPart k x).drives = s.drives := rfl
@[simp] theorem State.setPart_frames (k : Nat) (x : Part) : (s.setPart k x).frames = s.frames := rfl
@[simp] theorem State.setPart_tierOps (k : Nat) (x : Part) : (s.setPart k x).tierOps = s.tierOps := rfl
@[simp] theorem State.setPart_tierNext (k : Nat) (x : Part) : (s.setPart k x).tierNext = s.tierNext := rfl
@[simp] theorem State.setPart_fab (k : Nat) (x : Part) : (s.setPart k x).fab = s.fab := rfl
@[simp] theorem State.setPart_net (k : Nat) (x : Part) : (s.setPart k x).net = s.net := rfl
@[simp] theorem State.setPart_tum (k : Nat) (x : Part) : (s.setPart k x).tum = s.tum := rfl
@[simp] theorem State.setPart_idn (k : Nat) (x : Part) : (s.setPart k x).idn = s.idn := rfl
@[simp] theorem State.setPart_compo (k : Nat) (x : Part) : (s.setPart k x).compo = s.compo := rfl

/-! ## `setPc` -/

@[simp] theorem State.setPc_pending (k : Nat) (x : ProgCtx) : (s.setPc k x).pending = s.pending := rfl
@[simp] theorem State.setPc_now (k : Nat) (x : ProgCtx) : (s.setPc k x).now = s.now := rfl
@[simp] theorem State.setPc_islands (k : Nat) (x : ProgCtx) : (s.setPc k x).islands = s.islands := rfl
@[simp] theorem State.setPc_free (k : Nat) (x : ProgCtx) : (s.setPc k x).free = s.free := rfl
@[simp] theorem State.setPc_keySet (k : Nat) (x : ProgCtx) : (s.setPc k x).keySet = s.keySet := rfl
@[simp] theorem State.setPc_keyEff (k : Nat) (x : ProgCtx) : (s.setPc k x).keyEff = s.keyEff := rfl
@[simp] theorem State.setPc_ctrs (k : Nat) (x : ProgCtx) : (s.setPc k x).ctrs = s.ctrs := rfl
@[simp] theorem State.setPc_host (k : Nat) (x : ProgCtx) : (s.setPc k x).host = s.host := rfl
@[simp] theorem State.setPc_hostWr (k : Nat) (x : ProgCtx) : (s.setPc k x).hostWr = s.hostWr := rfl
@[simp] theorem State.setPc_msix (k : Nat) (x : ProgCtx) : (s.setPc k x).msix = s.msix := rfl
@[simp] theorem State.setPc_inflight (k : Nat) (x : ProgCtx) : (s.setPc k x).inflight = s.inflight := rfl
@[simp] theorem State.setPc_cmdNext (k : Nat) (x : ProgCtx) : (s.setPc k x).cmdNext = s.cmdNext := rfl
@[simp] theorem State.setPc_pow (k : Nat) (x : ProgCtx) : (s.setPc k x).pow = s.pow := rfl
@[simp] theorem State.setPc_board (k : Nat) (x : ProgCtx) : (s.setPc k x).board = s.board := rfl
@[simp] theorem State.setPc_rcv (k : Nat) (x : ProgCtx) : (s.setPc k x).rcv = s.rcv := rfl
@[simp] theorem State.setPc_ctxs (k : Nat) (x : ProgCtx) : (s.setPc k x).ctxs = s.ctxs := rfl
@[simp] theorem State.setPc_outHeld (k : Nat) (x : ProgCtx) : (s.setPc k x).outHeld = s.outHeld := rfl
@[simp] theorem State.setPc_latches (k : Nat) (x : ProgCtx) : (s.setPc k x).latches = s.latches := rfl
@[simp] theorem State.setPc_withheld (k : Nat) (x : ProgCtx) : (s.setPc k x).withheld = s.withheld := rfl
@[simp] theorem State.setPc_images (k : Nat) (x : ProgCtx) : (s.setPc k x).images = s.images := rfl
@[simp] theorem State.setPc_models (k : Nat) (x : ProgCtx) : (s.setPc k x).models = s.models := rfl
@[simp] theorem State.setPc_deltas (k : Nat) (x : ProgCtx) : (s.setPc k x).deltas = s.deltas := rfl
@[simp] theorem State.setPc_grammars (k : Nat) (x : ProgCtx) : (s.setPc k x).grammars = s.grammars := rfl
@[simp] theorem State.setPc_prefixes (k : Nat) (x : ProgCtx) : (s.setPc k x).prefixes = s.prefixes := rfl
@[simp] theorem State.setPc_regions (k : Nat) (x : ProgCtx) : (s.setPc k x).regions = s.regions := rfl
@[simp] theorem State.setPc_nextId (k : Nat) (x : ProgCtx) : (s.setPc k x).nextId = s.nextId := rfl
@[simp] theorem State.setPc_parts (k : Nat) (x : ProgCtx) : (s.setPc k x).parts = s.parts := rfl
@[simp] theorem State.setPc_sp (k : Nat) (x : ProgCtx) : (s.setPc k x).sp = s.sp := rfl
@[simp] theorem State.setPc_acc (k : Nat) (x : ProgCtx) : (s.setPc k x).acc = s.acc := rfl
@[simp] theorem State.setPc_spPoison (k : Nat) (x : ProgCtx) : (s.setPc k x).spPoison = s.spPoison := rfl
@[simp] theorem State.setPc_accPoison (k : Nat) (x : ProgCtx) : (s.setPc k x).accPoison = s.accPoison := rfl
@[simp] theorem State.setPc_stats (k : Nat) (x : ProgCtx) : (s.setPc k x).stats = s.stats := rfl
@[simp] theorem State.setPc_expStats (k : Nat) (x : ProgCtx) : (s.setPc k x).expStats = s.expStats := rfl
@[simp] theorem State.setPc_hbm (k : Nat) (x : ProgCtx) : (s.setPc k x).hbm = s.hbm := rfl
@[simp] theorem State.setPc_fw (k : Nat) (x : ProgCtx) : (s.setPc k x).fw = s.fw := rfl
@[simp] theorem State.setPc_t2 (k : Nat) (x : ProgCtx) : (s.setPc k x).t2 = s.t2 := rfl
@[simp] theorem State.setPc_t1x (k : Nat) (x : ProgCtx) : (s.setPc k x).t1x = s.t1x := rfl
@[simp] theorem State.setPc_t1Res (k : Nat) (x : ProgCtx) : (s.setPc k x).t1Res = s.t1Res := rfl
@[simp] theorem State.setPc_t1Map (k : Nat) (x : ProgCtx) : (s.setPc k x).t1Map = s.t1Map := rfl
@[simp] theorem State.setPc_t1Cache (k : Nat) (x : ProgCtx) : (s.setPc k x).t1Cache = s.t1Cache := rfl
@[simp] theorem State.setPc_t2x (k : Nat) (x : ProgCtx) : (s.setPc k x).t2x = s.t2x := rfl
@[simp] theorem State.setPc_quota (k : Nat) (x : ProgCtx) : (s.setPc k x).quota = s.quota := rfl
@[simp] theorem State.setPc_usage (k : Nat) (x : ProgCtx) : (s.setPc k x).usage = s.usage := rfl
@[simp] theorem State.setPc_hostT1 (k : Nat) (x : ProgCtx) : (s.setPc k x).hostT1 = s.hostT1 := rfl
@[simp] theorem State.setPc_drives (k : Nat) (x : ProgCtx) : (s.setPc k x).drives = s.drives := rfl
@[simp] theorem State.setPc_frames (k : Nat) (x : ProgCtx) : (s.setPc k x).frames = s.frames := rfl
@[simp] theorem State.setPc_tierOps (k : Nat) (x : ProgCtx) : (s.setPc k x).tierOps = s.tierOps := rfl
@[simp] theorem State.setPc_tierNext (k : Nat) (x : ProgCtx) : (s.setPc k x).tierNext = s.tierNext := rfl
@[simp] theorem State.setPc_fab (k : Nat) (x : ProgCtx) : (s.setPc k x).fab = s.fab := rfl
@[simp] theorem State.setPc_net (k : Nat) (x : ProgCtx) : (s.setPc k x).net = s.net := rfl
@[simp] theorem State.setPc_tum (k : Nat) (x : ProgCtx) : (s.setPc k x).tum = s.tum := rfl
@[simp] theorem State.setPc_idn (k : Nat) (x : ProgCtx) : (s.setPc k x).idn = s.idn := rfl
@[simp] theorem State.setPc_compo (k : Nat) (x : ProgCtx) : (s.setPc k x).compo = s.compo := rfl

/-! ## `setLink` -/

@[simp] theorem State.setLink_pending (l : Nat) (x : Link) : (s.setLink l x).pending = s.pending := rfl
@[simp] theorem State.setLink_now (l : Nat) (x : Link) : (s.setLink l x).now = s.now := rfl
@[simp] theorem State.setLink_islands (l : Nat) (x : Link) : (s.setLink l x).islands = s.islands := rfl
@[simp] theorem State.setLink_free (l : Nat) (x : Link) : (s.setLink l x).free = s.free := rfl
@[simp] theorem State.setLink_keySet (l : Nat) (x : Link) : (s.setLink l x).keySet = s.keySet := rfl
@[simp] theorem State.setLink_keyEff (l : Nat) (x : Link) : (s.setLink l x).keyEff = s.keyEff := rfl
@[simp] theorem State.setLink_ctrs (l : Nat) (x : Link) : (s.setLink l x).ctrs = s.ctrs := rfl
@[simp] theorem State.setLink_host (l : Nat) (x : Link) : (s.setLink l x).host = s.host := rfl
@[simp] theorem State.setLink_hostWr (l : Nat) (x : Link) : (s.setLink l x).hostWr = s.hostWr := rfl
@[simp] theorem State.setLink_msix (l : Nat) (x : Link) : (s.setLink l x).msix = s.msix := rfl
@[simp] theorem State.setLink_inflight (l : Nat) (x : Link) : (s.setLink l x).inflight = s.inflight := rfl
@[simp] theorem State.setLink_cmdNext (l : Nat) (x : Link) : (s.setLink l x).cmdNext = s.cmdNext := rfl
@[simp] theorem State.setLink_pow (l : Nat) (x : Link) : (s.setLink l x).pow = s.pow := rfl
@[simp] theorem State.setLink_board (l : Nat) (x : Link) : (s.setLink l x).board = s.board := rfl
@[simp] theorem State.setLink_rcv (l : Nat) (x : Link) : (s.setLink l x).rcv = s.rcv := rfl
@[simp] theorem State.setLink_ctxs (l : Nat) (x : Link) : (s.setLink l x).ctxs = s.ctxs := rfl
@[simp] theorem State.setLink_outHeld (l : Nat) (x : Link) : (s.setLink l x).outHeld = s.outHeld := rfl
@[simp] theorem State.setLink_latches (l : Nat) (x : Link) : (s.setLink l x).latches = s.latches := rfl
@[simp] theorem State.setLink_withheld (l : Nat) (x : Link) : (s.setLink l x).withheld = s.withheld := rfl
@[simp] theorem State.setLink_images (l : Nat) (x : Link) : (s.setLink l x).images = s.images := rfl
@[simp] theorem State.setLink_models (l : Nat) (x : Link) : (s.setLink l x).models = s.models := rfl
@[simp] theorem State.setLink_deltas (l : Nat) (x : Link) : (s.setLink l x).deltas = s.deltas := rfl
@[simp] theorem State.setLink_grammars (l : Nat) (x : Link) : (s.setLink l x).grammars = s.grammars := rfl
@[simp] theorem State.setLink_prefixes (l : Nat) (x : Link) : (s.setLink l x).prefixes = s.prefixes := rfl
@[simp] theorem State.setLink_regions (l : Nat) (x : Link) : (s.setLink l x).regions = s.regions := rfl
@[simp] theorem State.setLink_nextId (l : Nat) (x : Link) : (s.setLink l x).nextId = s.nextId := rfl
@[simp] theorem State.setLink_parts (l : Nat) (x : Link) : (s.setLink l x).parts = s.parts := rfl
@[simp] theorem State.setLink_pcs (l : Nat) (x : Link) : (s.setLink l x).pcs = s.pcs := rfl
@[simp] theorem State.setLink_sp (l : Nat) (x : Link) : (s.setLink l x).sp = s.sp := rfl
@[simp] theorem State.setLink_acc (l : Nat) (x : Link) : (s.setLink l x).acc = s.acc := rfl
@[simp] theorem State.setLink_spPoison (l : Nat) (x : Link) : (s.setLink l x).spPoison = s.spPoison := rfl
@[simp] theorem State.setLink_accPoison (l : Nat) (x : Link) : (s.setLink l x).accPoison = s.accPoison := rfl
@[simp] theorem State.setLink_stats (l : Nat) (x : Link) : (s.setLink l x).stats = s.stats := rfl
@[simp] theorem State.setLink_expStats (l : Nat) (x : Link) : (s.setLink l x).expStats = s.expStats := rfl
@[simp] theorem State.setLink_hbm (l : Nat) (x : Link) : (s.setLink l x).hbm = s.hbm := rfl
@[simp] theorem State.setLink_fw (l : Nat) (x : Link) : (s.setLink l x).fw = s.fw := rfl
@[simp] theorem State.setLink_t2 (l : Nat) (x : Link) : (s.setLink l x).t2 = s.t2 := rfl
@[simp] theorem State.setLink_t1x (l : Nat) (x : Link) : (s.setLink l x).t1x = s.t1x := rfl
@[simp] theorem State.setLink_t1Res (l : Nat) (x : Link) : (s.setLink l x).t1Res = s.t1Res := rfl
@[simp] theorem State.setLink_t1Map (l : Nat) (x : Link) : (s.setLink l x).t1Map = s.t1Map := rfl
@[simp] theorem State.setLink_t1Cache (l : Nat) (x : Link) : (s.setLink l x).t1Cache = s.t1Cache := rfl
@[simp] theorem State.setLink_t2x (l : Nat) (x : Link) : (s.setLink l x).t2x = s.t2x := rfl
@[simp] theorem State.setLink_quota (l : Nat) (x : Link) : (s.setLink l x).quota = s.quota := rfl
@[simp] theorem State.setLink_usage (l : Nat) (x : Link) : (s.setLink l x).usage = s.usage := rfl
@[simp] theorem State.setLink_hostT1 (l : Nat) (x : Link) : (s.setLink l x).hostT1 = s.hostT1 := rfl
@[simp] theorem State.setLink_drives (l : Nat) (x : Link) : (s.setLink l x).drives = s.drives := rfl
@[simp] theorem State.setLink_frames (l : Nat) (x : Link) : (s.setLink l x).frames = s.frames := rfl
@[simp] theorem State.setLink_tierOps (l : Nat) (x : Link) : (s.setLink l x).tierOps = s.tierOps := rfl
@[simp] theorem State.setLink_tierNext (l : Nat) (x : Link) : (s.setLink l x).tierNext = s.tierNext := rfl
@[simp] theorem State.setLink_fab (l : Nat) (x : Link) : (s.setLink l x).fab = s.fab := rfl
@[simp] theorem State.setLink_tum (l : Nat) (x : Link) : (s.setLink l x).tum = s.tum := rfl
@[simp] theorem State.setLink_idn (l : Nat) (x : Link) : (s.setLink l x).idn = s.idn := rfl
@[simp] theorem State.setLink_compo (l : Nat) (x : Link) : (s.setLink l x).compo = s.compo := rfl

/-! ## `setSess` -/

@[simp] theorem State.setSess_pending (k : Nat) (x : Sess) : (s.setSess k x).pending = s.pending := rfl
@[simp] theorem State.setSess_now (k : Nat) (x : Sess) : (s.setSess k x).now = s.now := rfl
@[simp] theorem State.setSess_islands (k : Nat) (x : Sess) : (s.setSess k x).islands = s.islands := rfl
@[simp] theorem State.setSess_free (k : Nat) (x : Sess) : (s.setSess k x).free = s.free := rfl
@[simp] theorem State.setSess_keySet (k : Nat) (x : Sess) : (s.setSess k x).keySet = s.keySet := rfl
@[simp] theorem State.setSess_keyEff (k : Nat) (x : Sess) : (s.setSess k x).keyEff = s.keyEff := rfl
@[simp] theorem State.setSess_ctrs (k : Nat) (x : Sess) : (s.setSess k x).ctrs = s.ctrs := rfl
@[simp] theorem State.setSess_host (k : Nat) (x : Sess) : (s.setSess k x).host = s.host := rfl
@[simp] theorem State.setSess_hostWr (k : Nat) (x : Sess) : (s.setSess k x).hostWr = s.hostWr := rfl
@[simp] theorem State.setSess_msix (k : Nat) (x : Sess) : (s.setSess k x).msix = s.msix := rfl
@[simp] theorem State.setSess_inflight (k : Nat) (x : Sess) : (s.setSess k x).inflight = s.inflight := rfl
@[simp] theorem State.setSess_cmdNext (k : Nat) (x : Sess) : (s.setSess k x).cmdNext = s.cmdNext := rfl
@[simp] theorem State.setSess_pow (k : Nat) (x : Sess) : (s.setSess k x).pow = s.pow := rfl
@[simp] theorem State.setSess_board (k : Nat) (x : Sess) : (s.setSess k x).board = s.board := rfl
@[simp] theorem State.setSess_rcv (k : Nat) (x : Sess) : (s.setSess k x).rcv = s.rcv := rfl
@[simp] theorem State.setSess_ctxs (k : Nat) (x : Sess) : (s.setSess k x).ctxs = s.ctxs := rfl
@[simp] theorem State.setSess_outHeld (k : Nat) (x : Sess) : (s.setSess k x).outHeld = s.outHeld := rfl
@[simp] theorem State.setSess_latches (k : Nat) (x : Sess) : (s.setSess k x).latches = s.latches := rfl
@[simp] theorem State.setSess_withheld (k : Nat) (x : Sess) : (s.setSess k x).withheld = s.withheld := rfl
@[simp] theorem State.setSess_images (k : Nat) (x : Sess) : (s.setSess k x).images = s.images := rfl
@[simp] theorem State.setSess_models (k : Nat) (x : Sess) : (s.setSess k x).models = s.models := rfl
@[simp] theorem State.setSess_deltas (k : Nat) (x : Sess) : (s.setSess k x).deltas = s.deltas := rfl
@[simp] theorem State.setSess_grammars (k : Nat) (x : Sess) : (s.setSess k x).grammars = s.grammars := rfl
@[simp] theorem State.setSess_prefixes (k : Nat) (x : Sess) : (s.setSess k x).prefixes = s.prefixes := rfl
@[simp] theorem State.setSess_regions (k : Nat) (x : Sess) : (s.setSess k x).regions = s.regions := rfl
@[simp] theorem State.setSess_nextId (k : Nat) (x : Sess) : (s.setSess k x).nextId = s.nextId := rfl
@[simp] theorem State.setSess_parts (k : Nat) (x : Sess) : (s.setSess k x).parts = s.parts := rfl
@[simp] theorem State.setSess_pcs (k : Nat) (x : Sess) : (s.setSess k x).pcs = s.pcs := rfl
@[simp] theorem State.setSess_sp (k : Nat) (x : Sess) : (s.setSess k x).sp = s.sp := rfl
@[simp] theorem State.setSess_acc (k : Nat) (x : Sess) : (s.setSess k x).acc = s.acc := rfl
@[simp] theorem State.setSess_spPoison (k : Nat) (x : Sess) : (s.setSess k x).spPoison = s.spPoison := rfl
@[simp] theorem State.setSess_accPoison (k : Nat) (x : Sess) : (s.setSess k x).accPoison = s.accPoison := rfl
@[simp] theorem State.setSess_stats (k : Nat) (x : Sess) : (s.setSess k x).stats = s.stats := rfl
@[simp] theorem State.setSess_expStats (k : Nat) (x : Sess) : (s.setSess k x).expStats = s.expStats := rfl
@[simp] theorem State.setSess_hbm (k : Nat) (x : Sess) : (s.setSess k x).hbm = s.hbm := rfl
@[simp] theorem State.setSess_fw (k : Nat) (x : Sess) : (s.setSess k x).fw = s.fw := rfl
@[simp] theorem State.setSess_t2 (k : Nat) (x : Sess) : (s.setSess k x).t2 = s.t2 := rfl
@[simp] theorem State.setSess_t1x (k : Nat) (x : Sess) : (s.setSess k x).t1x = s.t1x := rfl
@[simp] theorem State.setSess_t1Res (k : Nat) (x : Sess) : (s.setSess k x).t1Res = s.t1Res := rfl
@[simp] theorem State.setSess_t1Map (k : Nat) (x : Sess) : (s.setSess k x).t1Map = s.t1Map := rfl
@[simp] theorem State.setSess_t1Cache (k : Nat) (x : Sess) : (s.setSess k x).t1Cache = s.t1Cache := rfl
@[simp] theorem State.setSess_t2x (k : Nat) (x : Sess) : (s.setSess k x).t2x = s.t2x := rfl
@[simp] theorem State.setSess_quota (k : Nat) (x : Sess) : (s.setSess k x).quota = s.quota := rfl
@[simp] theorem State.setSess_usage (k : Nat) (x : Sess) : (s.setSess k x).usage = s.usage := rfl
@[simp] theorem State.setSess_hostT1 (k : Nat) (x : Sess) : (s.setSess k x).hostT1 = s.hostT1 := rfl
@[simp] theorem State.setSess_drives (k : Nat) (x : Sess) : (s.setSess k x).drives = s.drives := rfl
@[simp] theorem State.setSess_frames (k : Nat) (x : Sess) : (s.setSess k x).frames = s.frames := rfl
@[simp] theorem State.setSess_tierOps (k : Nat) (x : Sess) : (s.setSess k x).tierOps = s.tierOps := rfl
@[simp] theorem State.setSess_tierNext (k : Nat) (x : Sess) : (s.setSess k x).tierNext = s.tierNext := rfl
@[simp] theorem State.setSess_fab (k : Nat) (x : Sess) : (s.setSess k x).fab = s.fab := rfl
@[simp] theorem State.setSess_tum (k : Nat) (x : Sess) : (s.setSess k x).tum = s.tum := rfl
@[simp] theorem State.setSess_idn (k : Nat) (x : Sess) : (s.setSess k x).idn = s.idn := rfl
@[simp] theorem State.setSess_compo (k : Nat) (x : Sess) : (s.setSess k x).compo = s.compo := rfl

/-! ## `setNode` -/

@[simp] theorem State.setNode_pending (n : Nat) (x : Node) : (s.setNode n x).pending = s.pending := rfl
@[simp] theorem State.setNode_now (n : Nat) (x : Node) : (s.setNode n x).now = s.now := rfl
@[simp] theorem State.setNode_islands (n : Nat) (x : Node) : (s.setNode n x).islands = s.islands := rfl
@[simp] theorem State.setNode_free (n : Nat) (x : Node) : (s.setNode n x).free = s.free := rfl
@[simp] theorem State.setNode_keySet (n : Nat) (x : Node) : (s.setNode n x).keySet = s.keySet := rfl
@[simp] theorem State.setNode_keyEff (n : Nat) (x : Node) : (s.setNode n x).keyEff = s.keyEff := rfl
@[simp] theorem State.setNode_ctrs (n : Nat) (x : Node) : (s.setNode n x).ctrs = s.ctrs := rfl
@[simp] theorem State.setNode_host (n : Nat) (x : Node) : (s.setNode n x).host = s.host := rfl
@[simp] theorem State.setNode_hostWr (n : Nat) (x : Node) : (s.setNode n x).hostWr = s.hostWr := rfl
@[simp] theorem State.setNode_msix (n : Nat) (x : Node) : (s.setNode n x).msix = s.msix := rfl
@[simp] theorem State.setNode_inflight (n : Nat) (x : Node) : (s.setNode n x).inflight = s.inflight := rfl
@[simp] theorem State.setNode_cmdNext (n : Nat) (x : Node) : (s.setNode n x).cmdNext = s.cmdNext := rfl
@[simp] theorem State.setNode_pow (n : Nat) (x : Node) : (s.setNode n x).pow = s.pow := rfl
@[simp] theorem State.setNode_board (n : Nat) (x : Node) : (s.setNode n x).board = s.board := rfl
@[simp] theorem State.setNode_rcv (n : Nat) (x : Node) : (s.setNode n x).rcv = s.rcv := rfl
@[simp] theorem State.setNode_ctxs (n : Nat) (x : Node) : (s.setNode n x).ctxs = s.ctxs := rfl
@[simp] theorem State.setNode_outHeld (n : Nat) (x : Node) : (s.setNode n x).outHeld = s.outHeld := rfl
@[simp] theorem State.setNode_latches (n : Nat) (x : Node) : (s.setNode n x).latches = s.latches := rfl
@[simp] theorem State.setNode_withheld (n : Nat) (x : Node) : (s.setNode n x).withheld = s.withheld := rfl
@[simp] theorem State.setNode_images (n : Nat) (x : Node) : (s.setNode n x).images = s.images := rfl
@[simp] theorem State.setNode_models (n : Nat) (x : Node) : (s.setNode n x).models = s.models := rfl
@[simp] theorem State.setNode_deltas (n : Nat) (x : Node) : (s.setNode n x).deltas = s.deltas := rfl
@[simp] theorem State.setNode_grammars (n : Nat) (x : Node) : (s.setNode n x).grammars = s.grammars := rfl
@[simp] theorem State.setNode_prefixes (n : Nat) (x : Node) : (s.setNode n x).prefixes = s.prefixes := rfl
@[simp] theorem State.setNode_regions (n : Nat) (x : Node) : (s.setNode n x).regions = s.regions := rfl
@[simp] theorem State.setNode_nextId (n : Nat) (x : Node) : (s.setNode n x).nextId = s.nextId := rfl
@[simp] theorem State.setNode_parts (n : Nat) (x : Node) : (s.setNode n x).parts = s.parts := rfl
@[simp] theorem State.setNode_pcs (n : Nat) (x : Node) : (s.setNode n x).pcs = s.pcs := rfl
@[simp] theorem State.setNode_sp (n : Nat) (x : Node) : (s.setNode n x).sp = s.sp := rfl
@[simp] theorem State.setNode_acc (n : Nat) (x : Node) : (s.setNode n x).acc = s.acc := rfl
@[simp] theorem State.setNode_spPoison (n : Nat) (x : Node) : (s.setNode n x).spPoison = s.spPoison := rfl
@[simp] theorem State.setNode_accPoison (n : Nat) (x : Node) : (s.setNode n x).accPoison = s.accPoison := rfl
@[simp] theorem State.setNode_stats (n : Nat) (x : Node) : (s.setNode n x).stats = s.stats := rfl
@[simp] theorem State.setNode_expStats (n : Nat) (x : Node) : (s.setNode n x).expStats = s.expStats := rfl
@[simp] theorem State.setNode_hbm (n : Nat) (x : Node) : (s.setNode n x).hbm = s.hbm := rfl
@[simp] theorem State.setNode_fw (n : Nat) (x : Node) : (s.setNode n x).fw = s.fw := rfl
@[simp] theorem State.setNode_t2 (n : Nat) (x : Node) : (s.setNode n x).t2 = s.t2 := rfl
@[simp] theorem State.setNode_t1x (n : Nat) (x : Node) : (s.setNode n x).t1x = s.t1x := rfl
@[simp] theorem State.setNode_t1Res (n : Nat) (x : Node) : (s.setNode n x).t1Res = s.t1Res := rfl
@[simp] theorem State.setNode_t1Map (n : Nat) (x : Node) : (s.setNode n x).t1Map = s.t1Map := rfl
@[simp] theorem State.setNode_t1Cache (n : Nat) (x : Node) : (s.setNode n x).t1Cache = s.t1Cache := rfl
@[simp] theorem State.setNode_t2x (n : Nat) (x : Node) : (s.setNode n x).t2x = s.t2x := rfl
@[simp] theorem State.setNode_quota (n : Nat) (x : Node) : (s.setNode n x).quota = s.quota := rfl
@[simp] theorem State.setNode_usage (n : Nat) (x : Node) : (s.setNode n x).usage = s.usage := rfl
@[simp] theorem State.setNode_hostT1 (n : Nat) (x : Node) : (s.setNode n x).hostT1 = s.hostT1 := rfl
@[simp] theorem State.setNode_drives (n : Nat) (x : Node) : (s.setNode n x).drives = s.drives := rfl
@[simp] theorem State.setNode_frames (n : Nat) (x : Node) : (s.setNode n x).frames = s.frames := rfl
@[simp] theorem State.setNode_tierOps (n : Nat) (x : Node) : (s.setNode n x).tierOps = s.tierOps := rfl
@[simp] theorem State.setNode_tierNext (n : Nat) (x : Node) : (s.setNode n x).tierNext = s.tierNext := rfl
@[simp] theorem State.setNode_net (n : Nat) (x : Node) : (s.setNode n x).net = s.net := rfl
@[simp] theorem State.setNode_tum (n : Nat) (x : Node) : (s.setNode n x).tum = s.tum := rfl
@[simp] theorem State.setNode_idn (n : Nat) (x : Node) : (s.setNode n x).idn = s.idn := rfl
@[simp] theorem State.setNode_compo (n : Nat) (x : Node) : (s.setNode n x).compo = s.compo := rfl

/-! ## `setJobTd` -/

@[simp] theorem State.setJobTd_pending (j : Nat) (x : JobTd) : (s.setJobTd j x).pending = s.pending := rfl
@[simp] theorem State.setJobTd_now (j : Nat) (x : JobTd) : (s.setJobTd j x).now = s.now := rfl
@[simp] theorem State.setJobTd_islands (j : Nat) (x : JobTd) : (s.setJobTd j x).islands = s.islands := rfl
@[simp] theorem State.setJobTd_free (j : Nat) (x : JobTd) : (s.setJobTd j x).free = s.free := rfl
@[simp] theorem State.setJobTd_keySet (j : Nat) (x : JobTd) : (s.setJobTd j x).keySet = s.keySet := rfl
@[simp] theorem State.setJobTd_keyEff (j : Nat) (x : JobTd) : (s.setJobTd j x).keyEff = s.keyEff := rfl
@[simp] theorem State.setJobTd_ctrs (j : Nat) (x : JobTd) : (s.setJobTd j x).ctrs = s.ctrs := rfl
@[simp] theorem State.setJobTd_host (j : Nat) (x : JobTd) : (s.setJobTd j x).host = s.host := rfl
@[simp] theorem State.setJobTd_hostWr (j : Nat) (x : JobTd) : (s.setJobTd j x).hostWr = s.hostWr := rfl
@[simp] theorem State.setJobTd_msix (j : Nat) (x : JobTd) : (s.setJobTd j x).msix = s.msix := rfl
@[simp] theorem State.setJobTd_inflight (j : Nat) (x : JobTd) : (s.setJobTd j x).inflight = s.inflight := rfl
@[simp] theorem State.setJobTd_cmdNext (j : Nat) (x : JobTd) : (s.setJobTd j x).cmdNext = s.cmdNext := rfl
@[simp] theorem State.setJobTd_pow (j : Nat) (x : JobTd) : (s.setJobTd j x).pow = s.pow := rfl
@[simp] theorem State.setJobTd_board (j : Nat) (x : JobTd) : (s.setJobTd j x).board = s.board := rfl
@[simp] theorem State.setJobTd_rcv (j : Nat) (x : JobTd) : (s.setJobTd j x).rcv = s.rcv := rfl
@[simp] theorem State.setJobTd_ctxs (j : Nat) (x : JobTd) : (s.setJobTd j x).ctxs = s.ctxs := rfl
@[simp] theorem State.setJobTd_outHeld (j : Nat) (x : JobTd) : (s.setJobTd j x).outHeld = s.outHeld := rfl
@[simp] theorem State.setJobTd_latches (j : Nat) (x : JobTd) : (s.setJobTd j x).latches = s.latches := rfl
@[simp] theorem State.setJobTd_withheld (j : Nat) (x : JobTd) : (s.setJobTd j x).withheld = s.withheld := rfl
@[simp] theorem State.setJobTd_images (j : Nat) (x : JobTd) : (s.setJobTd j x).images = s.images := rfl
@[simp] theorem State.setJobTd_models (j : Nat) (x : JobTd) : (s.setJobTd j x).models = s.models := rfl
@[simp] theorem State.setJobTd_deltas (j : Nat) (x : JobTd) : (s.setJobTd j x).deltas = s.deltas := rfl
@[simp] theorem State.setJobTd_grammars (j : Nat) (x : JobTd) : (s.setJobTd j x).grammars = s.grammars := rfl
@[simp] theorem State.setJobTd_prefixes (j : Nat) (x : JobTd) : (s.setJobTd j x).prefixes = s.prefixes := rfl
@[simp] theorem State.setJobTd_regions (j : Nat) (x : JobTd) : (s.setJobTd j x).regions = s.regions := rfl
@[simp] theorem State.setJobTd_nextId (j : Nat) (x : JobTd) : (s.setJobTd j x).nextId = s.nextId := rfl
@[simp] theorem State.setJobTd_parts (j : Nat) (x : JobTd) : (s.setJobTd j x).parts = s.parts := rfl
@[simp] theorem State.setJobTd_pcs (j : Nat) (x : JobTd) : (s.setJobTd j x).pcs = s.pcs := rfl
@[simp] theorem State.setJobTd_sp (j : Nat) (x : JobTd) : (s.setJobTd j x).sp = s.sp := rfl
@[simp] theorem State.setJobTd_acc (j : Nat) (x : JobTd) : (s.setJobTd j x).acc = s.acc := rfl
@[simp] theorem State.setJobTd_spPoison (j : Nat) (x : JobTd) : (s.setJobTd j x).spPoison = s.spPoison := rfl
@[simp] theorem State.setJobTd_accPoison (j : Nat) (x : JobTd) : (s.setJobTd j x).accPoison = s.accPoison := rfl
@[simp] theorem State.setJobTd_stats (j : Nat) (x : JobTd) : (s.setJobTd j x).stats = s.stats := rfl
@[simp] theorem State.setJobTd_expStats (j : Nat) (x : JobTd) : (s.setJobTd j x).expStats = s.expStats := rfl
@[simp] theorem State.setJobTd_hbm (j : Nat) (x : JobTd) : (s.setJobTd j x).hbm = s.hbm := rfl
@[simp] theorem State.setJobTd_fw (j : Nat) (x : JobTd) : (s.setJobTd j x).fw = s.fw := rfl
@[simp] theorem State.setJobTd_t2 (j : Nat) (x : JobTd) : (s.setJobTd j x).t2 = s.t2 := rfl
@[simp] theorem State.setJobTd_t1x (j : Nat) (x : JobTd) : (s.setJobTd j x).t1x = s.t1x := rfl
@[simp] theorem State.setJobTd_t1Res (j : Nat) (x : JobTd) : (s.setJobTd j x).t1Res = s.t1Res := rfl
@[simp] theorem State.setJobTd_t1Map (j : Nat) (x : JobTd) : (s.setJobTd j x).t1Map = s.t1Map := rfl
@[simp] theorem State.setJobTd_t1Cache (j : Nat) (x : JobTd) : (s.setJobTd j x).t1Cache = s.t1Cache := rfl
@[simp] theorem State.setJobTd_t2x (j : Nat) (x : JobTd) : (s.setJobTd j x).t2x = s.t2x := rfl
@[simp] theorem State.setJobTd_quota (j : Nat) (x : JobTd) : (s.setJobTd j x).quota = s.quota := rfl
@[simp] theorem State.setJobTd_usage (j : Nat) (x : JobTd) : (s.setJobTd j x).usage = s.usage := rfl
@[simp] theorem State.setJobTd_hostT1 (j : Nat) (x : JobTd) : (s.setJobTd j x).hostT1 = s.hostT1 := rfl
@[simp] theorem State.setJobTd_drives (j : Nat) (x : JobTd) : (s.setJobTd j x).drives = s.drives := rfl
@[simp] theorem State.setJobTd_frames (j : Nat) (x : JobTd) : (s.setJobTd j x).frames = s.frames := rfl
@[simp] theorem State.setJobTd_tierOps (j : Nat) (x : JobTd) : (s.setJobTd j x).tierOps = s.tierOps := rfl
@[simp] theorem State.setJobTd_tierNext (j : Nat) (x : JobTd) : (s.setJobTd j x).tierNext = s.tierNext := rfl
@[simp] theorem State.setJobTd_net (j : Nat) (x : JobTd) : (s.setJobTd j x).net = s.net := rfl
@[simp] theorem State.setJobTd_tum (j : Nat) (x : JobTd) : (s.setJobTd j x).tum = s.tum := rfl
@[simp] theorem State.setJobTd_idn (j : Nat) (x : JobTd) : (s.setJobTd j x).idn = s.idn := rfl
@[simp] theorem State.setJobTd_compo (j : Nat) (x : JobTd) : (s.setJobTd j x).compo = s.compo := rfl

/-! ## `linePoison` -/

@[simp] theorem State.linePoison_pending (l : Nat) (p : Bool) : (s.linePoison l p).pending = s.pending := rfl
@[simp] theorem State.linePoison_now (l : Nat) (p : Bool) : (s.linePoison l p).now = s.now := rfl
@[simp] theorem State.linePoison_islands (l : Nat) (p : Bool) : (s.linePoison l p).islands = s.islands := rfl
@[simp] theorem State.linePoison_free (l : Nat) (p : Bool) : (s.linePoison l p).free = s.free := rfl
@[simp] theorem State.linePoison_keySet (l : Nat) (p : Bool) : (s.linePoison l p).keySet = s.keySet := rfl
@[simp] theorem State.linePoison_keyEff (l : Nat) (p : Bool) : (s.linePoison l p).keyEff = s.keyEff := rfl
@[simp] theorem State.linePoison_ctrs (l : Nat) (p : Bool) : (s.linePoison l p).ctrs = s.ctrs := rfl
@[simp] theorem State.linePoison_host (l : Nat) (p : Bool) : (s.linePoison l p).host = s.host := rfl
@[simp] theorem State.linePoison_hostWr (l : Nat) (p : Bool) : (s.linePoison l p).hostWr = s.hostWr := rfl
@[simp] theorem State.linePoison_msix (l : Nat) (p : Bool) : (s.linePoison l p).msix = s.msix := rfl
@[simp] theorem State.linePoison_inflight (l : Nat) (p : Bool) : (s.linePoison l p).inflight = s.inflight := rfl
@[simp] theorem State.linePoison_cmdNext (l : Nat) (p : Bool) : (s.linePoison l p).cmdNext = s.cmdNext := rfl
@[simp] theorem State.linePoison_pow (l : Nat) (p : Bool) : (s.linePoison l p).pow = s.pow := rfl
@[simp] theorem State.linePoison_board (l : Nat) (p : Bool) : (s.linePoison l p).board = s.board := rfl
@[simp] theorem State.linePoison_rcv (l : Nat) (p : Bool) : (s.linePoison l p).rcv = s.rcv := rfl
@[simp] theorem State.linePoison_ctxs (l : Nat) (p : Bool) : (s.linePoison l p).ctxs = s.ctxs := rfl
@[simp] theorem State.linePoison_outHeld (l : Nat) (p : Bool) : (s.linePoison l p).outHeld = s.outHeld := rfl
@[simp] theorem State.linePoison_latches (l : Nat) (p : Bool) : (s.linePoison l p).latches = s.latches := rfl
@[simp] theorem State.linePoison_withheld (l : Nat) (p : Bool) : (s.linePoison l p).withheld = s.withheld := rfl
@[simp] theorem State.linePoison_images (l : Nat) (p : Bool) : (s.linePoison l p).images = s.images := rfl
@[simp] theorem State.linePoison_models (l : Nat) (p : Bool) : (s.linePoison l p).models = s.models := rfl
@[simp] theorem State.linePoison_deltas (l : Nat) (p : Bool) : (s.linePoison l p).deltas = s.deltas := rfl
@[simp] theorem State.linePoison_grammars (l : Nat) (p : Bool) : (s.linePoison l p).grammars = s.grammars := rfl
@[simp] theorem State.linePoison_prefixes (l : Nat) (p : Bool) : (s.linePoison l p).prefixes = s.prefixes := rfl
@[simp] theorem State.linePoison_regions (l : Nat) (p : Bool) : (s.linePoison l p).regions = s.regions := rfl
@[simp] theorem State.linePoison_nextId (l : Nat) (p : Bool) : (s.linePoison l p).nextId = s.nextId := rfl
@[simp] theorem State.linePoison_parts (l : Nat) (p : Bool) : (s.linePoison l p).parts = s.parts := rfl
@[simp] theorem State.linePoison_pcs (l : Nat) (p : Bool) : (s.linePoison l p).pcs = s.pcs := rfl
@[simp] theorem State.linePoison_sp (l : Nat) (p : Bool) : (s.linePoison l p).sp = s.sp := rfl
@[simp] theorem State.linePoison_acc (l : Nat) (p : Bool) : (s.linePoison l p).acc = s.acc := rfl
@[simp] theorem State.linePoison_spPoison (l : Nat) (p : Bool) : (s.linePoison l p).spPoison = s.spPoison := rfl
@[simp] theorem State.linePoison_accPoison (l : Nat) (p : Bool) : (s.linePoison l p).accPoison = s.accPoison := rfl
@[simp] theorem State.linePoison_stats (l : Nat) (p : Bool) : (s.linePoison l p).stats = s.stats := rfl
@[simp] theorem State.linePoison_expStats (l : Nat) (p : Bool) : (s.linePoison l p).expStats = s.expStats := rfl
@[simp] theorem State.linePoison_hbm (l : Nat) (p : Bool) : (s.linePoison l p).hbm = s.hbm := rfl
@[simp] theorem State.linePoison_fw (l : Nat) (p : Bool) : (s.linePoison l p).fw = s.fw := rfl
@[simp] theorem State.linePoison_t2 (l : Nat) (p : Bool) : (s.linePoison l p).t2 = s.t2 := rfl
@[simp] theorem State.linePoison_t1x (l : Nat) (p : Bool) : (s.linePoison l p).t1x = s.t1x := rfl
@[simp] theorem State.linePoison_t1Res (l : Nat) (p : Bool) : (s.linePoison l p).t1Res = s.t1Res := rfl
@[simp] theorem State.linePoison_t1Map (l : Nat) (p : Bool) : (s.linePoison l p).t1Map = s.t1Map := rfl
@[simp] theorem State.linePoison_t1Cache (l : Nat) (p : Bool) : (s.linePoison l p).t1Cache = s.t1Cache := rfl
@[simp] theorem State.linePoison_t2x (l : Nat) (p : Bool) : (s.linePoison l p).t2x = s.t2x := rfl
@[simp] theorem State.linePoison_quota (l : Nat) (p : Bool) : (s.linePoison l p).quota = s.quota := rfl
@[simp] theorem State.linePoison_usage (l : Nat) (p : Bool) : (s.linePoison l p).usage = s.usage := rfl
@[simp] theorem State.linePoison_hostT1 (l : Nat) (p : Bool) : (s.linePoison l p).hostT1 = s.hostT1 := rfl
@[simp] theorem State.linePoison_drives (l : Nat) (p : Bool) : (s.linePoison l p).drives = s.drives := rfl
@[simp] theorem State.linePoison_frames (l : Nat) (p : Bool) : (s.linePoison l p).frames = s.frames := rfl
@[simp] theorem State.linePoison_tierOps (l : Nat) (p : Bool) : (s.linePoison l p).tierOps = s.tierOps := rfl
@[simp] theorem State.linePoison_tierNext (l : Nat) (p : Bool) : (s.linePoison l p).tierNext = s.tierNext := rfl
@[simp] theorem State.linePoison_net (l : Nat) (p : Bool) : (s.linePoison l p).net = s.net := rfl
@[simp] theorem State.linePoison_tum (l : Nat) (p : Bool) : (s.linePoison l p).tum = s.tum := rfl
@[simp] theorem State.linePoison_idn (l : Nat) (p : Bool) : (s.linePoison l p).idn = s.idn := rfl
@[simp] theorem State.linePoison_compo (l : Nat) (p : Bool) : (s.linePoison l p).compo = s.compo := rfl

/-! ## `setTable` -/

@[simp] theorem State.setTable_pending (k : Nat) (x : Table) : (s.setTable k x).pending = s.pending := rfl
@[simp] theorem State.setTable_now (k : Nat) (x : Table) : (s.setTable k x).now = s.now := rfl
@[simp] theorem State.setTable_islands (k : Nat) (x : Table) : (s.setTable k x).islands = s.islands := rfl
@[simp] theorem State.setTable_free (k : Nat) (x : Table) : (s.setTable k x).free = s.free := rfl
@[simp] theorem State.setTable_keySet (k : Nat) (x : Table) : (s.setTable k x).keySet = s.keySet := rfl
@[simp] theorem State.setTable_keyEff (k : Nat) (x : Table) : (s.setTable k x).keyEff = s.keyEff := rfl
@[simp] theorem State.setTable_ctrs (k : Nat) (x : Table) : (s.setTable k x).ctrs = s.ctrs := rfl
@[simp] theorem State.setTable_host (k : Nat) (x : Table) : (s.setTable k x).host = s.host := rfl
@[simp] theorem State.setTable_hostWr (k : Nat) (x : Table) : (s.setTable k x).hostWr = s.hostWr := rfl
@[simp] theorem State.setTable_msix (k : Nat) (x : Table) : (s.setTable k x).msix = s.msix := rfl
@[simp] theorem State.setTable_inflight (k : Nat) (x : Table) : (s.setTable k x).inflight = s.inflight := rfl
@[simp] theorem State.setTable_cmdNext (k : Nat) (x : Table) : (s.setTable k x).cmdNext = s.cmdNext := rfl
@[simp] theorem State.setTable_pow (k : Nat) (x : Table) : (s.setTable k x).pow = s.pow := rfl
@[simp] theorem State.setTable_board (k : Nat) (x : Table) : (s.setTable k x).board = s.board := rfl
@[simp] theorem State.setTable_rcv (k : Nat) (x : Table) : (s.setTable k x).rcv = s.rcv := rfl
@[simp] theorem State.setTable_ctxs (k : Nat) (x : Table) : (s.setTable k x).ctxs = s.ctxs := rfl
@[simp] theorem State.setTable_outHeld (k : Nat) (x : Table) : (s.setTable k x).outHeld = s.outHeld := rfl
@[simp] theorem State.setTable_latches (k : Nat) (x : Table) : (s.setTable k x).latches = s.latches := rfl
@[simp] theorem State.setTable_withheld (k : Nat) (x : Table) : (s.setTable k x).withheld = s.withheld := rfl
@[simp] theorem State.setTable_images (k : Nat) (x : Table) : (s.setTable k x).images = s.images := rfl
@[simp] theorem State.setTable_models (k : Nat) (x : Table) : (s.setTable k x).models = s.models := rfl
@[simp] theorem State.setTable_deltas (k : Nat) (x : Table) : (s.setTable k x).deltas = s.deltas := rfl
@[simp] theorem State.setTable_grammars (k : Nat) (x : Table) : (s.setTable k x).grammars = s.grammars := rfl
@[simp] theorem State.setTable_prefixes (k : Nat) (x : Table) : (s.setTable k x).prefixes = s.prefixes := rfl
@[simp] theorem State.setTable_regions (k : Nat) (x : Table) : (s.setTable k x).regions = s.regions := rfl
@[simp] theorem State.setTable_nextId (k : Nat) (x : Table) : (s.setTable k x).nextId = s.nextId := rfl
@[simp] theorem State.setTable_parts (k : Nat) (x : Table) : (s.setTable k x).parts = s.parts := rfl
@[simp] theorem State.setTable_pcs (k : Nat) (x : Table) : (s.setTable k x).pcs = s.pcs := rfl
@[simp] theorem State.setTable_sp (k : Nat) (x : Table) : (s.setTable k x).sp = s.sp := rfl
@[simp] theorem State.setTable_acc (k : Nat) (x : Table) : (s.setTable k x).acc = s.acc := rfl
@[simp] theorem State.setTable_spPoison (k : Nat) (x : Table) : (s.setTable k x).spPoison = s.spPoison := rfl
@[simp] theorem State.setTable_accPoison (k : Nat) (x : Table) : (s.setTable k x).accPoison = s.accPoison := rfl
@[simp] theorem State.setTable_stats (k : Nat) (x : Table) : (s.setTable k x).stats = s.stats := rfl
@[simp] theorem State.setTable_expStats (k : Nat) (x : Table) : (s.setTable k x).expStats = s.expStats := rfl
@[simp] theorem State.setTable_hbm (k : Nat) (x : Table) : (s.setTable k x).hbm = s.hbm := rfl
@[simp] theorem State.setTable_fw (k : Nat) (x : Table) : (s.setTable k x).fw = s.fw := rfl
@[simp] theorem State.setTable_t2 (k : Nat) (x : Table) : (s.setTable k x).t2 = s.t2 := rfl
@[simp] theorem State.setTable_t1x (k : Nat) (x : Table) : (s.setTable k x).t1x = s.t1x := rfl
@[simp] theorem State.setTable_t1Res (k : Nat) (x : Table) : (s.setTable k x).t1Res = s.t1Res := rfl
@[simp] theorem State.setTable_t1Map (k : Nat) (x : Table) : (s.setTable k x).t1Map = s.t1Map := rfl
@[simp] theorem State.setTable_t1Cache (k : Nat) (x : Table) : (s.setTable k x).t1Cache = s.t1Cache := rfl
@[simp] theorem State.setTable_t2x (k : Nat) (x : Table) : (s.setTable k x).t2x = s.t2x := rfl
@[simp] theorem State.setTable_quota (k : Nat) (x : Table) : (s.setTable k x).quota = s.quota := rfl
@[simp] theorem State.setTable_usage (k : Nat) (x : Table) : (s.setTable k x).usage = s.usage := rfl
@[simp] theorem State.setTable_hostT1 (k : Nat) (x : Table) : (s.setTable k x).hostT1 = s.hostT1 := rfl
@[simp] theorem State.setTable_drives (k : Nat) (x : Table) : (s.setTable k x).drives = s.drives := rfl
@[simp] theorem State.setTable_frames (k : Nat) (x : Table) : (s.setTable k x).frames = s.frames := rfl
@[simp] theorem State.setTable_tierOps (k : Nat) (x : Table) : (s.setTable k x).tierOps = s.tierOps := rfl
@[simp] theorem State.setTable_tierNext (k : Nat) (x : Table) : (s.setTable k x).tierNext = s.tierNext := rfl
@[simp] theorem State.setTable_fab (k : Nat) (x : Table) : (s.setTable k x).fab = s.fab := rfl
@[simp] theorem State.setTable_net (k : Nat) (x : Table) : (s.setTable k x).net = s.net := rfl
@[simp] theorem State.setTable_idn (k : Nat) (x : Table) : (s.setTable k x).idn = s.idn := rfl
@[simp] theorem State.setTable_compo (k : Nat) (x : Table) : (s.setTable k x).compo = s.compo := rfl

/-! ## `setDrive` -/

@[simp] theorem State.setDrive_pending (d : Nat) (x : Drive) : (s.setDrive d x).pending = s.pending := rfl
@[simp] theorem State.setDrive_now (d : Nat) (x : Drive) : (s.setDrive d x).now = s.now := rfl
@[simp] theorem State.setDrive_islands (d : Nat) (x : Drive) : (s.setDrive d x).islands = s.islands := rfl
@[simp] theorem State.setDrive_free (d : Nat) (x : Drive) : (s.setDrive d x).free = s.free := rfl
@[simp] theorem State.setDrive_keySet (d : Nat) (x : Drive) : (s.setDrive d x).keySet = s.keySet := rfl
@[simp] theorem State.setDrive_keyEff (d : Nat) (x : Drive) : (s.setDrive d x).keyEff = s.keyEff := rfl
@[simp] theorem State.setDrive_ctrs (d : Nat) (x : Drive) : (s.setDrive d x).ctrs = s.ctrs := rfl
@[simp] theorem State.setDrive_host (d : Nat) (x : Drive) : (s.setDrive d x).host = s.host := rfl
@[simp] theorem State.setDrive_hostWr (d : Nat) (x : Drive) : (s.setDrive d x).hostWr = s.hostWr := rfl
@[simp] theorem State.setDrive_msix (d : Nat) (x : Drive) : (s.setDrive d x).msix = s.msix := rfl
@[simp] theorem State.setDrive_inflight (d : Nat) (x : Drive) : (s.setDrive d x).inflight = s.inflight := rfl
@[simp] theorem State.setDrive_cmdNext (d : Nat) (x : Drive) : (s.setDrive d x).cmdNext = s.cmdNext := rfl
@[simp] theorem State.setDrive_pow (d : Nat) (x : Drive) : (s.setDrive d x).pow = s.pow := rfl
@[simp] theorem State.setDrive_board (d : Nat) (x : Drive) : (s.setDrive d x).board = s.board := rfl
@[simp] theorem State.setDrive_rcv (d : Nat) (x : Drive) : (s.setDrive d x).rcv = s.rcv := rfl
@[simp] theorem State.setDrive_ctxs (d : Nat) (x : Drive) : (s.setDrive d x).ctxs = s.ctxs := rfl
@[simp] theorem State.setDrive_outHeld (d : Nat) (x : Drive) : (s.setDrive d x).outHeld = s.outHeld := rfl
@[simp] theorem State.setDrive_latches (d : Nat) (x : Drive) : (s.setDrive d x).latches = s.latches := rfl
@[simp] theorem State.setDrive_withheld (d : Nat) (x : Drive) : (s.setDrive d x).withheld = s.withheld := rfl
@[simp] theorem State.setDrive_images (d : Nat) (x : Drive) : (s.setDrive d x).images = s.images := rfl
@[simp] theorem State.setDrive_models (d : Nat) (x : Drive) : (s.setDrive d x).models = s.models := rfl
@[simp] theorem State.setDrive_deltas (d : Nat) (x : Drive) : (s.setDrive d x).deltas = s.deltas := rfl
@[simp] theorem State.setDrive_grammars (d : Nat) (x : Drive) : (s.setDrive d x).grammars = s.grammars := rfl
@[simp] theorem State.setDrive_prefixes (d : Nat) (x : Drive) : (s.setDrive d x).prefixes = s.prefixes := rfl
@[simp] theorem State.setDrive_regions (d : Nat) (x : Drive) : (s.setDrive d x).regions = s.regions := rfl
@[simp] theorem State.setDrive_nextId (d : Nat) (x : Drive) : (s.setDrive d x).nextId = s.nextId := rfl
@[simp] theorem State.setDrive_parts (d : Nat) (x : Drive) : (s.setDrive d x).parts = s.parts := rfl
@[simp] theorem State.setDrive_pcs (d : Nat) (x : Drive) : (s.setDrive d x).pcs = s.pcs := rfl
@[simp] theorem State.setDrive_sp (d : Nat) (x : Drive) : (s.setDrive d x).sp = s.sp := rfl
@[simp] theorem State.setDrive_acc (d : Nat) (x : Drive) : (s.setDrive d x).acc = s.acc := rfl
@[simp] theorem State.setDrive_spPoison (d : Nat) (x : Drive) : (s.setDrive d x).spPoison = s.spPoison := rfl
@[simp] theorem State.setDrive_accPoison (d : Nat) (x : Drive) : (s.setDrive d x).accPoison = s.accPoison := rfl
@[simp] theorem State.setDrive_stats (d : Nat) (x : Drive) : (s.setDrive d x).stats = s.stats := rfl
@[simp] theorem State.setDrive_expStats (d : Nat) (x : Drive) : (s.setDrive d x).expStats = s.expStats := rfl
@[simp] theorem State.setDrive_hbm (d : Nat) (x : Drive) : (s.setDrive d x).hbm = s.hbm := rfl
@[simp] theorem State.setDrive_fw (d : Nat) (x : Drive) : (s.setDrive d x).fw = s.fw := rfl
@[simp] theorem State.setDrive_t2 (d : Nat) (x : Drive) : (s.setDrive d x).t2 = s.t2 := rfl
@[simp] theorem State.setDrive_t1x (d : Nat) (x : Drive) : (s.setDrive d x).t1x = s.t1x := rfl
@[simp] theorem State.setDrive_t1Res (d : Nat) (x : Drive) : (s.setDrive d x).t1Res = s.t1Res := rfl
@[simp] theorem State.setDrive_t1Map (d : Nat) (x : Drive) : (s.setDrive d x).t1Map = s.t1Map := rfl
@[simp] theorem State.setDrive_t1Cache (d : Nat) (x : Drive) : (s.setDrive d x).t1Cache = s.t1Cache := rfl
@[simp] theorem State.setDrive_t2x (d : Nat) (x : Drive) : (s.setDrive d x).t2x = s.t2x := rfl
@[simp] theorem State.setDrive_quota (d : Nat) (x : Drive) : (s.setDrive d x).quota = s.quota := rfl
@[simp] theorem State.setDrive_usage (d : Nat) (x : Drive) : (s.setDrive d x).usage = s.usage := rfl
@[simp] theorem State.setDrive_hostT1 (d : Nat) (x : Drive) : (s.setDrive d x).hostT1 = s.hostT1 := rfl
@[simp] theorem State.setDrive_frames (d : Nat) (x : Drive) : (s.setDrive d x).frames = s.frames := rfl
@[simp] theorem State.setDrive_tierOps (d : Nat) (x : Drive) : (s.setDrive d x).tierOps = s.tierOps := rfl
@[simp] theorem State.setDrive_tierNext (d : Nat) (x : Drive) : (s.setDrive d x).tierNext = s.tierNext := rfl
@[simp] theorem State.setDrive_fab (d : Nat) (x : Drive) : (s.setDrive d x).fab = s.fab := rfl
@[simp] theorem State.setDrive_net (d : Nat) (x : Drive) : (s.setDrive d x).net = s.net := rfl
@[simp] theorem State.setDrive_tum (d : Nat) (x : Drive) : (s.setDrive d x).tum = s.tum := rfl
@[simp] theorem State.setDrive_idn (d : Nat) (x : Drive) : (s.setDrive d x).idn = s.idn := rfl
@[simp] theorem State.setDrive_compo (d : Nat) (x : Drive) : (s.setDrive d x).compo = s.compo := rfl

end Sys2Proof.Machine
end

