-- ==== Sys2Proof/Laws/Events.lean ====
section
/-! SUPPORT. What posting an event does (02 R52, R59, 17 R545): it is always logged; no ring's state and no counter but `events_lost` changes. -/

namespace Sys2Proof.Machine

variable {s t : State}

@[simp] theorem State.signalVector_ringSt (s : State) (v ty n : Nat) : (s.signalVector v).ringSt ty n = s.ringSt ty n := by
  unfold State.signalVector
  split <;> rfl

@[simp] theorem DevRing.advance_st (r : DevRing) : r.advance.st = r.st := by
  unfold DevRing.advance
  split <;> rfl

/-- A ring's state survives an entry posted to any completion ring. -/
theorem State.cqPost_ringSt (s : State) (c : Nat) (e : Bool → Nat) (irq : Bool) (ty n : Nat) :
    (s.cqPost c e irq).ringSt ty n = s.ringSt ty n := by
  unfold State.cqPost
  dsimp only
  split
  · rename_i hc
    have key : ∀ (u : State) (r : DevRing), u.host = s.host → r.st = .active → (u.setCq c r).ringSt ty n = s.ringSt ty n := by
      intro u r hu hr
      unfold State.ringSt State.sqr State.cqr State.oqr State.setCq
      dsimp only
      rw [hu]
      split
      · rfl
      · split
        · by_cases hn : n = c
          · subst hn; rw [Tab.getD_put_self, hr]; exact hc.symm
          · rw [Tab.getD_put_ne _ _ hn]
        · rfl
    have ha : ((s.cqr c).advance.posted s.now).st = .active := (DevRing.advance_st _).trans hc
    split
    · rw [State.signalVector_ringSt]; exact key _ _ rfl ha
    · exact key _ _ rfl ha
  · rfl

theorem State.ringSt_congr (h : t.host = s.host) (ty n : Nat) : t.ringSt ty n = s.ringSt ty n := by
  unfold State.ringSt State.sqr State.cqr State.oqr
  rw [h]


@[simp] theorem State.logEvent_ringSt (s : State) (c h a b ty n : Nat) : (s.logEvent c h a b).ringSt ty n = s.ringSt ty n :=
  State.ringSt_congr (State.logEvent_host s c h a b) ty n

/-- A state with another event sequence and count of lost events. -/
theorem State.evCount_ringSt (s : State) (x y ty n : Nat) :
    ({ s with host := { s.host with evSeq := x, evLost := y } } : State).ringSt ty n = s.ringSt ty n := by
  unfold State.ringSt State.sqr State.cqr State.oqr
  rfl

@[simp] theorem State.putEvent_ringSt (s : State) (c h a b ty n : Nat) : (s.putEvent c h a b).ringSt ty n = s.ringSt ty n := by
  unfold State.putEvent
  dsimp only
  rw [State.cqPost_ringSt]
  exact State.evCount_ringSt s _ _ ty n
@[simp] theorem State.flushLost_ringSt (s : State) (ty n : Nat) : s.flushLost.ringSt ty n = s.ringSt ty n := by
  unfold State.flushLost
  split
  · dsimp only
    rw [State.putEvent_ringSt, State.logEvent_ringSt]
    exact State.evCount_ringSt s _ _ ty n
  · rfl
@[simp] theorem State.adopt_ringSt (s : State) (k ix ty n : Nat) : (s.adopt k ix).ringSt ty n = s.ringSt ty n := State.ringSt_congr (by unfold State.adopt; rfl) ty n
@[simp] theorem State.bump_ringSt (s : State) (k m ix ty n : Nat) : (s.bump k m ix).ringSt ty n = s.ringSt ty n := State.ringSt_congr (by unfold State.bump; rfl) ty n

/-- No event changes a ring's state. -/
@[simp] theorem State.postEvent_ringSt (s : State) (c h a b ty n : Nat) : (s.postEvent c h a b).ringSt ty n = s.ringSt ty n := by
  unfold State.postEvent
  dsimp only
  repeat' split
  · rw [State.putEvent_ringSt, State.logEvent_ringSt, State.flushLost_ringSt, State.adopt_ringSt]
  · rw [State.bump_ringSt, State.evCount_ringSt, State.logEvent_ringSt, State.flushLost_ringSt, State.adopt_ringSt]
  · exact (State.evCount_ringSt _ _ _ ty n).trans ((State.logEvent_ringSt _ _ _ _ _ ty n).trans (State.adopt_ringSt _ _ _ ty n))
  · exact State.logEvent_ringSt _ _ _ _ _ ty n

theorem State.putEvent_rest (s : State) (c h a b : Nat) : (s.putEvent c h a b).ctrs = s.ctrs ∧ (s.putEvent c h a b).rcv = s.rcv ∧ (s.putEvent c h a b).now = s.now := by
  have h := State.cqPost_posts { s with host := { s.host with evSeq := (s.host.evSeq + 1) % 2 ^ 16 } } s.eventRing
    (fun ph => cqEntry c s.host.evSeq 0 0 0 false ph 0 1 h a b) false
  exact ⟨h.ctrs, h.rcv, h.now⟩

theorem State.flushLost_rest (s : State) : s.flushLost.ctrs = s.ctrs ∧ s.flushLost.now = s.now := by
  unfold State.flushLost
  split
  · dsimp only
    have h := fun (u : State) => State.putEvent_rest u 0x0001 0 s.host.evLost 0
    exact ⟨(h _).1.trans (State.logEvent_ctrs _ _ _ _ _), (h _).2.2.trans (State.logEvent_now _ _ _ _ _)⟩
  · exact ⟨rfl, rfl⟩

/-- The only counter an event can change is `events_lost`. -/
theorem State.postEvent_ctr (s : State) (c h a b : Nat) {k : Nat} (ix : Nat) (hk : kpos k ix ≠ kpos kEventsLost 0) :
    (s.postEvent c h a b).ctr k ix = s.ctr k ix := by
  have hf := (s.adopt kEventCq).flushLost_rest.1
  unfold State.ctr
  unfold State.postEvent
  dsimp only
  repeat' split
  · rw [(State.putEvent_rest _ _ _ _ _).1, State.logEvent_ctrs, hf, State.adopt_ctrs]
  · unfold State.bump Tab.modify
    dsimp only
    rw [Tab.getD_put_ne _ _ hk, State.logEvent_ctrs, hf, State.adopt_ctrs]
  · dsimp only; rw [State.logEvent_ctrs, State.adopt_ctrs]
  · rw [State.logEvent_ctrs]

theorem State.logEvent_logged (s : State) (c h a b : Nat) :
    ∃ e ∈ (s.logEvent c h a b).rcv.log, e.event = c ∧ e.handle = h ∧ e.r0 = a % 2 ^ 64 ∧ e.r1 = b % 2 ^ 64 ∧ e.time = s.now := by
  unfold State.logEvent
  dsimp only
  generalize a % 2 ^ 64 = a
  generalize b % 2 ^ 64 = b
  refine ⟨{ event := c, seq := s.rcv.logSeq % 2 ^ 32, time := s.now, handle := h, r0 := a, r1 := b }, List.mem_iff_getElem?.mpr ⟨s.rcv.log.length - ((s.rcv.log.length + 1) - 4096), ?_⟩, ?_⟩
  · rw [List.getElem?_drop, List.length_append, List.length_singleton,
      show s.rcv.log.length + 1 - 4096 + (s.rcv.log.length - (s.rcv.log.length + 1 - 4096)) = s.rcv.log.length by omega,
      List.getElem?_concat_length]
  · exact ⟨rfl, rfl, rfl, rfl, rfl⟩

/-- Every event is in the event log at once, with the time it was raised at. -/
theorem State.postEvent_logged (s : State) (c h a b : Nat) :
    ∃ e ∈ (s.postEvent c h a b).rcv.log, e.event = c ∧ e.handle = h ∧ e.r0 = a % 2 ^ 64 ∧ e.r1 = b % 2 ^ 64 ∧ e.time = s.now := by
  have hn : (s.adopt kEventCq).flushLost.now = s.now := ((s.adopt kEventCq).flushLost_rest.2).trans (by unfold State.adopt; rfl)
  have key : ∀ u : State, u.now = s.now → ∀ r : Recov, r.log = (u.logEvent c h a b).rcv.log →
      ∃ e ∈ r.log, e.event = c ∧ e.handle = h ∧ e.r0 = a % 2 ^ 64 ∧ e.r1 = b % 2 ^ 64 ∧ e.time = s.now := fun u hu r hr => by
    rw [hr, ← hu]
    exact State.logEvent_logged u c h a b
  unfold State.postEvent
  dsimp only
  repeat' split
  · exact key _ hn _ (by rw [(State.putEvent_rest _ _ _ _ _).2.1])
  · exact key _ hn _ (by rw [State.bump_rcv])
  · exact key (s.adopt kEventCq) (by unfold State.adopt; rfl) _ (by with_reducible rfl)
  · exact key s rfl _ (by with_reducible rfl)

end Sys2Proof.Machine
end

