-- ==== Sys2Proof/Laws/Step.lean ====
section
/-! SUPPORT. What a step keeps: a command's effect on the state with the queue's rest, or 40 ns of time. -/

namespace Sys2Proof.Machine

/-- The clock of the state 40 ns later. -/
def State.clock40 (s : State) : State := { s with now := (s.now + 64) % 2 ^ 64 }

theorem State.tick_stopped {s : State} (h : s.runs = false) : s.tick = s := by unfold State.tick; simp [h]
theorem State.idle_stopped {s : State} (h : s.runs = false) : s.idle = s := by unfold State.idle; simp [h]

theorem State.tick_evolves {s : State} (h : s.runs = true) : Evolves s.clock40 s.tick := by
  unfold State.tick
  rw [if_pos h]
  dsimp only
  refine Evolves.trans (Evolves.upd (b := s.clock40) ?_ ?_ ?_ ?_ ?_ ?_ ?_ ?_ ?_ ?_ ?_ ?_ (Evolves.refl _))
    ((((State.runFor_evolves.trans State.runFor_evolves).trans State.runFor_evolves).trans State.runFor_evolves).trans State.runFor_evolves)
  all_goals rfl

/-- While the device runs, an idle step is 40 ns and what every operation keeps. -/
theorem State.idle_evolves {s : State} (h : s.runs = true) : Evolves s.clock40 s.idle := by
  unfold State.idle
  rw [if_pos h]
  refine Evolves.foldl _ (State.tick_evolves h) fun u l => ?_
  split
  · exact Evolves.trans State.countBlocked_evolves State.modLink_evolves
  · exact Evolves.refl u

/-- What a step with a command other than SYS_PWROK's edges keeps. -/
theorem step_evolves {c : Instr} {cs : List Instr} {s t : State} (hp : s.pending = c :: cs) (h : step s = .next t)
    (h1 : c ≠ .sysPwrokRise) (h2 : c ≠ .sysPwrokFall) : Evolves { s with pending := cs } t := by
  unfold step at h
  rw [hp] at h
  exact exec_evolves h1 h2 t h

/-- The four ways a step can go on. -/
theorem step_cases {s t : State} (h : step s = .next t) :
    (s.pending = [] ∧ s.runs = false ∧ t = s) ∨
    (s.pending = [] ∧ s.runs = true ∧ Evolves s.clock40 t) ∨
    (∃ cs, (s.pending = .sysPwrokFall :: cs ∧ s.board.pwrok = true ∧ t = { s.powerOff with pending := cs }) ∨
      (s.pending = .sysPwrokRise :: cs ∧ s.board.pwrok = false ∧ t = { s with pending := cs, board := { s.board with pwrok := true } })) ∨
    (∃ c cs, s.pending = c :: cs ∧ Evolves { s with pending := cs } t) := by
  cases hp : s.pending with
  | nil =>
    have : t = s.idle := by unfold step at h; rw [hp] at h; cases h; rfl
    cases hr : s.runs with
    | false => exact .inl ⟨rfl, rfl, this.trans (State.idle_stopped hr)⟩
    | true => exact .inr (.inl ⟨rfl, rfl, this ▸ State.idle_evolves hr⟩)
  | cons c cs =>
    have hx : exec c { s with pending := cs } = .next t := by unfold step at h; rw [hp] at h; exact h
    by_cases h2 : c = .sysPwrokFall
    · subst h2
      have hx : execSysPwrokFall { s with pending := cs } = .next t := hx
      unfold execSysPwrokFall at hx
      split at hx
      · rename_i hb; cases hx; exact .inr (.inr (.inl ⟨cs, .inl ⟨rfl, hb, rfl⟩⟩))
      · cases hx; exact .inr (.inr (.inr ⟨_, cs, rfl, Evolves.refl _⟩))
    · by_cases h1 : c = .sysPwrokRise
      · subst h1
        have hx : execSysPwrokRise { s with pending := cs } = .next t := hx
        unfold execSysPwrokRise at hx
        split at hx
        · cases hx; exact .inr (.inr (.inr ⟨_, cs, rfl, Evolves.refl _⟩))
        · rename_i hb; cases hx; exact .inr (.inr (.inl ⟨cs, .inr ⟨rfl, by simpa using hb, rfl⟩⟩))
      · exact .inr (.inr (.inr ⟨c, cs, rfl, exec_evolves h1 h2 t hx⟩))

end Sys2Proof.Machine
end

