-- ==== Sys2Proof/Machine/Flags.lean ====
section
/-! DEFINITION. What the device shows: the words of BAR0 a host reads, and the indicators (02 R41, R42, 17 R556). -/

namespace Sys2Proof.Machine

/-- `dev_status`. -/
def State.devStatus (s : State) : Nat :=
  pack [(1, b2n s.host.ready), (1, b2n s.compo.roleKnown), (1, b2n s.rcv.fatal), (1, b2n s.host.cfgError), (1, b2n s.rcv.ctlRestart),
    (1, b2n s.host.avail)]

/-- The 64-bit word a read of BAR0 at an offset returns; reserved offsets and the doorbells read zero. -/
def State.bar0Read (s : State) (off : Nat) : Nat :=
  if off = 0x00 then s.devStatus
  else if off = 0x08 then s.bundleFld 255 192
  else if off = 0x10 then s.rcv.fatalCode
  else if off = 0x18 then s.now
  else if off = 0x20 then s.host.admSqBase
  else if off = 0x28 then s.host.admCqBase
  else if off = 0x30 then s.host.admRingCfg
  else if off = 0x38 then b2n s.host.enable
  else 0

/-- Patterns of the indicators. -/
inductive Lamp where
  | off
  | green | amber
  | greenBlink | amberBlink
  | greenBlink4 | amberBlink4
  | alternating | alternating4
  deriving DecidableEq, Repr

/-- A drive's power indicator (green). -/
def State.drivePower (s : State) (d : Nat) : Lamp :=
  let x := Tab.getD {} s.drives d
  let composed : Bool := s.compo.mapped && bitAt (s.dev 327 320) d
  if !composed then .off
  else if x.training || x.windowEnd.isSome then .greenBlink
  else if x.st = .active ∨ x.st = .draining then .green
  else .off

/-- A drive's attention indicator (amber). -/
def State.driveAttention (s : State) (d : Nat) : Lamp :=
  let x := Tab.getD {} s.drives d
  match x.st with
  | .draining => .amberBlink
  | .safe => .amber
  | .failed => if x.present then .amberBlink4 else .off
  | _ => .off

/-- A port's indicator. -/
def State.portLamp (s : State) (l : Nat) : Lamp :=
  if (Tab.find? s.rcv.refusedPat l).isSome then .alternating4
  else match (Tab.getD {} s.net.links l).st with
    | .down => .off
    | .disabled => .off
    | .training => .greenBlink
    | .up => .green
    | .unmapped => .alternating
    | .draining => .amberBlink
    | .out => .amber
    | .failed => .amberBlink4

/-- The module's indicator; the fatal pattern overrides every other. -/
def State.moduleLamp (s : State) : Lamp :=
  if s.rcv.fatal then .amberBlink4
  else match s.rcv.modSt with
    | .abortWindow => .greenBlink4
    | .draining => .amberBlink
    | .safe => .amber
    | .inService =>
      if s.compo.unnumbered || (s.compo.uncommitted && s.compo.phase == .idle) then .alternating
      else if s.compo.roleKnown then .green
      else .greenBlink

end Sys2Proof.Machine
end

