-- ==== Sys2Proof/WellFormed.lean ====
section
/-! DEFINITION. Well-formed commands: every number an operand names lies in the range the spec gives it. `exec` gives ill-formed
commands no effect beyond what the spec's own checks do; well-formedness is what a sender can send. -/

namespace Sys2Proof

/-- Opcodes of each subsystem, numbered from 1 (02 R69). -/
def opcodeCounts : List Nat := [5, 3, 6, 5, 4, 3, 4, 2, 4, 4, 4, 3, 4, 7, 3, 4]

/-- 02 R69 defines the opcode. -/
def opcodeDefined (c : Nat) : Bool := 1 ≤ c % 256 && c % 256 ≤ opcodeCounts.getD (c / 256) 0

/-- A packet's header fields fit their widths (02 R55), its ring exists (02 R47), its blocks are no longer than `ext_len`
allows, and an opcode that stands in the row's place is undefined (02 R69). -/
def Pkt.wf (p : Pkt) : Bool :=
  p.sq < 64 && p.handle < 2 ^ 32 && p.extLen < 4096 && p.extAddr < 2 ^ 44 &&
    (match p.ext with | some b => b.length == 64 * p.extLen | none => true) &&
    (match p.undef with | some c => !opcodeDefined c.toNat | none => true)

/-- A link number (13 R416). -/
def linkOk (l : Nat) : Bool := l < 40

/-- A context index (03 R81). -/
def ctxOk (c : Nat) : Bool := c < 8192

/-- A partition number (10 R317). -/
def partOk (p : Nat) : Bool := p < 16

/-- A node number (00 R9). -/
def nodeOk (n : Nat) : Bool := n < 16384

/-- An engine of a core of a program context (05 R158, 06 R203). -/
def EngAt.wf (e : EngAt) : Bool := e.pc < 128 && e.core < 48 && e.eng < 9

/-- A fabric packet's header fields fit their widths (12 R379). -/
def FPkt.wf (p : FPkt) : Bool :=
  p.ptype < 16 && p.cls < 4 && p.code < 16 && nodeOk p.dst && nodeOk p.src && p.epoch < 2 ^ 16 && p.offset < 2 ^ 50 &&
    p.seq < 2 ^ 32 && p.tag < 2 ^ 16 && p.job < 4096

/-- A hinge header's fields fit their widths (00 R9, 04 R127). -/
def HHdr.wf (h : HHdr) : Bool :=
  nodeOk h.src && h.epoch < 2 ^ 16 && h.region < 2 ^ 32 && h.handle < 2 ^ 32 && h.attempt ≤ 16 && h.seq < 2 ^ 32

/-- A drive bay (11 R345). -/
def bayOk (d : Nat) : Bool := d < 8

/-- A tier of extents and an extent of it (11 R342, R346). -/
def extentOk (tier e : Nat) : Bool := (tier == 1 && e < 1179648) || (tier == 2 && e < 2 ^ 28)

/-- A button of 17 R549. -/
def Button.wf : Button → Bool
  | .port p => p < 36
  | .drive d => d < 8
  | .module => true

/-- A command a sender can send. -/
def Instr.wf : Instr → Bool
  | .nop p | .createRing p | .deleteRing p | .configGet p | .configSet p | .setPowerMode p | .getCapabilities p
  | .sampleCounters p | .admitRequest p | .cancel p | .pause p | .resume p | .queryRequest p | .releaseContext p
  | .moveState p | .fetchPrefix p | .sealPrefix p | .queryLatch p | .setMirror p | .loadImage p | .unloadImage p
  | .launchProgram p | .readCoreStats p | .loadModel p | .unloadModel p | .readAttnCounters p | .loadDelta p
  | .replaceDelta p | .unloadDelta p | .readExpanderStats p | .loadGrammar p | .unloadGrammar p | .createPartition p
  | .destroyPartition p | .bindImage p | .unbindImage p | .grantExtent p | .revokeExtent p | .setQuota p | .queryQuota p
  | .flushRange p | .acquireRange p | .publish p | .queryNode p | .portEnable p | .portDisable p | .portRetrain p
  | .portDrain p | .portRestore p | .portStatus p | .openReduce p | .collectiveClose p | .runGather p | .runFilter p
  | .setShaper p | .stageGateList p | .gateListCancel p | .readGateList p | .samplingQueue p | .samplingRing p
  | .createTable p | .destroyTable p | .insertEntry p | .updateEntry p | .deleteEntry p | .search p | .swapShadow p
  | .getEvidence p | .getCertificates p | .stageManifest p | .readEventLog p | .serviceDrain p | .fabricBoot p
  | .enterLowPower p => p.wf
  | .hostIfEnable w _ | .hostIfDisable w _ => w ≤ 8
  | .hostIfReady | .teardownComplete => true
  | .registerWrite _ off w _ => off < 65536 && w ≤ 8
  | .submissionDoorbell n w _ | .completionDoorbell n w _ => n < 64 && w ≤ 8
  | .outputDoorbell n w _ => n < 256 && w ≤ 8
  | .bar2Access wr off len data => off + len ≤ 2 ^ 36 && len ≤ 4096 && (!wr || data.length == len)
  | .hostLinkDown | .hotReset | .d3hotEntry | .commandTimeout _ => true
  | .irqDelayExpiry out n => if out then n < 256 else n < 64
  | .heldTokenWrite c => ctxOk c
  | .powerWindow m => m.dieTemp.length ≤ 16 && m.stackTemp.length ≤ 24
  | .pmbusPoll r _ _ => r < 10
  | .pmbAlert st sense => st.length ≤ 10 && sense.length ≤ 10
  | .timingMonitorReport _ _ => true
  | .dieOvertempTrip d _ => d < 16
  | .prochotAssert | .prochotDeassert | .sysPwrokRise | .sysPwrokFall | .stage1Start | .firmwareImagesChecked => true
  | .hbmTrainingComplete failed => failed.all (· < 24)
  | .subtreeGenerated | .flashReq | .flashRelease => true
  | .buttonPress b | .abortWindowExpiry b => b.wf
  | .drivePresenceChange d _ _ | .driveFailure d | .driveDrainComplete d => bayOk d
  | .driveIoComplete _ _ _ | .tierTimeout _ => true
  | .linkTrained l | .replayTimerExpiry l | .retrainComplete l | .retrainTimeout l | .portDrainEnd l | .packetStart l
  | .gateEntryAdvance l | .gateAdopt l | .peerDetected l => linkOk l
  | .ident l m => linkOk l && m.uid < 2 ^ 64 && nodeOk m.node && m.epoch < 2 ^ 16 && m.link < 40
  | .flitReceive l f _ => linkOk l && f.body.length == 80 && f.seq < 4096
  | .laneSignalLoss l lane => linkOk l && lane < 4
  | .shaperRefill l q => linkOk l && q < 25
  | .packetForward l p | .read l p | .write l p | .atomic l p | .readData l p | .ack l p | .nack l p | .atomicData l p
  | .pendingRsp l p | .publishPacket l p | .publishResp l p | .versionRead l p | .versionData l p => linkOk l && p.wf
  | .fabricTxnTimeout t => t < 2 ^ 16
  | .twinInvalidate a => a < 2 ^ 64
  | .collLineTimeout e s _ => e < 4 && s < 16
  | .regionOpening h .. => h.wf
  | .openingResponse h .. => h.wf
  | .prepare h .. => h.wf
  | .ready h _ | .commit h _ | .refuse h _ | .abandon h _ => h.wf
  | .commitAck h | .abandonAck h | .withdraw h | .sourceQuery h _ => h.wf
  | .redirect h n _ => h.wf && nodeOk n
  | .moveStateBoundExpiry _ => true
  | .prefixLookup c | .prefixFetchComplete c _ _ | .layerPushStart c _ | .deadlinePass c | .demotionCommit c
  | .recallCommit c | .recallTimeout c | .ctxRetainExpiry c => ctxOk c
  | .workItemWrite pc k _ _ _ => pc < 128 && 1 ≤ k && k ≤ 3
  | .prefillLayerDone pc => pc < 128
  | .stepCommit p => partOk p
  | .demoteCheck | .fwdRecordCheck | .mirrorScrub _ | .twinLinkFail | .twinLinkReturn _ => true
  | .extentDrainEnd t e | .extentDrainTimeout t e | .scrubComplete t e => extentOk t e
  | .descNop e _ | .set e _ | .add e _ | .mul e _ | .ldreg e _ | .loop e _ | .halt e _ | .load e _ | .gather e _
  | .store e _ | .scatter e _ | .descAtomic e _ | .matmul e _ | .vopAdd e _ | .vopSub e _ | .vopMul e _ | .vopFma e _
  | .vopMax e _ | .vopMin e _ | .cmpgt e _ | .select e _ | .convert e _ | .exp e _ | .recip e _ | .rsqrt e _
  | .rowsum e _ | .rowmax e _ | .drain e _ | .ward e _ | .engineQueueTimeout e => e.wf
  | .sliceEnd p _ | .yieldRequest p _ | .contextStopped p _ | .preemptBoundExpiry p _ | .saveComplete p _
  | .restoreComplete p _ => partOk p
  | .tumblerIdleCycle d => d < 2
  | .insertTimeout _ | .cascadeToken _ _ | .cascadeTimeout _ | .cascadeProbeTimer => true
  | .boot l .. | .claim l .. | .sliceTable l .. | .propose l .. | .agreeAck l .. | .mapCommit l .. | .heartbeat l ..
  | .probe l .. | .probeAnswer l .. | .nodeDown l .. => linkOk l
  | .linkPhaseEnd | .floodQuietExpiry | .agreeTimeout | .heartbeatTimer => true
  | .probeInterval n => nodeOk n
  | .jobFault s j .. => nodeOk s && j < 4096
  | .teardown j .. => j < 4096
  | .dieHeartbeatTimeout d => d < 16
  | .ctlWatchdogExpiry c => c < 32
  | .controlRestartComplete bc bl => bc.all ctxOk && bl.all (· < 16384)
  | .moduleDrainTimeout => true
  | .spdmRequest .. | .vendorDefinedRequest .. => true
  | .entdaa a => 8 ≤ a && a ≤ 0x7D
  | .rstdaa | .objectCopyComplete _ _ => true
  | .driveTrained d _ => bayOk d
  | .i3cBusReset | .mctpControlMessage _ | .flashWriteComplete | .selfRefreshExit => true
  | .drainRefusedPatternEnd p => p < 36

end Sys2Proof
end

