-- ==== Sys2Proof/Tests/Slice0.lean ====
section
/-! SUPPORT. Own tests. A theorem `witness_<Obligation>` shows, for the clauses of that obligation, a concrete state and operands that meet
their hypotheses; each pair's text says which clause. Not witnessed are the clauses of ColdBootEventsAct under which a bundle's signature
holds and of ServiceCommandsComplete under which a manifest verifies against an enrolled owner: the digests and keys are opaque constants of
Config, and no signature under them can be written down. A theorem `test_<what>` has its expected values from the spec's worked
examples and tables, from published known answers, or by hand. -/

namespace Sys2Proof.Tests

open Sys2Proof.Machine

-- One theorem after another: the kernel evaluations are not run side by side.
set_option Elab.async false

/-! ## Small states -/

/-- A number with values at bit places. -/
def at_ (fs : List (Nat × Nat)) : Nat := fs.foldl (fun n f => n + f.2 * 2 ^ f.1) 0

/-- A packet: inline values at bit places, handle, extended block, host data. -/
def pk (fs : List (Nat × Nat)) (h : Nat := 0) (ext data : List Byte := []) : Pkt :=
  { handle := h, inl := BitVec.ofNat 384 (at_ fs), extLen := ext.length / 64, extAddr := if ext.isEmpty then 0 else 4096, ext := some ext,
    data := some data }

/-- Handle of a context of generation 1. -/
def h1 (i : Nat) : Nat := i + 65536

/-- Bytes of a memory, zeros left out. -/
def memAt (a : Nat) (bs : List Byte) : Mem := (bs.zipIdx.filter fun x => x.1 != 0).map fun x => (a + x.2, x.1)

/-- A manifest body: this device (unique ID 7, node 5, prompt, debug off, twin node 6, slices 0 to 3 of job 9), node 6 and job 9 of tenant 1. -/
def mfBody : List Byte :=
  toLE 256 (at_ [(96, 3), (128, 2), (144, 1)]) ++
  toLE 64 (at_ [(0, 7), (64, 5), (80, 15), (85, 1), (88, 6), (108, 2), (128, 9), (140, 9), (152, 9), (164, 9), (320, 3), (328, 1), (332, 1)]) ++
  toLE 64 (at_ [(0, 8), (64, 6), (78, 1), (80, 15), (85, 1), (88, 5), (104, 1), (108, 2), (128, 9)]) ++
  toLE 16 (at_ [(0, 9), (16, 1), (32, 1)])

/-- A model's header: 4 layers, a latent of 64 elements, vocabulary 100, sequences up to 4096. -/
def mdlHead : List Byte := toLE 40 (at_ [(128, 4), (144, 64), (176, 64), (192, 8), (208, 100), (232, 4096)])

/-- An image's header: one prefill program of one core. -/
def imgHead : List Byte := toLE 64 (at_ [(0, 0x474D4956), (97, 1), (160, 1), (168, 4), (256, 256)])

/-- A powered device, its firmware running, the host interface ready and one command in ring 0; in a map of the two nodes 5 and 6. -/
def b0 : State :=
  { now := 1000000000
    host := { avail := true, enable := true, ready := true
              sq := [(0, { st := .active, log2 := 6, tail := 1, weight := 1 })]
              cq := [(0, { st := .active, base := 4096, log2 := 6, thr := 1 })]
              oq := [(3, { st := .active, base := 8192, log2 := 8, thr := 1 })] }
    idn := { uid := 7, fwAt := 0x40000000, boot := .running, hbmUp := true, signing := true, thermo := 1 }
    quota := [(4, 100000), (5, 100000), (6, 100000)]
    hbm := memAt (2000 * extBytes) mdlHead ++ memAt (2001 * extBytes) imgHead
    t1Res := [(512, 64)]
    t1x := [(1000, { st := .granted, who := .host }), (1001, { st := .granted, who := .tenant 1 }), (2000, { st := .object }), (2001, { st := .object })]
    models := [(1, { id := 1, tenant := 1, size := 4096, first := 2000 })]
    images := [(1, { id := 1, tenant := 1, size := 4096, first := 2001 })]
    fab := { nodes := [(6, { live := .alive, role := 1, uid := 8 }), (7, { live := .dead, role := 1, uid := 9 })] }
    compo := { roleKnown := true, node := 5, epoch := 1, mapped := true, inForce := some { body := mfBody } } }

/-- The packet is taken, every check of its command passes, and the condition holds of it and the state it is performed on. -/
def took (r : CmdRow) (p : Pkt) (s : State) (cond : Pkt → State → Bool := fun _ _ => true) : Bool :=
  decide (Accepted r p s) && cond p (s.taken r p)

/-- Contexts in every state: 0 ADMITTED, 1 PREFILL with no layer running, 2 PREFILL with one running, 3 HANDOFF, 4 DECODE in a partition
between steps, 5 DECODE in one whose step runs, 6 PAUSED by the host, 7 PAUSED otherwise, 8 DRAINING, 9 DONE, 10 ENDED, 11 PAUSED by the host
with its region demoted. -/
def b1 : State :=
  { b0 with
    ctxs := [(0, { st := .admitted, model := 1, promptLen := 4 }), (1, { st := .prefill, model := 1, promptLen := 4 }),
             (2, { st := .prefill, model := 1, promptLen := 4 }), (3, { st := .handoff, model := 1, promptLen := 4 }),
             (4, { st := .decode, model := 1, region := 104, partition := 0, placed := true }),
             (5, { st := .decode, model := 1, partition := 1, placed := true }),
             (6, { st := .paused, pauseHost := true, model := 1 }), (7, { st := .paused, pauseParked := true, model := 1 }),
             (8, { st := .draining }), (9, { st := .done }), (10, { st := .ended, endStatus := 3 }),
             (11, { st := .paused, pauseHost := true, demoted := true, model := 1, region := 111 })]
    latches := [(0, { st := .home, homeNode := 5, handle := h1 0, stamp := 1 }), (4, { st := .home, homeNode := 5, handle := h1 4, stamp := 1, channel := 4 }),
                (6, { st := .home, homeNode := 5, handle := h1 6, stamp := 1, channel := 6 }),
                (11, { st := .home, homeNode := 5, handle := h1 11, stamp := 1, channel := 11, region := 111 })]
    regions := [(104, { id := 104, ctx := 4, first := 3000, count := 1, bytes := 1024 }),
                (111, { id := 111, ctx := 11, first := 0, count := 1, bytes := 1024, hasRun := false, demoted := [(70, 1)] })]
    parts := [(0, { st := .active, model := 1, job := 9, pMask := 7, dMask := 7 }), (1, { st := .active, model := 1, job := 9, stepAt := some 5, batch := [5] }),
              (2, { st := .active, job := 9, images := [1], pMask := 56 })]
    pcs := [(3, { live := true, image := 1, serving := true, items := [{ kind := 1, seqs := [2] }] }), (16, { live := true, image := 1, serving := true, place := .onCores })] }
/-- All of T1 but extent 3000 reserved: a run has one place. -/
def tight (s : State) : State := { s with t1Map := [(0, 3000), (3001, 1176647)] }

/-- Objects to unload, a prefix index table, a twin, a drive with one extent, a mirrored latch. -/
def b2 : State :=
  { b1 with
    images := [(1, { id := 1, tenant := 1, size := 4096, first := 2001 }), (2, { id := 2, tenant := 1, size := 4096, first := 2002 })]
    models := [(1, { id := 1, tenant := 1, size := 4096, first := 2000 }), (2, { id := 2, tenant := 1, size := 4096, first := 2003 })]
    deltas := [(1, { id := 1, tenant := 1, model := 1, current := 1, vers := [{ ver := 1, size := 4096, first := 2004 }] })]
    grammars := [(1, { id := 1, tenant := 1, size := 4096, first := 2005 })]
    t1x := b0.t1x ++ [(2002, { st := .object }), (2003, { st := .object }), (2004, { st := .object }), (2005, { st := .object })]
    drives := [(0, { st := .active, present := true, capacity := 1, extents := 1 })]
    tum := { tables := [(0, { active := true, width := 1, depth := 32 }), (2, { active := true, width := 2, depth := 32, cascade := true, shadow := true })] } }
/-- Links, transactions, a job's extents, collective sessions. -/
def b3 : State :=
  { b1 with
    t1x := b0.t1x ++ [(2000, { st := .object }), (2001, { st := .object }), (4000, { st := .granted, who := .job 1 9 }), (4001, { st := .granted, who := .job 1 9 })]
    fab := { nodes := [(5, { live := .alive }), (6, { live := .alive, role := 1, uid := 8, route := [0, 5] }), (7, { live := .dead, role := 1, uid := 9 })]
             txns := [{ tag := 1, pkt := { ptype := 2, dst := 6, src := 5, offset := 1000 * extBytes }, who := .nobody }] }
    net := { links := [(0, { st := .up }), (1, { st := .disabled }), (2, { st := .out }), (3, { st := .unmapped }), (4, { st := .up }), (5, { st := .up })]
             sess := [(1, { st := .open_, job := 9 })] } }

/-! ## Witnesses -/

/-- Every condition of a list holds. -/
def allHold (l : List (String × Bool)) : Bool := l.all (·.2)

def ctl (r : CmdRow) (i : Nat) (c : Nat → State → Bool) : Bool := took r (pk [] (h1 i)) b1 fun p u => u.ctxNamed p.handle == some i && c i u
def rst (c : Nat) (p : Pkt) (u : State) : Bool := u.ringSt (p.f 1 0) (p.f 15 8) == .absent || p.f 1 0 == c
theorem witness_HostInterfaceCommandsComplete : allHold [
 ("NOP", took rowNop (pk []) b1),
 ("a submission ring", took rowCreateRing (pk [(0, 0), (8, 1), (16, 6), (40, 1), (64, 4096)]) b1),
 ("a completion ring", took rowCreateRing (pk [(0, 1), (8, 63), (16, 16), (64, 8192), (128, 1)]) b1),
 ("an output ring", took rowCreateRing (pk [(0, 2), (8, 1), (16, 20), (64, 8192), (128, 1)]) b1),
 ("delete an absent ring", took rowDeleteRing (pk [(0, 0), (8, 5)]) b1 fun p u => u.ringSt (p.f 1 0) (p.f 15 8) = .absent),
 ("delete a submission ring", took rowDeleteRing (pk [(0, 0), (8, 5)]) (b1.setSq 5 { st := .active, log2 := 6 }) fun p u =>
    u.ringSt (p.f 1 0) (p.f 15 8) ≠ .absent ∧ p.f 1 0 = 0),
 ("delete an output ring", took rowDeleteRing (pk [(0, 2), (8, 3)]) b1 fun p u => u.ringSt (p.f 1 0) (p.f 15 8) ≠ .absent ∧ p.f 1 0 ≠ 0),
 ("CONFIG_GET", took rowConfigGet (pk [(0, kMaxInflight)]) b1 fun p _ => (keyRow? (p.f 31 0)).isSome),
 ("CONFIG_SET of the same value", took rowConfigSet (pk [(0, kMaxInflight), (64, 256)]) b1 fun p u =>
    (keyRow? (p.f 31 0)).any fun k => u.keyValue k (p.f 63 32) == p.f 127 64),
 ("CONFIG_SET", took rowConfigSet (pk [(0, kMaxInflight), (64, 8)]) b1 fun p u =>
    (keyRow? (p.f 31 0)).any fun k => u.keyValue k (p.f 63 32) != p.f 127 64)] = true := by decide +kernel

theorem witness_PowerCommandsComplete : allHold [
 ("the mode in force", took rowSetPowerMode (pk [(0, 1)]) { b1 with pow := { b1.pow with mode := 1 } } fun p u => p.f 7 0 = u.pow.mode),
 ("another mode", took rowSetPowerMode (pk [(0, 1)]) { b1 with pow := { b1.pow with mode := 0 } } fun p u => p.f 7 0 ≠ u.pow.mode),
 ("GET_CAPABILITIES", took rowGetCapabilities (pk [(64, 4096), (128, 4096), (16, 1)]) b1),
 ("SAMPLE_COUNTERS", took rowSampleCounters (pk [(0, 1), (128, 4096), (192, 64)]) b1),
 ("the level in force", took rowEnterLowPower (pk [(0, 0)]) b1 fun p u => p.f 1 0 = u.pow.level),
 ("out of self-refresh", took rowEnterLowPower (pk [(0, 0)]) { b0 with pow := { b0.pow with level := 2 } } fun p u =>
    p.f 1 0 ≠ u.pow.level ∧ ((u.pow.level = 2 ∧ p.f 1 0 < 2) ∨ (p.f 1 0 = 3 ∧ u.idn.flashBusy = true))),
 ("down one level", took rowEnterLowPower (pk [(0, 1)]) b0 fun p u =>
    p.f 1 0 ≠ u.pow.level ∧ ¬((u.pow.level = 2 ∧ p.f 1 0 < 2) ∨ (p.f 1 0 = 3 ∧ u.idn.flashBusy = true)))] = true := by decide +kernel

def tk (i : Nat) (n : Nat) : List Byte := (List.range n).flatMap fun k => toLE 4 ((i + k) % 100)
def ab : List Byte := toLE 64 (at_ [(0, 4096), (128, 0x3F800000), (160, 0x3F800000), (224, 1)]) ++ toLE 64 0
def admP : Pkt := pk [(0, 1), (32, 1), (128, 4), (160, 5), (192, 6), (208, 3), (224, 1000), (256, 1000)] 0 ab (tk 1 4)
def resumed (i : Nat) (u : State) : State := (u.modCtx i fun c => { c with pauseHost := false }).tryDecode i
def recalls (c : Ctx) : Bool := c.recalling && !c.pauseSched && !c.pauseParked
theorem witness_RequestCommandsComplete : allHold [
 ("ADMIT_REQUEST", took rowAdmitRequest admP (tight b1) fun p u => match u.freeCtx, u.takeLatch with
   | some i, some (_, v) =>
     ((v.setCtx i (admitCtx p u (u.ctx i).gen)).takeWorkset i
       (u.workset (admitCtx p u (u.ctx i).gen).model (admitCtx p u (u.ctx i).gen).promptLen)).isSome
   | _, _ => false),
 ("CANCEL while a layer runs", ctl rowCancel 2 fun i u => (u.ctx i).st == .prefill && u.layerRunning i),
 ("CANCEL in DRAINING", ctl rowCancel 8 fun i u => (u.ctx i).st == .draining),
 ("CANCEL in DONE", ctl rowCancel 9 fun i u => (u.ctx i).st == .done),
 ("CANCEL in ENDED", ctl rowCancel 10 fun i u => (u.ctx i).st == .ended),
 ("CANCEL in ADMITTED", ctl rowCancel 0 fun i u => (u.ctx i).st == .admitted),
 ("CANCEL in PREFILL", ctl rowCancel 1 fun i u => (u.ctx i).st == .prefill && !u.layerRunning i),
 ("CANCEL in HANDOFF", ctl rowCancel 3 fun i u => (u.ctx i).st == .handoff),
 ("CANCEL in DECODE", ctl rowCancel 5 fun i u => (u.ctx i).st == .decode),
 ("CANCEL in PAUSED", ctl rowCancel 6 fun i u => (u.ctx i).st == .paused),
 ("PAUSE twice", ctl rowPause 6 fun i u => (u.ctx i).st == .paused && (u.ctx i).pauseHost),
 ("PAUSE of a parked one", ctl rowPause 7 fun i u => (u.ctx i).st == .paused && !(u.ctx i).pauseHost),
 ("PAUSE in a step", ctl rowPause 5 fun i u => (u.ctx i).st == .decode && (u.part (u.ctx i).partition).stepAt.isSome),
 ("PAUSE between steps", ctl rowPause 4 fun i u => (u.ctx i).st == .decode && (u.part (u.ctx i).partition).stepAt == none),
 ("RESUME of a demoted one", took rowResume (pk [] (h1 11)) (tight b1) fun p u => u.ctxNamed p.handle == some 11 &&
     recalls ((resumed 11 u).ctx 11)),
 ("RESUME", ctl rowResume 6 fun i u => !recalls ((resumed i u).ctx i)),
 ("QUERY_REQUEST", took rowQueryRequest (pk [(0, 4096), (64, 256)] (h1 4)) b1 fun p u => u.ctxNamed p.handle = some 4),
 ("RELEASE_CONTEXT", ctl rowReleaseContext 9 fun _ _ => true)] = true := by decide +kernel

def sealS : State := { tight b2 with ctxs := [(4, { st := .decode, model := 1, region := 104, position := 65, tenant := 1 })] }
def mirS (n : Nat) : State :=
  { b1 with latches := [(4, { st := .home, homeNode := 5, handle := h1 4, stamp := 1, channel := 4, mirrored := true, primary := true, twinNode := n })] }
def twinDead (d : Bool) (p : Pkt) (u : State) : Bool :=
  u.ctxNamed p.handle == some 4 && !p.b 0 && match u.latchOf (u.handleFor 4) with
    | some k => (u.adopt kMoveTimeout).dead ((u.adopt kMoveTimeout).latch k).twinNode == d
    | none => false
theorem witness_HingeCommandsComplete : allHold [
 ("MOVE_STATE", took rowMoveState (pk [(0, h1 0), (32, 6), (48, 3)]) b1),
 ("FETCH_PREFIX", took rowFetchPrefix (pk [(0, 6 * 2 ^ 18 + 1), (32, 1)]) b1),
 ("SEAL_PREFIX", took rowSealPrefix (pk [(0, 1), (64, 4096)] (h1 4) [] (tk 0 64)) sealS fun p u =>
    let v := u.adopt kPrefixTable
    u.ctxNamed p.handle = some 4 ∧ v.freePrefixId.isSome ∧
      ((v.reclaimFor (u.ctx 4).tenant (sealExts p v (u.ctx 4))).findRun (sealExts p v (u.ctx 4))).1 = some 3000),
 ("QUERY_LATCH", took rowQueryLatch (pk [(64, 4096), (128, 64)] (h1 4)) b1 fun p u => (latchAsked p u).isSome),
 ("SET_MIRROR off", took rowSetMirror (pk [(0, 0)] (h1 4)) (mirS 6) (twinDead false)),
 ("SET_MIRROR off, the twin dead", took rowSetMirror (pk [(0, 0)] (h1 4)) (mirS 7) (twinDead true)),
 ("SET_MIRROR on", took rowSetMirror (pk [(0, 1)] (h1 4)) b1 fun p u =>
    u.ctxNamed p.handle = some 4 ∧ (u.latchOf (u.handleFor 4)).isSome ∧ p.b 0 = true)] = true := by decide +kernel

def src := 1000 * extBytes
theorem witness_ObjectCommandsComplete : allHold [
 ("LOAD_IMAGE", took rowLoadImage (pk [(0, src), (64, 4096), (96, 1)]) b2),
     ("LOAD_MODEL", took rowLoadModel (pk [(0, src), (64, 4096), (128, 1)]) b2),
 ("LOAD_DELTA", took rowLoadDelta (pk [(0, src), (64, 4096), (128, 1), (160, 1)]) b2),
 ("REPLACE_DELTA", took rowReplaceDelta (pk [(0, src), (64, 4096)] 1) b2),
 ("LOAD_GRAMMAR", took rowLoadGrammar (pk [(0, src), (64, 4096), (128, 1)]) b2),
 ("UNLOAD_IMAGE", took rowUnloadImage (pk [] 2) b2 fun p u => (Tab.find? u.images p.handle).isSome),
 ("UNLOAD_MODEL", took rowUnloadModel (pk [] 2) b2 fun p u => (Tab.find? u.models p.handle).isSome),
 ("UNLOAD_DELTA", took rowUnloadDelta (pk [] 1) b2 fun p u => (Tab.find? u.deltas p.handle).isSome),
 ("UNLOAD_GRAMMAR", took rowUnloadGrammar (pk [] 1) b2 fun p u => (Tab.find? u.grammars p.handle).isSome)] = true := by decide +kernel

theorem witness_ProgramCommandsComplete : allHold [
 ("LAUNCH_PROGRAM", took rowLaunchProgram (pk [(0, 2)] 1 (toLE 128 0)) b2 fun p u => (u.freeSlot (p.f 3 0)).isSome),
 ("READ_CORE_STATS", took rowReadCoreStats (pk [(8, 0), (16, 1), (64, 4096), (128, 128)]) b2),
 ("READ_ATTN_COUNTERS", took rowReadAttnCounters (pk [(0, 4096), (64, 1024)]) b2),
 ("READ_EXPANDER_STATS", took rowReadExpanderStats (pk [(16, 1), (64, 4096), (128, 384)]) b2)] = true := by decide +kernel

def ub (more : Bool) (p : Pkt) (u : State) : Bool :=
  let v := (u.modPart (p.f 3 0) fun x => { x with images := NSet.del x.images p.handle }).recompute (p.f 3 0)
  let w := ((v.pcsOf (p.f 3 0)).filter fun id => (v.pc id).image == p.handle).foldl State.cancelProg v
  (u.part (p.f 3 0)).images.contains p.handle && (((w.pcsOf (p.f 3 0)).any fun id => (w.pc id).image == p.handle) == more)
def dp (left : Bool) (p : Pkt) (u : State) : Bool :=
  let v := u.modPart (p.f 3 0) fun x => { x with st := .destroying }
  (u.part (p.f 3 0)).st != .absent && ((v.pcsOf (p.f 3 0)).foldl State.cancelProg v).pcsOf (p.f 3 0) != [] == left
theorem witness_PartitionCommandsComplete : allHold [
 ("CREATE_PARTITION", took rowCreatePartition (pk [(0, 3), (8, 9), (64, 512), (160, 500), (176, 500)]) b2),
 ("DESTROY_PARTITION, absent", took rowDestroyPartition (pk [(0, 9)]) b2 fun p u => (u.part (p.f 3 0)).st = .absent),
 ("DESTROY_PARTITION, empty", took rowDestroyPartition (pk [(0, 3)]) { b2 with parts := [(3, { st := .active })] } (dp false)),
 ("DESTROY_PARTITION", took rowDestroyPartition (pk [(0, 2)]) b2 (dp true)),
 ("BIND_IMAGE, bound", took rowBindImage (pk [(0, 2)] 1) b2 fun p u => (u.part (p.f 3 0)).images.contains p.handle),
 ("BIND_IMAGE", took rowBindImage (pk [(0, 2)] 2) b2 fun p u => !(u.part (p.f 3 0)).images.contains p.handle),
 ("UNBIND_IMAGE, not bound", took rowUnbindImage (pk [(0, 2)] 2) b2 fun p u => !(u.part (p.f 3 0)).images.contains p.handle),
 ("UNBIND_IMAGE, running", took rowUnbindImage (pk [(0, 2)] 1) b2 (ub true)),
 ("UNBIND_IMAGE", took rowUnbindImage (pk [(0, 2)] 1) { b2 with pcs := [] } (ub false))] = true := by decide +kernel

theorem witness_TierCommandsComplete : allHold [
 ("an extent of T1 for the host", took rowGrantExtent (pk [(0, 1), (48, 1)]) (tight b2) fun p u =>
    p.f 1 0 = 1 ∧ grantee p = .host ∧ ((u.adopt kHostT1).findRun (p.f 63 48) (grantHint p)).1 = some 3000),
 ("an extent of T1 for a tenant", took rowGrantExtent (pk [(0, 1), (2, 1), (16, 1), (48, 1)]) (tight b2) fun p u =>
    p.f 1 0 = 1 ∧ grantee p ≠ .host ∧ ((u.reclaimFor (p.f 25 16) (p.f 63 48)).findRun (p.f 63 48) (grantHint p)).1 = some 3000),
 ("an extent of T2", took rowGrantExtent (pk [(0, 2), (2, 1), (16, 1), (48, 1), (64, 1001 * extBytes)]) b2 fun p u =>
    p.f 1 0 ≠ 1 ∧ u.grantBay (p.f 63 48) = some 0 ∧ runPlace (p.f 63 48) (u.t2Gaps 0) (u.choose (runPlaces (u.t2Gaps 0) (p.f 63 48))).1 = some 0),
 ("nothing to revoke", took rowRevokeExtent (pk [(0, 1), (16, 1), (64, 5000 * extBytes)]) b2 fun p u => u.revocable p = []),
 ("REVOKE_EXTENT", took rowRevokeExtent (pk [(0, 1), (16, 2), (64, 1000 * extBytes)]) b2 fun p u => u.revocable p ≠ []),
 ("the same quota", took rowSetQuota (pk [(0, 1), (16, 1), (32, 100000)]) b2 fun p u => u.quotaOf (p.f 9 0) (p.f 17 16) = p.f 63 32),
 ("another quota", took rowSetQuota (pk [(0, 1), (16, 1), (32, 1179648)]) b2 fun p u => u.quotaOf (p.f 9 0) (p.f 17 16) ≠ p.f 63 32),
 ("QUERY_QUOTA", took rowQueryQuota (pk [(0, 1023), (16, 2)]) b2)] = true := by decide +kernel

theorem witness_FabricCommandsComplete : allHold [
 ("FLUSH_RANGE, no write outstanding", took rowFlushRange (pk [(0,6),(128,128)]) b3 (fun p u => u.writesTo (p.f 13 0) (p.f 127 64) (p.f 191 128) = [])),
 ("FLUSH_RANGE", took rowFlushRange (pk [(0,6),(64,1000*extBytes),(128,128)]) b3 (fun p u => u.writesTo (p.f 13 0) (p.f 127 64) (p.f 191 128) ≠ [])),
 ("ACQUIRE_RANGE with a version from another node", took rowAcquireRange (pk [(0,6),(16,9),(28,1),(128,128)]) b3 (fun p u => p.b 28 = true ∧
     p.f 13 0 ≠ u.self)),
 ("ACQUIRE_RANGE", took rowAcquireRange (pk [(0,6),(128,128)]) b3 (fun p u => p.b 28 = false ∨ p.f 13 0 = u.self)),
 ("PUBLISH here", took rowPublish (pk [(0,5),(28,1),(48,1),(64,1000*extBytes)]) b3 (fun p u => u.writesTo (p.f 13 0) (p.f 127 64) (p.f 63 48 * extBytes) = [] ∧ p.f 13 0 = u.self)),
 ("PUBLISH at another node", took rowPublish (pk [(0,6),(16,9),(48,1)]) b3 (fun p u => u.writesTo (p.f 13 0) (p.f 127 64) (p.f 63 48 * extBytes) = [] ∧ p.f 13 0 ≠ u.self ∧ u.dead (p.f 13 0) = false)),
 ("PUBLISH behind a write", took rowPublish (pk [(0,6),(16,9),(48,1),(64,1000*extBytes)]) b3 (fun p u => u.writesTo (p.f 13 0) (p.f 127 64) (p.f 63 48 * extBytes) ≠ [])),
 ("QUERY_NODE", took rowQueryNode (pk [(0,6)]) b3)] = true := by decide +kernel

theorem witness_PortCommandsComplete : allHold [
 ("ENABLE", took rowPortEnable (pk [(0,1)]) b3 (fun _ u => (u.link 1).st = .disabled)),
 ("ENABLE of an UP port", took rowPortEnable (pk [(0,0)]) b3 (fun _ u => (u.link 0).st = .up)),
 ("DISABLE", took rowPortDisable (pk [(0,0),(8,1),(11,1)]) b3 (fun _ u => (u.link 0).st ≠ .disabled)),
 ("DISABLE of a DISABLED port", took rowPortDisable (pk [(0,1),(8,1)]) b3 (fun _ u => (u.link 1).st = .disabled)),
 ("RETRAIN", took rowPortRetrain (pk [(0,2),(8,2)]) b3),
 ("DRAIN", took rowPortDrain (pk [(0,0),(8,3),(11,1)]) b3 (fun _ u => (u.link 0).st ≠ .out)),
 ("DRAIN of an OUT port", took rowPortDrain (pk [(0,2),(8,3)]) b3 (fun _ u => (u.link 2).st = .out)),
 ("RESTORE", took rowPortRestore (pk [(0,2),(8,4)]) b3),
 ("PORT_STATUS", took rowPortStatus (pk [(0,0),(8,40),(64,4096),(128,4096)]) b3)] = true := by decide +kernel

def orX : List Byte := toLE 256 (at_ [(0, 4000*extBytes),(64,16),(112,2),(576,5),(592,6)])
def rgX : List Byte := toLE 256 (at_ [(192,5*2^50+4000*extBytes),(256,128),(320,2),(448,5*2^50+4001*extBytes)])
def rfX : List Byte := toLE 256 (at_ [(192,5*2^50+4000*extBytes),(256,128),(320,2),(448,5*2^50+4001*extBytes)])
theorem witness_CollectiveCommandsComplete : allHold [
 ("OPEN_REDUCE", took rowOpenReduce (pk [(16,9),(8,2)] 0 orX) b3),
     ("CLOSE of a FREE session", took rowCollectiveClose (pk [(0,1),(16,9),(8,0)]) b3 (fun p u => (u.sess (collKey p)).st = .free)),
 ("CLOSE", took rowCollectiveClose (pk [(0,1),(16,9),(8,1)]) b3 (fun p u => (u.sess (collKey p)).st ≠ .free)),
 ("RUN_GATHER", took rowRunGather (pk [(0,2),(16,9),(8,2)] 0 rgX) b3),
     ("RUN_FILTER", took rowRunFilter (pk [(0,3),(16,9),(8,2)] 0 rfX) b3)] = true := by decide +kernel

def shOn : Queue := { sh := { on := true, rate := 1000, depth := 512, interval := 256, tokens := 512 }, smpOn := true, smpLog2 := 3 }
def b4 : State := { b3 with net := { links := [(0, { st := .up, queues := [(1, shOn)], staged := some { entries := [(0x1000001, 5)], adoptAt := 2 ^ 60 } })] } }
def shP (rate : Nat) : Pkt := pk [(0,0),(8,1),(16,1),(32,rate),(64,8),(96,256)]
def shq (p : Pkt) (u : State) : Shaper := ((u.link (p.f 5 0)).queue (p.f 12 8)).sh
theorem witness_TrafficCommandsComplete : allHold [
 ("SET_SHAPER, first", took rowSetShaper (pk [(8,2),(16,1),(32,100000),(64,262144),(96,65536)]) b4 (fun p u => p.b 16 = true ∧
     (shq p u).on = false)),
 ("SET_SHAPER, the same", took rowSetShaper (shP 1000) b4 (fun p u => p.b 16 = true ∧ (shq p u).on = true ∧
     (shq p u).wanted = (p.f 63 32, 64 * p.f 82 64, p.f 112 96))),
 ("SET_SHAPER, a change", took rowSetShaper (shP 0) b4 (fun p u => p.b 16 = true ∧ (shq p u).on = true ∧
     (shq p u).wanted ≠ (p.f 63 32, 64 * p.f 82 64, p.f 112 96))),
 ("SET_SHAPER off", took rowSetShaper (pk [(8,1)]) b4 (fun p u => p.b 16 = false ∧ (shq p u).on = true)),
 ("SET_SHAPER off twice", took rowSetShaper (pk [(8,24)]) b4 (fun p u => p.b 16 = false ∧ (shq p u).on = false)),
 ("STAGE_GATE_LIST", took rowStageGateList (pk [(0,39),(16,1),(64,2^60)] 0 (toLE 64 (at_ [(0,0x1000000),(32,1)]))) b4),
 ("cancel a staged list", took rowGateListCancel (pk [(0,0),(8,1)]) b4 (fun p u => ((u.dueGate (p.f 5 0)).link (p.f 5 0)).staged ≠ none)),
 ("cancel with none staged", took rowGateListCancel (pk [(0,1),(8,1)]) b4 (fun p u => ((u.dueGate (p.f 5 0)).link (p.f 5 0)).staged = none)),
 ("READ_GATE_LIST", took rowReadGateList (pk [(64,4096),(128,2112)]) b4),
 ("SET_SAMPLING, the same", took rowSamplingQueue (pk [(8,0),(16,1),(21,1),(24,3)]) b4 (fun p u => let q := (u.link (p.f 13 8)).queue (p.f 20 16); q.smpOn = p.b 21 ∧ q.smpLog2 = p.f 28 24 ∧ p.b 22 = false)),
 ("SET_SAMPLING", took rowSamplingQueue (pk [(8,0),(16,1),(21,1),(24,20)]) b4 (fun p u => let q := (u.link (p.f 13 8)).queue (p.f 20 16); ¬(q.smpOn = p.b 21 ∧ q.smpLog2 = p.f 28 24) ∧ p.b 22 = false)),
 ("SET_SAMPLING with clear", took rowSamplingQueue (pk [(8,0),(16,1),(21,1),(22,1),(24,3)]) b4 (fun p _ => p.b 22 = true)),
 ("sample ring off twice", took rowSamplingRing (pk [(0,1)]) b4 (fun _ u => u.net.ringOn = false)),
 ("sample ring on", took rowSamplingRing (pk [(0,1),(21,1),(64,1000*extBytes),(128,1)]) b4 (fun p u => ¬(u.net.ringOn = true ∧
     u.net.ringOff = p.f 127 64 ∧ u.net.ringExt = p.f 134 128)))] = true := by decide +kernel

/-- Table 1 of one-row keys with one entry, table 3 a cascaded one, table 4 a full die, so that a table has one place. -/
def b5 : State := { b2 with tum := { tables := [(1, { active := true, width := 1, depth := 32, copyA := [(0, { key := 5, result := 9, flags := 1 })] }), (2, { active := true, width := 1, depth := 32, first := 64, cascade := false, shadow := true }),
   (3, { active := true, width := 1, depth := 32, first := 32, cascade := true }), (4, { active := true, width := 4, depth := 32740, first := 100 })] } }
theorem witness_TumblerCommandsComplete : allHold [
 ("CREATE_TABLE", took rowCreateTable (pk [(0,5),(32,1)]) {b5 with tum := { tables := [(4, { active := true, depth := 131071, first := 1 })] }} (fun p u => runPlace (newRows p) (u.rowGaps (b2n (p.b 8))) (u.choose (runPlaces (u.rowGaps (b2n (p.b 8))) (newRows p))).1 = some 0)),
 ("DESTROY_TABLE, absent", took rowDestroyTable (pk [(0,0)]) b5 (fun p u => (u.table (p.f 3 0)).active = false)),
     ("DESTROY_TABLE", took rowDestroyTable (pk [(0,1)]) b5 (fun p u => (u.table (p.f 3 0)).active = true)),
 ("INSERT_ENTRY", took rowInsertEntry (pk [(0,1),(16,7),(128,2^160-1)]) b5),
     ("UPDATE_ENTRY", took rowUpdateEntry (pk [(0,1),(16,7),(64,5),(224,6)]) b5),
     ("DELETE_ENTRY", took rowDeleteEntry (pk [(0,1),(128,5)]) b5),
 ("DELETE_ENTRY, all", took rowDeleteEntry (pk [(0,1),(5,1)]) b5), 
 ("SEARCH", took rowSearch (pk [(0,1),(16,1),(32,65536),(64,4096),(128,4096)] 0 [] (toLE 32 5)) b5 (fun p _ => p.b 5 = false)),
 ("cascaded SEARCH, ring down", took rowSearch (pk [(0,3),(5,1),(16,1),(32,65536),(64,4096),(128,4096)] 0 [] (toLE 32 5)) {b5 with tum := {b5.tum with ringDown := true}} (fun p u => p.b 5 = true ∧ u.tum.ringDown = true)),
 ("cascaded SEARCH", took rowSearch (pk [(0,3),(5,1),(16,1),(32,65536),(64,4096),(128,4096)] 0 [] (toLE 32 5)) b5 (fun p u => p.b 5 = true ∧
     u.tum.ringDown = false)),
 ("SWAP_SHADOW", took rowSwapShadow (pk [(0,2)]) b5)] = true := by decide +kernel

/-- A manifest's bytes: the body and a signature block. -/
def mfBytes : List Byte := toLE 256 (at_ [(0, 0x53464D56), (32, 1), (48, 0x100), (64, 400+257+1292), (96, 3), (128, 2), (144, 1), (160, 400)]) ++ (mfBody.drop 256) ++ toLE 2 1292 ++ List.replicate 1547 0
def stP (bit : List (Nat × Nat)) : Pkt := pk ([(64,1949)] ++ bit) 0 [] mfBytes
def drv (st : DriveSt) : State := { b3 with drives := [(0, { st, present := true, capacity := 1, extents := 1 })] }
theorem witness_ServiceCommandsComplete : allHold [
 ("STAGE_MANIFEST, staged already", took rowStageManifest (stP [(97,1)]) {b3 with compo := {b3.compo with staged := some (manifestOf mfBytes)}} (fun p u => u.compo.staged.any (·.digest == (manifestOf (manifestBytes p)).digest))),
 ("STAGE_MANIFEST", took rowStageManifest (stP [(97,1)]) b3 (fun p u => (∀ m, u.compo.staged = some m → m.digest ≠ (manifestOf (manifestBytes p)).digest) ∧ p.b 96 = false)),
 ("STAGE_MANIFEST, persisted", took rowStageManifest (stP [(96,1),(97,1)]) b3 (fun p u => (∀ m, u.compo.staged = some m → m.digest ≠ (manifestOf (manifestBytes p)).digest) ∧ p.b 96 = true ∧ u.flashFree = true)),
 ("STAGE_MANIFEST, flash granted", took rowStageManifest (stP [(96,1),(97,1)]) {b3 with board := {b3.board with flashGnt := true}} (fun p u => (∀ m, u.compo.staged = some m → m.digest ≠ (manifestOf (manifestBytes p)).digest) ∧ p.b 96 = true ∧ u.flashFree = false)),
 ("GET_EVIDENCE", took rowGetEvidence (pk [(256,4096),(320,8192)]) {b3 with idn := {b3.idn with identityOk := true}} (fun _ u => u.signWay.1 == .now)), ("GET_EVIDENCE before signing", took rowGetEvidence (pk [(256,4096),(320,4096)]) {b3 with idn := {b3.idn with signing := false, identityOk := true}} (fun _ u => u.signWay.1 == .later)),
 ("READ_EVENT_LOG", took rowReadEventLog (pk [(0,0),(32,1),(64,4096),(128,64)]) (b3.postEvent 2 0 0 0) (fun p u => ((u.logFrom (p.f 31 0)).take (p.f 44 32)).length = 1)),
 ("READ_EVENT_LOG, nothing held", took rowReadEventLog (pk [(0,0),(32,4096),(64,4096),(128,262144)]) b3 (fun p u => (u.logFrom (p.f 31 0)).take (p.f 44 32) = [])),
 ("a port that is OUT", took rowServiceDrain (pk [(0,0),(8,2)]) b3 (fun p u => (p.f 1 0 = 0 ∧ p.b 16 = false ∧
     (u.link (p.f 13 8)).st = .out))),
 ("a drive that is SAFE", took rowServiceDrain (pk [(0,1),(8,0)]) (drv .safe) (fun p u => (p.f 1 0 = 1 ∧ p.b 16 = false ∧
     (u.drive (p.f 13 8)).st = .safe))),
 ("a module that is SAFE", took rowServiceDrain (pk [(0,2)]) {b3 with rcv := {modSt := .safe}} (fun p u => (1 < p.f 1 0 ∧
     u.rcv.modSt = .safe))),
 ("drain a port", took rowServiceDrain (pk [(0,0),(8,4)]) b3 (fun p u => p.f 1 0 = 0 ∧ ¬(p.b 16 = false ∧ (u.link (p.f 13 8)).st = .out) ∧
      ((if p.b 16 then u.restorePort (p.f 13 8) else u.drainPort (p.f 13 8) .out).link (p.f 13 8)).st = .draining)),
 ("restore a port", took rowServiceDrain (pk [(0,0),(8,2),(16,1)]) b3 (fun p u => p.f 1 0 = 0 ∧ ¬(p.b 16 = false ∧
     (u.link (p.f 13 8)).st = .out) ∧
      ((if p.b 16 then u.restorePort (p.f 13 8) else u.drainPort (p.f 13 8) .out).link (p.f 13 8)).st ≠ .draining)),
 ("restore a drive", took rowServiceDrain (pk [(0,1),(8,0),(16,1)]) (drv .safe) (fun p _ => p.f 1 0 = 1 ∧ p.b 16 = true)),
 ("drain a drive", took rowServiceDrain (pk [(0,1),(8,0)]) (drv .active) (fun p u => p.f 1 0 = 1 ∧ p.b 16 = false ∧
     (u.drive (p.f 13 8)).st ≠ .safe)),
 ("drain the module", took rowServiceDrain (pk [(0,2)]) b3 (fun p u => 1 < p.f 1 0 ∧ u.rcv.modSt ≠ .safe)),
 ("FABRIC_BOOT", took rowFabricBoot (pk []) b3), ("FABRIC_BOOT in a boot", took rowFabricBoot (pk []) {b3 with compo := {b3.compo with phase := .flood}})] = true := by decide +kernel

theorem idRecord_length (s : State) : s.idRecord.length = 2044 := by
  have h : ∀ n (l : List Byte), (padTo n l).length = n := by intro n l; simp [padTo]; omega
  have g : (toLE 16 (pack [(32, 0x52444956), (16, 1), (16, 2044), (64, s.idn.uid)])).length = 16 := by simp [toLE]
  simp [State.idRecord, h, g]

def certP : Pkt := pk [(0, 1), (64, 4096), (128, 2044)]

/-- GET_CERTIFICATES of the identity record into a buffer of just its size. -/
theorem witness_GetCertificates : Accepted rowGetCertificates certP b3 := by
  refine ⟨by decide +kernel, by decide +kernel, ?_⟩
  have c : rowGetCertificates.check certP (b3.taken rowGetCertificates certP) = none := by
    have hb : certP.b 0 = true := by decide +kernel
    simp only [rowGetCertificates, hb, State.certObject, if_true, idRecord_length]
    decide +kernel
  have h : rowGetCertificates.header certP (b3.taken rowGetCertificates certP) = none := by decide +kernel
  have g : rowGetCertificates.bootBar certP (b3.taken rowGetCertificates certP) = false := by decide +kernel
  simp [CmdRow.verdict, c, h, g]

/-- The firmware restarts; the module drains; the device is stopped; a device in the ROM; one in a level of low power. -/
def restarting (s : State) : State := { s with rcv := { s.rcv with ctlRestart := true } }
def stopped (s : State) : State := { s with rcv := { s.rcv with fatal := true } }
def inBoot (p : BootSt) : State := { idn := { uid := 7, boot := p, thermo := 1 } }
def cmdS (w : Wait) : State := { b3 with inflight := [{ id := 4, wait := w, due := 1 }] }
def devR : DevRing := { st := .active, log2 := 6, thr := 8, delay := 10, firstAt := some 1 }
def bar2At (s : State) (off len : Nat) : Bool := s.runs && s.bar2Ok (s.kv kBar2Window * 2 ^ 36 + off) &&
    s.kv kBar2Window * 2 ^ 36 + off + len ≤ hbmSize
theorem witness_RegisterWritesAct : allHold [
 ("a running device", b1.runs && b1.fwUp), ("a doorbell", doorbellAt 0x1000 == some (0, 0) && doorbellAt 0x3018 == some (2, 3)),
 ("no doorbell", doorbellAt 0x40 == none && doorbellAt 0x18 == none), ("enable", bitAt (1 : W64).toNat 0 && !bitAt (0xFFFE : W64).toNat 0),
 ("BAR4", b1.board.pwrok && decide (0x7FF8 < 0x8000)), ("a doorbell held", (restarting b1).runs &&
     (restarting b1).rcv.ctlRestart)] = true := by decide +kernel

theorem witness_SplitRegisterWritesStop : allHold [
 ("a running device", b1.runs), ("half a word", decide (4 ≠ 8) && 0x3C / 8 == 7 && 0x3C % 8 != 0)] = true := by decide +kernel

theorem witness_HostInterfaceEventsAct : allHold [
 ("ready", let s := { b1 with host := { b1.host with ready := false } }; s.runs && s.host.enable && !s.host.cfgError && !s.host.ready &&
     !s.host.tearing),
 ("not ready again", !(b1.runs && b1.host.enable && !b1.host.cfgError && !b1.host.ready)),
 ("teardown complete", let s := { b1 with host := { b1.host with tearing := true } }; s.runs && s.host.tearing && s.inflight == []),
 ("no teardown", !b1.host.tearing), ("a running device", b1.runs), ("a stopped one", !(stopped b1).runs),
 ("a BAR2 access", bar2At b1 (1000 * extBytes) extBytes), ("a denied one", b1.runs && !bar2At b1 (1001 * extBytes) 1),
 ("one past the end", b1.runs && !bar2At b1 (hbmSize - 1) 2),
 ("a command out of time", let s := cmdS (.pause 4); s.runs && (s.inflight.find? (·.id == 4)).any fun f => !f.committed && f.due ≤ s.now),
 ("a completion delay", let s := b1.setCq 2 devR; s.runs && (s.cqr 2).st == .active && (s.cqr 2).firstAt == some 1 &&
     1 + us (s.cqr 2).delay ≤ s.now),
 ("an output delay", let s := b1.setOq 2 devR; s.runs && (s.oqr 2).st == .active && (s.oqr 2).firstAt == some 1 &&
     1 + us (s.oqr 2).delay ≤ s.now),
 ("a held entry", let s := { b1 with outHeld := [{ ctx := 4, ring := 3 }] };
    s.runs && (s.outHeld.find? (·.ctx == 4)).any fun o => !s.ringGone o.ring && (s.oqr o.ring).room != 0),
 ("the bound of a MOVE_STATE that asks", let s := cmdS (.moveAsk 6 1 2);
    s.runs && (s.inflight.find? fun g => g.id == 4).any fun f => f.due ≤ s.now && f.wait == .moveAsk 6 1 2),
 ("the bound of a MOVE_STATE", let s := cmdS (.move 4);
    s.runs && (s.inflight.find? fun g => g.id == 4).any fun f => f.due ≤ s.now && f.wait == .move 4)] = true := by decide +kernel

def railS : State := { b1 with board := { b1.board with railBad := [(1, 5), (2, 1000000000)] } }
def faultSt : List (BitVec 16) := [0, 0x10]
def flashS (r : Bool) : State :=
  { b3 with board := { b3.board with flashReq := r }, idn := { b3.idn with flashBusy := true },
            inflight := [{ id := 4, committed := true, wait := .persist [] [] false }] }
theorem witness_PowerEventsAct : allHold [
 ("a window's end", b1.runs && b1.pow.windowAt + us (b1.kv kPowerWindow) ≤ b1.now),
     ("too early", !(b1.now + us (b1.kv kPowerWindow) ≤ b1.now)),
 ("a rail in limits", b1.railOk 0 765), ("out of limits", !b1.railOk 0 0 && Tab.find? b1.board.railBad 0 == none),
 ("for less than 1 ms", !railS.railOk 2 0 && Tab.find? railS.board.railBad 2 == some 1000000000 && railS.now < 1000000000 + ms 1),
 ("for 1 ms", !railS.railOk 1 0 && Tab.find? railS.board.railBad 1 == some 5 && 5 + ms 1 ≤ railS.now),
 ("a status fault", (faultSt.zip (List.range 10)).find? (fun x => statusFault x.1) == some (0x10, 1)),
 ("a monitor report", b1.runs && b1.board.voutAt == none), ("a trip", b1.runs && decide (110 ≤ 110)), ("no trip", !decide (110 ≤ 109)),
 ("PROCHOT", b1.runs && !b1.pow.prochot), ("power down", !(b1.powerOff).board.pwrok), ("power up", b1.board.pwrok),
 ("the flash is asked for", let s := { b1 with board := { b1.board with flashReq := true } }; s.board.pwrok && s.board.flashReq && s.fwUp &&
     !(restarting s).fwUp),
 ("a flash write's end", let s := flashS false; s.runs && s.idn.flashBusy && match s.inflight.findSome? fun f => match f.wait with
      | .persist _ b _ => if f.committed then some (f, b) else none
      | _ => none with
    | some (f, b) =>
      let u := (({ s with idn := { s.idn with flashBusy := false } } : State).flashManifest b).finish f {}
      u.levelWait == none && !u.board.flashReq
    | none => false),
 ("no write", b1.runs && !b1.idn.flashBusy),
 ("out of self-refresh", let s := { cmdS (.lowPower 0) with pow := { b1.pow with level := 2 } };
    s.runs && s.pow.level == 2 && s.levelWait.any fun x => x.2 < 2)] = true := by decide +kernel

theorem witness_ColdBootEventsAct : allHold [
 ("no slot in order", let s := { inBoot .rom with idn := { (inBoot .rom).idn with badA := true, badB := true } }; s.runs &&
     s.idn.boot == .rom && !s.board.flashGnt && s.slotOrder.find? s.slotOk == none),
 ("not in the ROM", !(b1.runs && b1.idn.boot == .rom)),
 ("images not in order", let s := inBoot .stage1; s.runs && s.idn.boot == .stage1 && !s.board.flashGnt &&
    !([2, 3, 4].all (s.kindOk s.idn.slotB (s.bundle s.idn.slotB)) &&
        (bundleEntries (s.bundle s.idn.slotB)).all (s.imageOk s.idn.slotB (s.bundle s.idn.slotB)))),
 ("not in stage 1", !(b1.runs && b1.idn.boot == .stage1)),
 ("training", let s := inBoot .stage1; s.runs && s.idn.boot == .stage1 && !s.idn.hbmUp), ("trained", b1.idn.hbmUp),
 ("a subtree", let s := inBoot .running; s.runs && s.idn.boot == .running && !s.idn.signing && !s.idn.exhausted &&
     s.idn.subtree < s.idn.thermo),
 ("no subtree", b1.idn.signing)] = true := by decide +kernel

def drS (x : Drive) : State := { b3 with drives := [(0, x)] }
def opS (w : TierFor) (left : Nat) : State := { b3 with tierOps := [{ id := 4, why := w, left, due := 1 }] }
def exS (t : Nat) (x : Ext) : State := b3.setExt t 5000 x
def demS (c : Ctx) (r : Region) : State := { tight b3 with ctxs := [(4, c)], regions := [(104, r)] }
theorem witness_TierEventsAct : allHold [
 ("a button", b1.fwUp && (restarting b1).runs && (restarting b1).rcv.ctlRestart),
 ("a drive's window", let s := drS { st := .active, windowEnd := some 5 }; s.fwUp && (s.drive 0).windowEnd == some 5 &&
     (s.drive 0).st == .active && 5 ≤ s.now),
 ("the module's window", let s := { b3 with rcv := { modSt := .abortWindow, modAt := 5 } }; s.fwUp && s.rcv.modSt == .abortWindow &&
     s.rcv.modAt ≤ s.now),
 ("no window", !(b3.rcv.modSt == .abortWindow)),
 ("a drive comes", b3.runs && !(b3.drive 0).present && b3.bayComposed 0),
 ("a drive is pulled", let s := drS { st := .active, present := true }; s.runs && (s.drive 0).present && (s.drive 0).st == .active),
 ("a SAFE drive is pulled", let s := drS { st := .safe, present := true }; s.runs && (s.drive 0).present && (s.drive 0).st == .safe),
 ("a drive fails", let s := drS { st := .draining }; s.runs && (s.drive 0).st == .draining),
     ("none there", !((drS {}).drive 0).st == .draining),
 ("a sector", let s := opS .sector 0; s.runs && (s.tierOps.find? (·.id == 4)).any fun o => o.why == .sector),
 ("a fill", let s := opS (.fill 1 2) 0; s.runs && (s.tierOps.find? (·.id == 4)).any fun o => o.why != .sector),
 ("the last try", (opS .sector 0).tierOps.any fun o => o.left == 0), ("a retry", (opS (.move 1) 2).tierOps.any fun o => o.left != 0),
 ("a read out of time", let s := opS (.recall 1 2) 3; s.tierOps.any fun o => o.due ≤ s.now && o.why.isRead),
 ("a write out of time", let s := opS (.demote 1 2) 3; s.tierOps.any fun o => o.due ≤ s.now && !o.why.isRead && o.left != 0),
 ("a drain's end", let s := { drS { st := .draining } with regions := [] }; s.runs && (s.drive 0).st == .draining && s.demotedOn 0 == []),
 ("a drive trained", (drS { training := true }).runs && ((drS { training := true }).drive 0).training),
 ("demotion allowed", b1.fwUp && b1.pow.level < 2 && ((b1.adopt kPauseDemote).adopt kDemoteEnable).kv kDemoteEnable == 1),
 ("a demotion's end", let s := demS { st := .paused, region := 104, demoting := true } { id := 104, ctx := 4, first := 5000, count := 1 };
    s.runs && (s.regionOf 4).isSome && (s.ctx 4).demoting && s.tierOpsFor (TierFor.demotes 4) == []),
 ("a recall's end", let s := demS { st := .paused, region := 104, recalling := true } { id := 104, ctx := 4, first := 5000, count := 1, demoted := [(7, 1)] };
    s.runs && ((s.seekRun 4).regionOf 4).any (·.hasRun) && ((s.seekRun 4).ctx 4).recalling &&
        (s.seekRun 4).tierOpsFor (TierFor.recalls 4) == [] && (s.seekRun 4).runs),
 ("a recall out of time", let s := demS { st := .paused, recalling := true, recallBy := 5 } {}; s.runs && (s.ctx 4).recalling &&
     (s.ctx 4).recallBy ≤ s.now),
 ("no recall", !(b3.ctx 4).recalling),
 ("an extent drained", let s := exS 1 { st := .draining, who := .job 1 9 }; s.runs && (s.ext 1 5000).st == .draining &&
     (s.ext 1 5000).who.owner == none && !s.extBusy 1 5000),
 ("one with a request, out of time", let s := exS 1 { st := .draining, who := .region 4, drainBy := 5 };
    s.runs && (s.ext 1 5000).st == .draining && (s.ext 1 5000).drainBy ≤ s.now && (s.ext 1 5000).who.owner == some 4),
 ("one without, out of time", let s := exS 2 { st := .draining, who := .host, drainBy := 5 };
    s.runs && (s.ext 2 5000).st == .draining && (s.ext 2 5000).drainBy ≤ s.now && (s.ext 2 5000).who.owner == none),
 ("a scrub's end", ((exS 2 { st := .scrubbing }).ext 2 5000).st == .scrubbing &&
     ((exS 1 { st := .scrubbing }).ext 1 5000).st == .scrubbing),
 ("no scrub", !(b3.ext 2 5000).st == .scrubbing)] = true := by decide +kernel

def lk (x : Link) : State := { b3 with net := { b3.net with links := [(1, x)] } }
def goodFlit : Flit := let f : Flit := {}; { f with crc := flitCrc f }
theorem witness_LinkEventsAct : allHold [
 ("trained", let s := lk { st := .training }; s.linkLive 1 && (s.link 1).st == .training && (s.link 1).backTo == .down &&
     !s.compo.booting.contains 1),
 ("IDENT", (lk { st := .up }).linkLive 1 && ((lk { st := .up }).link 1).st.trained), ("no link", !(stopped b3).linkLive 1 &&
     !b3.linkLive 40),
 ("a flit in order", let s := lk { st := .up }; s.linkLive 1 && (s.link 1).st.trained && goodFlit.crc == flitCrc goodFlit && !goodFlit.nak &&
     (s.link 1).fecCorrected < 2 ^ 64 && (s.link 1).fecUncorrectable < 2 ^ 32),
 ("a flit with a wrong CRC", ({ goodFlit with crc := goodFlit.crc ^^^ 1 } : Flit).crc != flitCrc { goodFlit with crc := goodFlit.crc ^^^ 1 }),
 ("the replay timer", let s := lk { st := .up, kept := [goodFlit] }; s.linkLive 1 && (s.link 1).st.trained && (s.link 1).kept != [] &&
     (s.link 1).ackAt + ns (s.kset kReplayTimer) ≤ s.now),
 ("a lane lost", (lk { st := .up }).linkLive 1 && decide (3 < 4) && ((lk { st := .up }).link 1).st.trained),
 ("a retrain's end", let s := lk { st := .training, backTo := .up }; s.linkLive 1 && (s.link 1).st == .training &&
     (s.link 1).backTo != .down),
 ("a retrain out of time", let s := lk { st := .training, backTo := .up, trainAt := 5 }; s.linkLive 1 &&
     (s.link 1).trainAt + ms 50 ≤ s.now),
 ("a drain's end", let s := lk { st := .draining }; s.linkLive 1 && (s.link 1).st == .draining && (s.link 1).idle &&
     (s.link 1).held.all floods),
 ("a drain out of time", let s := lk { st := .draining, kept := [goodFlit], drainBy := 5 }; !(s.link 1).idle && (s.link 1).drainBy ≤ s.now),
 ("a peer", (lk {}).linkLive 1 && ((lk {}).link 1).st == .down && (lk {}).portUsable 1),
     ("no peer", !((lk { st := .up }).link 1).st == .down)] = true := by decide +kernel

def pkt6 : FPkt := { ptype := 2, dst := 6, src := 7 }
def fwS : State := { b3 with islands := (List.range 104).map (·, 10), net := { links := [(0, { st := .up, rx := [pkt6], gateEnd := 5, queues := [(1, shOn)], staged := some {} })] } }
theorem witness_TrafficEventsAct : allHold [
 ("a start", fwS.linkLive 0 && (fwS.link 0).st.trained && (fwS.link 0).kept.length < 256 && fwS.paceOf 0 < 2),
 ("a paced start", let s := { fwS with pow := { fwS.pow with fabricPace := 2 } }; 2 ≤ s.paceOf 0),
 ("a refill", ((fwS.link 0).queue 1).sh.on && ((fwS.link 0).queue 1).sh.nextAt ≤ fwS.portCycles 0),
     ("no shaper", !((fwS.link 0).queue 2).sh.on),
 ("a gate entry", (fwS.link 0).gateEnd ≤ fwS.portCycles 0), ("a staged list", (fwS.link 0).staged.any fun g => g.adoptAt ≤ fwS.portCycles 0),
 ("a packet passed on", pkt6.dst != fwS.self && !floods pkt6 && !fwS.rcv.isolated && !fwS.compo.unnumbered &&
     (fwS.routeLink pkt6.dst pkt6.cls).any fun o =>
    (fwS.link o).held == [] && (fwS.link o).bufBytes + pkt6.bytes ≤ extBytes),
 ("a packet with no route", fwS.routeLink 9 0 == none)] = true := by decide +kernel

/-- A request packet for this node, in order, and where it has arrived. -/
def rq (t : Nat) (pay : List Byte) (ep : Nat := 1) : FPkt := { ptype := t, dst := 5, src := 6, epoch := ep, pay := .bytes pay }
def advanced (p : FPkt) (s : State) : State :=
  let t := (s.takeRx 0 (· == p)).heardFrom p.src
  { t with fab := { t.fab with
      seqRx := Tab.put 0 t.fab.seqRx p.src ((Tab.getD 0 s.fab.seqRx p.src + 1) % 2 ^ 32)
      early := t.fab.early.filter fun e => !(e.2.src == p.src && e.2.seq == p.seq) } }
def inOrder (p : FPkt) (s : State) : Bool :=
  s.inMap && p.dst == s.self && p.epoch == s.compo.epoch && !epochNewer p.epoch s.compo.epoch &&
    (p.seq + 2 ^ 32 - Tab.getD 0 s.fab.seqRx p.src) % 2 ^ 32 == 0 && ((advanced p s).perform p []).isSome
theorem witness_RequestPacketsAct : allHold [
 ("READ", inOrder (rq 1 []) b3), ("WRITE", inOrder (rq 2 (List.replicate 144 0)) b3), ("ATOMIC", inOrder (rq 3 (List.replicate 16 0)) b3),
 ("PUBLISH", inOrder (rq 9 (List.replicate 16 0)) b3), ("VERSION_READ", inOrder (rq 11 []) b3),
 ("an older epoch", (rq 1 [] 0).epoch != b3.compo.epoch && !epochNewer (rq 1 [] 0).epoch b3.compo.epoch),
     ("a newer one", epochNewer (rq 1 [] 2).epoch b3.compo.epoch),
 ("not for this node", { rq 1 [] with dst := 6 }.dst != b3.self), ("another type", (rq 2 []).ptype != 1)] = true := by decide +kernel

def txS (t : Nat) (w : TxnFor) : State := { b3 with fab := { b3.fab with txns := [{ tag := 3, pkt := { ptype := t, dst := 6, seq := 8 }, who := w, due := 5 }] } }
def rsp (t code : Nat) (pay : List Byte) : FPkt := { ptype := t, code, dst := 5, src := 6, epoch := 1, seq := 8, tag := 3, pay := .bytes pay }
def answers (p : FPkt) (s : State) (kinds : List Nat) : Bool :=
  s.inMap && p.dst == s.self && p.epoch == s.compo.epoch && p.sound &&
      ((s.takeRx 0 (· == p)).heardFrom p.src).compo.epoch == s.compo.epoch &&
    (((s.takeRx 0 (· == p)).heardFrom p.src).txnOf p.tag p.src).any fun t => t.pkt.seq == p.seq && kinds.contains t.pkt.ptype
theorem witness_ResponsePacketsAct : allHold [
 ("READ_DATA", answers (rsp 4 0 (List.replicate 128 0)) (txS 1 (.engine 16 0 0 0)) [1]), ("ACK", answers (rsp 5 0 []) (txS 2 .nobody) [2]),
 ("NACK", answers (rsp 6 1 []) (txS 11 (.command 4)) [1, 2, 3, 9, 11, 13]),
     ("ATOMIC_DATA", answers (rsp 7 0 (List.replicate 16 0)) (txS 3 .nobody) [3]),
 ("PUBLISH_RESP", answers (rsp 10 0 (List.replicate 32 0)) (txS 9 (.command 4)) [9]),
     ("VERSION_DATA", answers (rsp 12 0 (List.replicate 16 0)) (txS 11 (.command 4)) [11]),
 ("PENDING", answers (rsp 8 0 (List.replicate 16 0)) (txS 1 (.engine 16 0 0 0)) [1]),
 ("an engine's request out of time", let s := txS 1 (.engine 16 0 0 0); s.inMap &&
     (s.fab.txns.find? fun t => t.tag == 3).any fun t => t.due ≤ s.now && t.who == .engine 16 0 0 0),
 ("a command's request out of time", let s := txS 9 (.command 4); s.inMap && (s.fab.txns.find? fun t => t.tag == 3).any fun t =>
    t.due ≤ s.now && t.who == .command 4 && !((s.suspect t.pkt.dst).dropTxn t).dead t.pkt.dst),
 ("the twin", b3.runs && b3.twinValid), ("no twin", !(stopped b3).runs),
 ("a line out of time", let s := b3.setSess 1 { st := .open_, lines := [(2, { due := 5 })] };
    s.runs && (s.sess 1).st == .open_ && (Tab.find? (s.sess 1).lines 2).any fun l => l.due ≤ s.now)] = true := by decide +kernel

def hh : HHdr := { src := 6, epoch := 1 }
def hgS : State := { b3 with net := { b3.net with links := [(0, { st := .up, rx := [{ ptype := 13, dst := 5, src := 6, epoch := 1, pay := .hinge hh .query }] })] } }
def hgOk (s : State) (i : Instr) : Bool :=
  match hingeOf i with
  | some (h, m, _) =>
    let x := s.hingePkt h m
    s.inMap && x.2.dst == s.self && x.2.sound && x.2.epoch == s.compo.epoch && !epochNewer x.2.epoch s.compo.epoch &&
      (x.2.seq + 2 ^ 32 - Tab.getD 0 s.fab.seqRx x.2.src) % 2 ^ 32 == 0
  | none => false
theorem witness_HingeMessagesAct : allHold [
 ("a message in a receive buffer", hgOk hgS (.sourceQuery hh [])),
 ("every message", [.regionOpening hh {} [] [] [] 0 0 false [] 0 none, .openingResponse hh true 0 0 0 0, .prepare hh {} 0 0 0, .ready hh 0, .commit hh 0, .commitAck hh, .refuse hh 0,
    .abandon hh 0, .abandonAck hh, .withdraw hh, .redirect hh 0 0, .sourceQuery hh []].all (hgOk b3)),
 ("with no map", !({ hgS with compo := { hgS.compo with mapped := false } } : State).inMap)] = true := by decide +kernel

def rqS (c : Ctx) : State := { tight b2 with ctxs := [(4, c)], regions := [(104, { id := 104, ctx := 4, first := 3000, count := 1, bytes := 1024 })] }
def lookS : State := { rqS { st := .admitted, promptLen := 65, model := 1, tokens := List.replicate 65 1 } with
  keySet := [], tum := { tables := [(0, { active := true, width := 1, depth := 32 })] } }
def lookT (s : State) : State := (s.adopt kPrefixTable).modCtx 4 fun x => { x with prefixSt := .searching }
def unlooked (s : State) : Bool := s.fwUp && (s.ctx 4).st == .admitted && (s.ctx 4).prefixSt == .unlooked
def fetchS : State :=
  { rqS { st := .admitted, promptLen := 65, model := 1, prefixSt := .fetching, prefixObj := 9 } with prefixes := [(9, { id := 9, first := 2001, layers := 4, rowBytes := 64 })] }
def pushS : State :=
  { rqS { st := .prefill, promptLen := 4, model := 1, prefixPushed := true, layersDone := 1 } with
    latches := [(0, { st := .home, homeNode := 5, handle := h1 4, stamp := 1, channel := 4, openRegion := 3, peer := 6 })] }
def serveS (dec : Bool) (it : List WorkItem) (n : Nat) (c : Ctx) : State :=
  { rqS c with pcs := [(0, { live := true, serving := true, decode := dec, items := it, ctrs := (List.replicate 30 0) ++ [n] })] }
def decS : State := { serveS true [] 0 { st := .decode, model := 1, placed := true, position := 5, region := 104, promptLen := 4, tokens := [1, 2, 3, 4] } with
  parts := [(0, { st := .active, model := 1, job := 9 })] }
def stepS : State := { decS with
  pcs := [(0, { live := true, serving := true, decode := true, items := [{ kind := 2, seqs := [4] }], ctrs := (List.replicate 30 0) ++ [1] })],
  parts := [(0, { st := .active, model := 1, job := 9, stepAt := some 5, batch := [4] })] }
def lateS (b : Bool) : State := rqS { st := .decode, bound := b, promptLen := 4, position := 4, firstDeadlineUs := 10, firstDone := false, ageBase := 100 }
theorem witness_RequestEventsAct : allHold [
 ("no index table", let s := { lookS with tum := {} }; unlooked s && (lookT s).indexTable == none),
 ("an index table", unlooked lookS && (lookT lookS).indexTable.any fun k => !((lookT lookS).table k).cascade),
 ("a fetch fails", fetchS.runs && (fetchS.ctx 4).prefixSt == .fetching && !(fetchS.ctx 4).st.over),
 ("a fetch ends", (Tab.find? fetchS.prefixes (fetchS.ctx 4).prefixObj).isSome),
 ("a layer to push", pushS.runs && (pushS.ctx 4).st == .prefill && (pushS.opened 4).isSome && (pushS.ctx 4).prefixPushed &&
     (pushS.ctx 4).pushing == 0 &&
    (pushS.ctx 4).pushLeft == 0 && 0 == (pushS.ctx 4).layersPushed && 0 < (pushS.ctx 4).layersDone && (pushS.ctx 4).toCompute != 0),
 ("a prefill item", let s := serveS false [] 0 { st := .admitted, placed := true, promptLen := 4, model := 1, prefixSt := .inPlace };
    s.fwUp && (s.pc 0).live && (s.pc 0).serving && (s.pc 0).endWith == 0 && (s.pc 0).items.length < 4096 && !(s.pc 0).decode &&
        s.mayPrefill 0 4 0 4 &&
      (arenaFit (s.pc 0).items (s.itemBytes [4] false)).isSome),
 ("a step item", let s := decS; s.fwUp && (s.pc 0).live && (s.pc 0).serving && (s.pc 0).endWith == 0 && (s.pc 0).decode &&
     (s.part 0).stepAt == none &&
    ((s.stepSeqs 0).filter fun i => !s.stalled i) == [4] && (s.backRows [4]).1 == [4] &&
      (arenaFit ((s.backRows [4]).2.pc 0).items ((s.backRows [4]).2.itemBytes [4] true)).isSome),
 ("the last layer of an item", let s := serveS false [{ kind := 1, seqs := [4], layerCount := 1 }] 1 { st := .prefill };
    s.fwUp && (s.pc 0).live && match (s.pc 0).items with | w :: _ => w.kind == 1 && w.base < (s.pc 0).ctr 30 && w.layerCount ≤ 1 | [] => false),
 ("another layer", let s := serveS false [{ kind := 1, seqs := [4], layerCount := 2 }] 1 { st := .prefill };
    s.fwUp && (s.pc 0).live && match (s.pc 0).items with | w :: _ => w.kind == 1 && w.base < (s.pc 0).ctr 30 && 1 < w.layerCount | [] => false),
 ("a step commits", let s := { stepS with latches := [] }; s.fwUp && s.servingOf 0 true == some 0 && (s.part 0).stepAt == some 5 &&
     s.latches == [] &&
    match (s.pc 0).items with | w :: _ => w.kind == 2 && w.base < (s.pc 0).ctr 30 | [] => false),
 ("a miss written", let s := lateS true; s.fwUp && s.missed 4 && (s.ctx 4).bound && !s.committing 4),
     ("a miss kept", let s := lateS false; s.fwUp && s.missed 4 && !(s.ctx 4).bound),
 ("no miss", !b3.missed 4),
 ("a context's end", let s := rqS { st := .ended, overAt := 5 }; s.fwUp && (s.ctx 4).st == .ended &&
     (s.ctx 4).overAt + ms (s.ctx 4).retainMs ≤ s.now),
 ("not over", !(b3.ctx 4).st == .done && !(b3.ctx 4).st == .ended), ("scrubbing", b3.fwUp &&
     ((b3.adopt kScrubMs).adopt kScrubEnable).kv kScrubEnable == 1),
 ("the firmware restarts", !(restarting b3).fwUp), ("stopped", !(stopped b3).runs)] = true := by decide +kernel

/-- A device whose engine `e` of core 0 is at the descriptor `d`, and the engine. -/
def engS (e d : Nat) (n : Nat := 1) : State :=
  { b1 with
    hbm := memAt (2001 * extBytes) (toLE 1024 (at_ [(0, 0x474D4956), (97, 1), (160, 1), (168, 4), (256, 256), (2048 + 128 * e, 512), (2080 + 128 * e, n), (4096, d)]))
    parts := [(2, { st := .active, job := 9, images := [1], pMask := 56, pRot := { cur := 1 } })]
    pcs := [(16, { live := true, image := 1, place := .onCores, cores := [0], ctrs := List.replicate 32 0,
                   core := [{ engines := List.replicate 9 { regs := List.replicate 16 0 } }] })] }
def eng (e : Nat) : EngAt := { pc := 16, core := 0, eng := e }
def starts (e d : Nat) (ok : Nat → Bool) : Bool := ((engS e d).startAt (eng e) (BitVec.ofNat 512 d) ok).isSome
def ldOk : Bool :=
  let s := engS 2 opLdreg
  match s.startAt (eng 2) (BitVec.ofNat 512 opLdreg) (isOp opLdreg) with
  | some a =>
    let x := (rsOf a.d (s.engOf a).regs + immOf a.d) % 2 ^ 64
    x % 8 == 0 && spFault (spBytes (s.isDecode a)) [(x, 8)] == none &&
      !((s.begin_ a).2.race a (s.begin_ a).1 ⟨false, false, [(x, 8)]⟩).spBad a x 8
  | none => false
theorem witness_ControlDescriptorsAct : allHold [
 ("NOP to HALT but LDREG", [opNop, opSet, opAdd, opMul, opLoop, opHalt].all fun o => starts 2 o (isOp o)), ("LDREG", ldOk),
 ("another descriptor", (engS 2 opSet).startAt (eng 2) (BitVec.ofNat 512 opNop) (isOp opNop) == none)] = true := by decide +kernel

theorem witness_DataDescriptorsAct : allHold [
 ("engine 0", [opLoad, opGather].all fun o => starts 0 o (isOp o)),
     ("engine 1", [opStore, opScatter, opAtomic].all fun o => starts 1 o (isOp o)),
 ("a matrix engine", starts 3 opMatmul (isOp opMatmul) && starts 8 opMatmul (isOp opMatmul)),
 ("the vector engine", [0x01, 0x02, 0x03, 0x04, 0x05, 0x06, 0x07, 0x08, 0x09, 0x0A, 0x0B, 0x0C, 0x10, 0x11, 0x12, 0x20].all fun v =>
    starts 2 (opVector + v * 2 ^ 384) (isVop v)),
 ("no vector operation on engine 0", !starts 0 (opVector + 2 ^ 384) (isVop 1))] = true := by decide +kernel

def swS (p : SwPhase) (by_ : Bool) (x : ProgCtx := { live := true, place := .onCores }) : State :=
  { b1 with parts := [(2, { st := .active, pRot := { cur := 1, sliceAt := 5, sw := some { out := 1, inc := 2, phase := p, byYield := by_, askedAt := 5 } } })], pcs := [(16, x)] }
def swIs (s : State) (f : Switch → Bool) : Bool := (s.switchOf 2 false).any f
theorem witness_RotationEventsAct : allHold [
 ("a queue timeout", let s := engS 2 (opNop + 256); let x := s.adopt kEngineTimeout; s.runs && (s.pc 16).live &&
     (s.pc 16).place == .onCores &&
    ((s.pc 16).cores.zipIdx.find? fun c => c.1 == 0) == some (0, 0) && (((s.pc 16).core.getD 0 {}).engines[2]?).any (fun g => !g.halted &&
        g.progress + us (x.kv kEngineTimeout) ≤ s.now) &&
      (s.rot 2 false).sw == none && !x.anyFwWait (s.pc 16)),
 ("a slice's end", let s := engS 2 1; s.fwUp && (s.rot 2 false).cur != 0 && (s.rot 2 false).sw == none && !(s.rot 2 false).ended &&
     (s.rot 2 false).sliceAt + us (s.rot 2 false).sliceUs ≤ s.now),
 ("asking", swIs (swS .asking false) fun w => w.phase == .asking),
 ("at the yield point", swIs (swS .yielding false) (fun w => w.phase == .yielding) &&
     (swS .yielding false).allAtYield ((swS .yielding false).pc 16)),
 ("stopped", swIs (swS .stopping false) (fun w => w.phase == .stopping) && ((swS .stopping false).pc 16).quiet),
 ("the bound", swIs (swS .yielding false) fun w => w.askedAt + us ((swS .yielding false).kv kPreemptBound 2) ≤ (swS .yielding false).now),
 ("saved", swIs (swS .saving false) fun w => w.phase == .saving && !w.byYield && w.inc != 0),
     ("restored", swIs (swS .restoring false) fun w => w.phase == .restoring && w.inc != 0),
 ("no switch", b1.switchOf 2 false == none)] = true := by decide +kernel

def jobS (w : TWrite) : State := { b5 with tum := { b5.tum with jobs := [{ cmd := 5, table := 1, op := w, due := 5 }] } }
def casS (c x : Nat) : State :=
  { b5 with compo := { b5.compo with inForce := some { body := (mfBody.take 256) ++ toLE 64 (at_ [(0, 7), (64, 5), (80, 15), (85, 1), (88, 6), (104, 1), (108, 2), (128, 9), (140, 9), (152, 9), (164, 9)]) ++ mfBody.drop 320 } },
            tum := { b5.tum with casOut := [{ seq := 9, cmd := c, ctx := x, due := 5 }] } }
def tokAt (pos tab seq : Nat) : BitVec 512 := BitVec.ofNat 512 (at_ [(0, tab), (4, pos), (16, seq)])
theorem witness_TumblerEventsAct : allHold [
 ("a write waits", let s := jobS .swap; s.runs && !s.isFenced 14 && (s.bump kIdleCycles 1 0).dieJobs 0 != []),
     ("no write waits", (b5.bump kIdleCycles 1 0).dieJobs 0 == []),
 ("an insertion out of time", ((jobS (.insert {} 2)).tum.jobs.find? fun j => (j.cmd == 4 + 1 || j.sealCmd == 4 + 1) && decide (j.due ≤ b5.now)).any fun j => j.op == .insert {} 2),
 ("another write out of time", ((jobS .clearAll).tum.jobs.find? fun j => (j.cmd == 4 + 1 || j.sealCmd == 4 + 1) && decide (j.due ≤ b5.now)).any fun j => j.op == .clearAll),
 ("its own token", let s := casS 5 0; s.runs && tokAt 1 3 9 != 0 && s.cascSize != 0 && tokF (tokAt 1 3 9) 6 4 == s.cascPos &&
    (s.tum.casOut.find? fun o => o.seq == tokF (tokAt 1 3 9) 31 16).any fun o => o.cmd != 0),
 ("another's token", let s := casS 5 0; tokF (tokAt 0 7 9) 6 4 != s.cascPos && !(s.table (tokF (tokAt 0 7 9) 3 0)).active),
 ("a probe out of time", let s := casS 0 0; s.runs && (s.tum.casOut.find? fun o => o.seq == 9 &&
     decide (o.due ≤ s.now)).any fun o => o.cmd == 0 && o.ctx == 0),
 ("a search out of time", let s := casS 5 0; (s.tum.casOut.find? fun o => o.seq == 9 && decide (o.due ≤ s.now)).any (fun o => o.cmd != 0) &&
     (s.bump kCascTimeouts).tum.casRun != 2),
 ("a probe is due", let s := { b5 with tum := { b5.tum with ringDown := true } }; s.runs && s.tum.ringDown && s.tum.probeAt + ms 1 ≤ s.now),
     ("no probe", !b5.tum.ringDown)] = true := by decide +kernel

def fbS (p : FbPhase) (f : Compo → Compo := id) : State := { b3 with compo := f { b3.compo with phase := p } }
def myTab : SliceTab := { uid := 7, node := 5 }
theorem witness_FabricBootEventsAct : allHold [
 ("a new message", b3.mapOn 0 && b3.unseen 1 8 65537 && b3.unseen 2 8 1 && b3.unseen 3 8 (tabIdent { uid := 8 }) && b3.unseen 5 8 2 &&
     b3.unseen 7 0 2),
 ("one seen", !(b3.see 1 8 65537).unseen 1 8 65537), ("no training link", let s := fbS .link; s.fwUp && s.compo.phase == .link &&
     !((List.range 40).any fun l => (s.link l).st == .training)),
 ("not in the phase", !(b3.compo.phase == .link)),
 ("quiet", let s := fbS .flood; s.fwUp && s.compo.phase == .flood && s.compo.phaseAt + us (s.kv kFloodQuiet) ≤ s.now),
 ("quiet, waiting", let s := fbS .agree fun c => { c with waiting := true }; s.fwUp && s.compo.phase == .agree && s.compo.waiting &&
     s.compo.phaseAt + us (s.kv kFloodQuiet) ≤ s.now),
 ("an acknowledgement", let s := fbS .agree fun c => { c with proposed := true, propEpoch := 2 }; s.mapOn 0 && s.fwUp &&
     s.compo.phase == .agree && s.compo.proposed && s.compo.propEpoch == 2 && !s.compo.waiting),
 ("a refusal at the proposer", let s := fbS .agree fun c => { c with proposed := true, propEpoch := 2, claimNode := 5, tables := [myTab] }; (s.gotMgmt 0 (.ack 2 0 true)).proposes),
 ("a boot out of time", let s := { fbS .flood with now := 2 ^ 60 }; s.fwUp && s.compo.phase != .idle &&
     s.compo.startAt + ms (s.kv kFbTimeout) ≤ s.now),
 ("a round out of time", let s := fbS .agree fun c => { c with claimNode := 5, tables := [myTab], startAt := b3.now }; s.fwUp &&
     s.compo.phase == .agree && !s.compo.waiting &&
    s.now < s.compo.startAt + ms (s.kv kFbTimeout) && s.compo.phaseAt + ms (s.kv kAgreeTimeout) ≤ s.now &&
        s.proposes)] = true := by decide +kernel

def susS (m : Nat) : State := b3.setNode 6 { live := .suspect, uid := 8, missed := m, missLimit := 3 }
theorem witness_RecoveryEventsAct : allHold [
 ("a heartbeat is due", b3.inMap && b3.rcv.hbAt + us (b3.kv kHeartbeat) ≤ b3.now), ("a heartbeat", b3.linkLive 0 && (b3.link 0).st.trained &&
     (b3.gotMgmt 0 (.heartbeat 8 6 1)).fromMember 8 6),
 ("a probe", b3.inMap && b3.linkLive 0 && b3.self == 5), ("an answer", b3.idn.uid == 7),
     ("no map", !({ b3 with compo := {} } : State).inMap),
 ("the last miss", let s := susS 2; s.inMap && (s.node 6).live == .suspect && (s.node 6).probedAt + us (s.kv kHeartbeat) ≤ s.now &&
     (s.node 6).missLimit ≤ (s.node 6).missed + 1),
 ("a miss", let s := susS 1; (s.node 6).missed + 1 < (s.node 6).missLimit), ("management", b3.inMap && b3.fwUp),
     ("stopped", !(stopped b3).runs),
 ("a restart's end", (restarting b3).runs && (restarting b3).rcv.ctlRestart),
 ("the drain's limit", let s := { b3 with rcv := { modSt := .draining, modAt := 5 } }; s.fwUp && s.rcv.modSt == .draining &&
     !s.rcv.modClosing && s.rcv.modAt ≤ s.now),
 ("a pattern's end", let s := { b3 with rcv := { refusedPat := [(0, 5)] } }; s.runs &&
     (Tab.find? s.rcv.refusedPat 0).any fun t => t ≤ s.now),
     ("no pattern", Tab.find? b3.rcv.refusedPat 0 == none)] = true := by decide +kernel

def copyS (w : Wait) : State := cmdS w
theorem witness_IdentityEventsAct : allHold [
 ("SPDM", b3.spdmUp .doe && spdmKnown .getVersion && !spdmSigned .getVersion), ("a signed one", spdmKnown (.challenge 0 []) &&
     spdmSigned (.challenge 0 []) && b3.idn.identityOk && b3.idn.signing),
 ("no address", !b3.spdmUp .mctp), ("an HSS signature", let s := { b3 with idn := { b3.idn with mDoe := some [] } }; s.spdmUp .doe &&
     s.spdmM .doe == some [] && s.signWay.1 == .now),
 ("nothing to sign", b3.spdmM .doe == none), ("never", let s := { b3 with idn := { b3.idn with identityOk := false, mDoe := some [] } }; s.signWay.1 == .never sAuthFailed),
 ("ENTDAA", b3.board.pwrok && b3.idn.i3cAddr == 0 && 8 ≤ 0x7D),
     ("MCTP", let s := { b3 with idn := { b3.idn with i3cAddr := 8 } }; s.board.pwrok && s.idn.i3cAddr != 0 && !s.rcv.fatal),
 ("a copy", ((copyS (.copy .model 0 4096 1 0)).inflight.find? fun f => f.id == 4).any fun f => f.wait == .copy .model 0 4096 1 0),
 ("a fetch", ((copyS (.fetch 9 1)).inflight.find? fun f => f.id == 4).any fun f => f.wait == .fetch 9 1),
 ("a seal", let s := copyS (.sealing 4 1 9 3000 1 1); (s.inflight.find? fun f => f.id == 4).any (fun f => f.wait == .sealing 4 1 9 3000 1 1) && !s.tum.jobs.any fun j => j.sealCmd == 4 + 1)] = true := by decide +kernel

/-- A packet that waits behind a fence; one whose fetch faults; one that is refused. -/
def fenced_ : Pkt := { pk [] with fence := true }
def faulty : Pkt := { pk [] with fetchFault := true }
theorem witness_PacketsWaitOrFault : allHold [
 ("waits", let s := cmdS (.pause 4); !s.mayTake fenced_ && s.inflightOf fenced_.sq != []), ("faults", b1.mayTake faulty &&
     faulty.fetchFault)] = true := by decide +kernel

theorem witness_RefusalsHaveNoSideEffect : allHold [
 ("a field", b1.mayTake (pk [(0, 1)]) && !(pk [(0, 1)]).fetchFault &&
     (rowNop.verdict (pk [(0, 1)]) (b1.taken rowNop (pk [(0, 1)]))).isSome)] = true := by decide +kernel

theorem witness_ReadingCommandsChangeNothing : allHold [
 ("a read", took rowQueryNode (pk [(0, 6)]) b3 && took rowPortStatus (pk [(0, 0), (8, 40), (64, 4096), (128, 4096)]) b3),
 ("core records", took rowReadCoreStats (pk [(8, 0), (16, 1), (64, 4096), (128, 128)]) b2)] = true := by decide +kernel

theorem witness_FrontCommandRuns : allHold [
 ("a queue", ({ b1 with pending := [.hostIfReady, .rstdaa] } : State).pending == .hostIfReady :: [.rstdaa]),
     ("an empty one", b1.pending == [] && b1.runs && !(stopped b1).runs)] = true := by decide +kernel

theorem witness_PowerLossClearsTheDevice : allHold [
 ("powered", b1.board.pwrok)] = true := by decide +kernel

theorem witness_NopCompletesOk : allHold [
 ("fenced", fenced_.fence && (cmdS (.pause 4)).inflightOf fenced_.sq != []),
 ("taken", b1.mayTake (pk []) && !(pk []).fetchFault && (pk []).hrsv == 0 && (pk []).extLen == 0 && (pk []).extAddr == 0 &&
     (pk []).inl == 0 && (pk [(383, 1)]).inl != 0)] = true := by decide +kernel

theorem witness_ConfigGetReports : allHold [
 ("a key", b1.mayTake (pk [(0, kMaxInflight)]) && (keyRow? kMaxInflight).isSome && (pk [(0, kMaxInflight)]).v / 2 ^ 64 == 0),
     ("no key", keyRow? 0xFFFF == none)] = true := by decide +kernel

theorem witness_ReleaseContextFrees : allHold [
 ("no context", b1.ctxNamed 5 == none && !b1.compo.uncommitted), ("over", b1.ctxNamed (h1 9) == some 9 && (b1.ctx 9).st == .done &&
     (b1.ctx 10).st == .ended),
 ("not over", b1.ctxNamed (h1 4) == some 4 && (b1.ctx 4).st == .decode)] = true := by decide +kernel

theorem witness_ContextsAreNamedAndTaken : allHold [
 ("named", b1.ctxNamed (b1.handleFor 4) == some 4 && (b1.ctx 4).gen < 65536), ("taken", b1.freeCtx == some 12),
 ("none left", ({ b0 with withheld := [0, 1, 2, 3] } : State).freeCtx == none)] = true := by decide +kernel

theorem witness_BadDoorbellsPutARingInError : allHold [
 ("a width", b1.fwUp && decide (2 ≠ 4)), ("a reserved bit", fld ((2 ^ 20 : Nat) % 2 ^ 32) 31 20 != 0), ("no ring", b1.ringSt 0 9 == .absent &&
     b1.ringSt 1 63 == .absent),
 ("the entry count", b1.ringSt 0 0 == .active && 2 ^ b1.ringLog 0 0 == 64 && fld (64 % 2 ^ 32) 19 0 == 64)] = true := by decide +kernel

theorem witness_LogEntriesAreLaidOut : allHold [
 ("an entry", ((b1.postEvent 2 0 0 0).rcv.log).length == 1)] = true := by decide +kernel

theorem witness_LogReadsStartWhereAsked : allHold [
 ("all still held", let s := b1.postEvent 2 0 0 0; decide (1 ≤ (0 + 2 ^ 32 - (2 ^ 32 - 1)) % 2 ^ 32) && s.rcv.log.length == 1 &&
     s.rcv.logSeq == 1)] = true := by decide +kernel

theorem witness_ShapersRefill : allHold [
 ("due", fwS.linkLive 0 && ((fwS.link 0).queue 1).sh.on && ((fwS.link 0).queue 1).sh.nextAt ≤ fwS.portCycles 0)] = true := by decide +kernel

theorem witness_PortButtonsFollowTheState : allHold [
 ("in service", b3.fwUp && b3.linkLive 0 && b3.rcv.modSt != .safe && (b3.link 0).st == .up && b3.strandedBy 0 == 0),
 ("one that strands a node", let s := b3.setNode 6 { live := .alive, route := [0] }; (s.link 0).st == .up &&
     s.strandedBy 0 == 1)] = true := by decide +kernel

theorem witness_WindowWritesStoreTheirBytes : allHold [
 ("a whole extent", bar2At b1 (1000 * extBytes) extBytes)] = true := by decide +kernel

theorem witness_AtomicsReturnTheOldWord : allHold [
 ("clean and poisoned", !b1.poisonAt 5 && ({ b1 with fab := { b1.fab with hbmPoison := [5] } } : State).poisonAt 5)] = true := by decide +kernel

theorem witness_MemoriesStayCanonical : allHold [
 ("they are", b1.memsOk && (match step { b1 with pending := [.bar2Access true (1000 * extBytes) 2 [1, 0]] } with | .next t => t.memsOk && t.hbm != b1.hbm | _ => false))] = true := by decide +kernel

theorem witness_FusesAndSubtrees : allHold [
 ("a subtree signs", b1.idn.signing && b1.idn.subtree < b1.idn.thermo),
 ("a step keeps the power", match step { b3 with pending := [.rstdaa] } with | .next t => t.board.pwrok == b3.board.pwrok && t.idn.thermo == b3.idn.thermo | _ => false),
 ("stopped", (stopped b1).rcv.fatal && (stopped b1).board.pwrok && match exec .hotReset (stopped b1) with | .next t => t == stopped b1 | _ => false)] = true := by decide +kernel

/-! ## Ill-formed commands: one for each check -/

def badPkt : List Pkt := [{ sq := 64 }, { handle := 2 ^ 32 }, { extLen := 4096 }, { extAddr := 2 ^ 44 }, { extLen := 1, ext := some [] }, { undef := some 0x0201 }, { undef := some 0x0F04 }]
def badHdr : List HHdr := [{ src := 16384 }, { epoch := 65536 }, { region := 2 ^ 32 }, { handle := 2 ^ 32 }, { attempt := 17 }, { seq := 2 ^ 32 }]
def badFab : List FPkt :=
  [{ ptype := 16 }, { cls := 4 }, { code := 16 }, { dst := 16384 }, { src := 16384 }, { epoch := 65536 }, { offset := 2 ^ 50 }, { seq := 2 ^ 32 },
   { tag := 65536 }, { job := 4096 }]
def badEng : List EngAt := [⟨128, 0, 0⟩, ⟨0, 48, 0⟩, ⟨0, 0, 9⟩]

theorem test_wf_packets : (badPkt.any fun p => (Instr.nop p).wf || (Instr.search p).wf) = false ∧ (Instr.nop {}).wf = true := by decide +kernel
theorem test_wf_fabric :
    (badFab.any fun p => (Instr.read 0 p).wf || (Instr.packetForward 0 p).wf) = false ∧ (Instr.read 40 {}).wf = false ∧
    (badHdr.any fun h => (Instr.withdraw h).wf || (Instr.sourceQuery h []).wf) = false ∧ (Instr.redirect {} 16384 0).wf = false ∧
    (Instr.read 39 {}).wf = true ∧ (Instr.withdraw {}).wf = true := by decide +kernel
theorem test_wf_engines : (badEng.any fun e => (Instr.set e 0).wf || (Instr.ward e 0).wf) = false ∧ (Instr.set ⟨127, 47, 8⟩ 0).wf = true := by
  decide +kernel
theorem test_wf_host :
    ([.hostIfEnable 9 0, .registerWrite .bar0 65536 8 0, .registerWrite .bar0 0 9 0, .submissionDoorbell 64 4 0, .completionDoorbell 0 9 0,
      .outputDoorbell 256 4 0, .bar2Access false (2 ^ 36) 1 [], .bar2Access false 0 4097 [], .bar2Access true 0 1 [], .irqDelayExpiry false 64,
      .irqDelayExpiry true 256, .heldTokenWrite 8192] : List Instr).any Instr.wf = false ∧ (Instr.outputDoorbell 255 4 0).wf = true := by
  decide +kernel
theorem test_wf_board :
    ([.powerWindow { dieTemp := List.replicate 17 0 }, .powerWindow { stackTemp := List.replicate 25 0 }, .pmbusPoll 10 0 0,
      .pmbAlert (List.replicate 11 0) [], .pmbAlert [] (List.replicate 11 0), .dieOvertempTrip 16 0, .hbmTrainingComplete [24], .buttonPress (.port 36),
      .buttonPress (.drive 8), .driveFailure 8, .driveTrained 8 true, .drainRefusedPatternEnd 36, .entdaa 7, .entdaa 0x7E] : List Instr).any Instr.wf =
      false ∧ (Instr.entdaa 0x7D).wf = true := by decide +kernel
theorem test_wf_links :
    ([.linkTrained 40, .ident 40 {}, .ident 0 { uid := 2 ^ 64 }, .ident 0 { node := 16384 }, .ident 0 { epoch := 65536 }, .ident 0 { link := 40 },
      .flitReceive 40 { body := List.replicate 80 0 } [], .flitReceive 0 {} [], .flitReceive 0 { body := List.replicate 80 0, seq := 4096 } [],
      .laneSignalLoss 0 4, .shaperRefill 0 25, .fabricTxnTimeout 65536, .twinInvalidate (2 ^ 64), .collLineTimeout 4 0 0,
      .collLineTimeout 0 16 0] : List Instr).any Instr.wf = false ∧ (Instr.shaperRefill 39 24).wf = true := by decide +kernel
theorem test_wf_requests :
    ([.prefixLookup 8192, .workItemWrite 128 1 [] 0 0, .workItemWrite 0 0 [] 0 0, .workItemWrite 0 4 [] 0 0, .prefillLayerDone 128, .stepCommit 16,
      .extentDrainEnd 1 1179648, .extentDrainEnd 2 (2 ^ 28), .extentDrainEnd 3 0, .sliceEnd 16 true, .tumblerIdleCycle 2] : List Instr).any Instr.wf =
      false ∧ (Instr.scrubComplete 1 1179647).wf = true := by decide +kernel
theorem test_wf_recovery :
    ([.boot 40 0 0 0, .probeInterval 16384, .jobFault 16384 0 0 0 0, .jobFault 0 4096 0 0 0, .teardown 4096 0 0 0 0, .dieHeartbeatTimeout 16,
      .ctlWatchdogExpiry 32, .controlRestartComplete [8192] [], .controlRestartComplete [] [16384]] : List Instr).any Instr.wf = false ∧
    (Instr.ctlWatchdogExpiry 31).wf = true := by decide +kernel

/-! ## Published known answers: FIPS 180-4, FIPS 197, the check value of CRC-32, RFC 6979 A.2.6 -/

def ascii (s : String) : List Byte := s.toList.map fun c => BitVec.ofNat 8 c.toNat
theorem test_sha384_abc :
    sha384 (ascii "abc") = toBE 48 0xcb00753f45a35e8bb5a03d699ac65007272c32ab0eded1631a8b605a43ff5bed8086072ba1e7cc2358baeca134c825a7 := by
  decide +kernel
theorem test_sha256_abc : sha256 (ascii "abc") = toBE 32 0xba7816bf8f01cfea414140de5dae2223b00361a396177a9cb410ff61f20015ad := by decide +kernel
theorem test_aes128 :
    aes128 ((List.range 16).map (BitVec.ofNat 8)) ((List.range 16).map fun i => BitVec.ofNat 8 (17 * i)) =
      toBE 16 0x69c4e0d86a7b0430d8cdb78070b4c55a := by decide +kernel
theorem test_crc32_check : crc32 (ascii "123456789") = 0xCBF43926 := by decide +kernel
theorem test_ecdsa_p384 :
    ecdsaVerify
      (4 :: toBE 48 0xEC3A4E415B4E19A4568618029F427FA5DA9A8BC4AE92E02E06AAE5286B300C64DEF8F0EA9055866064A254515480BC13 ++
        toBE 48 0x8015D9B72D7D57244EA8EF9AC0C621896708A59367F9DFB9F54CA84B3F1C9DB1288B231C3AE0D4FE7344FD2533264720)
      (ascii "sample")
      (toBE 48 0x94EDBB92A5ECB8AAD4736E56C691916B3F88140666CE9FA73D64C4EA95AD133C81A648152E44ACF96E36DD1E80FABE46 ++
        toBE 48 0x99EF4AEB15F178CEA1FE40DB2603138F130E740A19624526203B6351D0A3A94FA329C145786E679E7B82C71A38628AC8) = true := by decide +kernel

/-! ## The spec's worked examples and tables -/

def runs1 (i : Instr) (s : State) : State := match exec i s with | .next t => t | _ => s

/-- Chapter 02, 'a command across a ring wrap'. -/
def wrapS : State :=
  { b1 with host := { b1.host with
      sq := [(1, { st := .active, base := 0x1000000000, log2 := 8, head := 255, tail := 0, cq := 1, weight := 1 })]
      cq := [(1, { st := .active, base := 4096, log2 := 6, head := 63, tail := 63, phase := false, thr := 8, delay := 100, vector := 5 })]
      msixOpen := [5] } }
theorem test_getCapabilities_wrap :
    let t := runs1 (.getCapabilities { pk [(16, 1), (64, 0x1234567000), (128, 512)] with sq := 1, tag := 7, irq := true }) wrapS
    t.hostWr.getLast? = some (4096 + 63 * 32, [0, 0, 7, 0, 2, 1, 0, 0, 1, 0, 0, 0] ++ List.replicate 20 0) ∧
    (t.hostWr.head?.map fun w => (w.1, w.2.length)) = some (0x1234567000, 512) ∧ t.msix = [5] ∧ (t.sqr 1).head = 0 ∧ (t.cqr 1).tail = 0 ∧
    (t.cqr 1).phase = true := by decide +kernel
theorem test_doorbell_offsets : doorbellAt 0x1008 = some (0, 1) ∧ doorbellAt 0x2008 = some (1, 1) := by decide +kernel

/-- Chapter 01, 'a Generation node limited to 2,600 W'. -/
theorem test_budgets_2600 : budgetsFor 1 2600 = (1058, 912, 420) := by decide +kernel

/-- Chapter 07, the region of the example model: the row of position 2,040 in layer 95. -/
def exModel : State := { b1 with hbm := memAt (2000 * extBytes) (toLE 40 (at_ [(128, 96), (144, 416), (160, 96), (176, 512), (208, 100), (232, 131072)])) }
theorem test_row_of_layer_95 : exModel.regionRow { model := 1, maxLen := 131072 } 95 2040 = 6376386560 := by decide +kernel

/-- Chapter 09, 'one draw under a grammar', but for the generator. -/
theorem test_draw :
    let d := wardDraw 0x3F000000 0x3F4CCCCD 0x3E99999A 4 0 2000
      [(17, dec32 0x40400000), (230, dec32 0x40200000), (4096, dec32 0x40200000), (9001, dec32 0x3F800000), (15000, dec32 0xFF800000), (77777, dec32 0)]
    d.candidates = 5 ∧ d.kept = 3 ∧ d.nan = 0 := by decide +kernel

/-- Chapter 12, 'two concurrent PUBLISH commands', at the home. -/
def pubS : State :=
  { b3 with t1x := (List.range 4).map fun i => (5000 + i, { st := .granted, who := .job 1 9 })
            fab := { b3.fab with versions := (List.range 4).map fun i => (5000 + i, 4) } }
theorem test_publish :
    let x := pubS.publish 10485760000 4 4 9 false
    let y := x.2.2.2.publish 10485760000 4 4 9 false
    (x.1, x.2.2.1) = (sOK, 5) ∧ (y.1, y.2.1, y.2.2.1) = (sVersionConflict, 0, 5) ∧ y.2.2.2.fab = x.2.2.2.fab := by decide +kernel

/-- Chapter 14, 'a shaper change mid-interval'. -/
theorem test_shaper :
    let h : Shaper := { on := true, rate := 20000, depth := 32768, interval := 1000, tokens := 23168, nextAt := 1000, pend := some (5000, 8192, 1000) }
    (h.refill.tokens, h.refill.rem, h.refill.nextAt) = (8192, 0, 2000) ∧
        ({ h.refill with tokens := 128 } : Shaper).refill.tokens = 5128 := by
  decide +kernel

/-- Chapter 14, 'adopting a gate list 2 ms in the future'. -/
theorem test_gate_entries :
    gateEntries (pk [(16, 2)] 0 (toLE 64 (0x00004E20010000FF + 0x0001388001FFFFFF * 2 ^ 64))) = [(0x010000FF, 20000), (0x01FFFFFF, 80000)] := by
  decide +kernel

/-- 05 R163: 448 and 2^-9 in E4M3, 0.4375 in E3M2; 06 R224: RECIP of 2 and of 0, EXP of 0 and of 1. -/
theorem test_formats :
    [enc32 (decElem 0 0x7E), enc32 (decElem 0 0x01), enc32 (decElem 2 7)] = [0x43E00000, 0x3B000000, 0x3EE00000] ∧
    [recip32 (dec32 0x40000000), recip32 (dec32 0), exp32 (dec32 0), exp32 (dec32 0x3F800000)] = [0x3F000000, 0x7F800000, 0x3F800000, 0x402DF854] := by
  decide +kernel

/-- FP32 to FP16 and to BF16 by hand: a tie to the even infinity, the same truncated, ties to even. -/
theorem test_narrowing :
    [encIeee 5 10 false (dec32 0x477FF000), encIeee 5 10 true (dec32 0x477FF000), encIeee 8 7 false (dec32 0x3F808000),
     encIeee 8 7 false (dec32 0x3F818000)] = [0x7C00, 0x7BFF, 0x3F80, 0x3F82] := by decide +kernel

/-- 12 R377. -/
theorem test_atomics : [atomicNew 0 (2 ^ 64 - 1) 2 0, atomicNew 1 5 9 0, atomicNew 2 5 5 7, atomicNew 2 5 6 7] = [1, 9, 7, 5] := by decide +kernel

/-! ## One step by hand -/

/-- 02 R58: NOP's completion, the first of its ring. -/
theorem test_nop : (runs1 (.nop { pk [] with tag := 0x0203 }) b1).hostWr = [(4096, [0, 0, 3, 2, 1, 0, 1, 0, 0x80] ++ List.replicate 23 0)] := by
  decide +kernel
/-- 02 R58, R62, R69: opcode 0x00FF, with a handle: BAD_OPCODE names both. -/
theorem test_undefined_opcode :
    (runs1 (.nop { pk [] 7 with undef := some 0x00FF }) b1).hostWr = [(4096, [1, 1, 0, 0, 0xFF, 0, 1, 0, 0x80, 0, 0, 0, 7] ++ List.replicate 19 0)] ∧
    (Instr.nop { undef := some 0x00FF }).wf = true := by decide +kernel
/-- 02 R50: an index at the ring's entry count. -/
theorem test_doorbell_count : ((runs1 (.submissionDoorbell 0 4 64) b1).sqr 0).st = .error ∧
    ((runs1 (.submissionDoorbell 0 4 63) b1).sqr 0).tail = 63 := by
  decide +kernel
/-- 03 R113. -/
theorem test_cancel : ((runs1 (.cancel (pk [] (h1 0))) b1).ctx 0).st = .ended ∧
    ((runs1 (.cancel (pk [] (h1 0))) b1).ctx 0).endStatus = sCancelled := by
  decide +kernel
/-- 03 R83, R117: the generation of a released context, which wraps past 0. -/
theorem test_release : ((runs1 (.releaseContext (pk [] (h1 9))) b1).ctx 9).gen = 2 ∧ nextGen 65535 = 1 := by decide +kernel
/-- 06 R215: A[3] = A[2] × 7, and a sum that wraps. -/
theorem test_arithmetic :
    let d := BitVec.ofNat 512 (opMul + 3 * 2 ^ 128 + 2 * 2 ^ 132 + 7 * 2 ^ 192)
    let s := engS 2 d.toNat 2
    let t := runs1 (.mul (eng 2) d) { s with pcs := (s.pcs.map fun p => (p.1, { p.2 with core := [{ engines := List.replicate 9 { regs := (List.range 16).map (· + 4) } }] })) }
    ((((t.pc 16).core.getD 0 {}).engines.getD 2 {}).regs.getD 3 0, (((t.pc 16).core.getD 0 {}).engines.getD 2 {}).pos) = (42, 1) := by decide +kernel
/-- 11 R362: an extent granted, and its place. -/
theorem test_grant :
    let t := runs1 (.grantExtent (pk [(0, 1), (2, 1), (16, 1), (48, 1)])) (tight b2)
    t.ext 1 3000 = { st := .granted, who := .tenant 1 } ∧ t.usageOf 1 1 = b2.usageOf 1 1 + 1 := by decide +kernel
/-- 13 R429. -/
theorem test_port_enable : ((runs1 (.portEnable (pk [(0, 1)])) b3).link 1).st = .training ∧
    ((runs1 (.portRestore (pk [(0, 2), (8, 4)])) b3).link 2).st = .unmapped := by
  decide +kernel
/-- 15 R472: the entry that matches, in a table of one. -/
theorem test_search : (b5.searchOne 1 false 5 (2 ^ 160 - 1)).1.map (fun h => h.2.result) = some 9 ∧
    (b5.searchOne 1 false 4 (2 ^ 160 - 1)).1 = none := by
  decide +kernel
/-- 18 R567: power lost. -/
theorem test_power_loss : (runs1 .sysPwrokFall b3).runs = false ∧ (runs1 .sysPwrokFall b3).hbm = [] := by decide +kernel

end Sys2Proof.Tests
end

section
/-! The state at reset: what its tables hold for every index, and O4. -/

namespace Sys2Proof.Machine

/-! ## Tables that list nothing -/

@[simp] theorem Tab.getD_nil {α : Type} (d : α) (a : Nat) : Tab.getD d ([] : Tab α) a = d := rfl

@[simp] theorem inRuns_nil (e : Nat) : inRuns [] e = false := rfl

/-! ## The tables at reset: each lists nothing, so every index holds the default of its type -/

namespace State

@[simp] theorem reset_sqr (n : Nat) : reset.sqr n = {} := Tab.getD_nil _ n
@[simp] theorem reset_cqr (n : Nat) : reset.cqr n = {} := Tab.getD_nil _ n
@[simp] theorem reset_oqr (n : Nat) : reset.oqr n = {} := Tab.getD_nil _ n
@[simp] theorem reset_ctx (i : Nat) : reset.ctx i = {} := Tab.getD_nil _ i
@[simp] theorem reset_part (k : Nat) : reset.part k = {} := Tab.getD_nil _ k
@[simp] theorem reset_link (l : Nat) : reset.link l = {} := Tab.getD_nil _ l
@[simp] theorem reset_table (k : Nat) : reset.table k = {} := Tab.getD_nil _ k

/-- 11 R342, R343: no run of T1 is reserved or lent to the tier cache yet, so an extent of either tier is what its table holds. -/
@[simp] theorem reset_ext (t e : Nat) : reset.ext t e = {} := by
  have hreserved : (inRuns reset.t1Res e || inRuns reset.t1Map e) = false := by simp [reset]
  have hcache : inRuns reset.t1Cache e = false := inRuns_nil e
  unfold State.ext
  by_cases ht : t = 2
  · rw [if_pos ht]; exact Tab.getD_nil _ e
  · rw [if_neg ht, hreserved, hcache]; exact Tab.getD_nil _ e

/-! ## The status word and the recovery state at reset -/

/-- 02 R42: the fields of `dev_status` and the host interface's enable. -/
theorem reset_statusWord :
    reset.host.ready = false ∧ reset.compo.roleKnown = false ∧ reset.rcv.fatal = false ∧ reset.host.cfgError = false ∧
      reset.rcv.ctlRestart = false ∧ reset.host.avail = false ∧ reset.rcv.fatalCode = 0 ∧ reset.host.enable = false :=
  ⟨rfl, rfl, rfl, rfl, rfl, rfl, rfl, rfl⟩

/-- 17 R545, R552: the module is in service, and nothing is logged. -/
theorem reset_recovery : reset.rcv.modSt = .inService ∧ reset.rcv.log = [] ∧ reset.rcv.logSeq = 0 := ⟨rfl, rfl, rfl⟩

end State

/-- Settles O4: the tables list nothing at reset, so every ring, context, partition, extent, port and Tumbler table is the default of its
type; the other fields are single values. -/
theorem resetHoldsWhatTheSpecGives : Obligations.ResetHoldsWhatTheSpecGives := by
  have hrings : ∀ n, (State.reset.sqr n).st = .absent ∧ (State.reset.cqr n).st = .absent ∧ (State.reset.oqr n).st = .absent := by simp
  have hctxs : ∀ i, (State.reset.ctx i).st = .free ∧ (State.reset.ctx i).gen = 1 := by simp
  have hparts : ∀ k, (State.reset.part k).st = .absent := by simp
  have hexts : ∀ t e, (State.reset.ext t e).st = .free := by simp
  have hlinks : ∀ l, (State.reset.link l).st = .down := by simp
  have htables : ∀ k, (State.reset.table k).active = false := by simp
  obtain ⟨hservice, hlog, hseq⟩ := State.reset_recovery
  exact ⟨rfl, rfl, rfl, State.reset_statusWord, hrings, hctxs, hparts, hexts, hlinks, htables, hservice, hlog, hseq, rfl⟩

end Sys2Proof.Machine
end

section
/-! Power: the commands and events of chapter 01 and of chapter 18, each case of each command's effect, O18 and O34. -/

namespace Sys2Proof.Machine

/-! ## The power commands (01 R30, R31, R35, R17, 18 R568, R569) -/

theorem setPowerMode_completes_inForce :
    Completes rowSetPowerMode .setPowerMode (fun p u => p.f 7 0 = u.pow.mode) (fun _ _ => { status := sOkAlready }) same :=
  .of (fun _ _ => rfl) fun _ _ hmode => if_pos hmode

/-- 01 R30, R31: a change of mode commits at once and completes when the transition of the budgets ends. -/
theorem setPowerMode_begins_transition :
    Begins rowSetPowerMode .setPowerMode (fun p u => p.f 7 0 ≠ u.pow.mode) (fun p _ => .power (p.f 7 0)) true noBound
      (fun p u => u.startTrans (p.f 7 0)) :=
  .of (fun _ _ => rfl) fun _ _ hmode => if_neg hmode

theorem getCapabilities_completes :
    Completes rowGetCapabilities .getCapabilities always
      (fun p u => { wr := [(p.f 127 64, u.capView (if p.b 16 then none else some (p.f 11 0)))] }) same :=
  .of (fun _ _ => rfl) fun _ _ _ => rfl

theorem sampleCounters_completes :
    Completes rowSampleCounters .sampleCounters always
      (fun p u => { wr := [(p.f 191 128, u.islandBlock (bitsSet 104 p.v))] }) same :=
  .of (fun _ _ => rfl) fun _ _ _ => rfl

/-- What keeps ENTER_LOW_POWER waiting: the stacks' way out of self-refresh (18 R569), or a flash write before OFF_READY (18 R570). -/
def levelMustWait (p : Pkt) (u : State) : Prop :=
  (u.pow.level = 2 ∧ p.f 1 0 < 2) ∨ (p.f 1 0 = 3 ∧ u.idn.flashBusy = true)

theorem enterLowPower_completes_inForce :
    Completes rowEnterLowPower .enterLowPower (fun p u => p.f 1 0 = u.pow.level) (fun _ _ => { status := sOkAlready }) same :=
  .of (fun _ _ => rfl) fun _ _ hlevel => if_pos hlevel

theorem enterLowPower_begins_wait :
    Begins rowEnterLowPower .enterLowPower (fun p u => p.f 1 0 ≠ u.pow.level ∧ levelMustWait p u)
      (fun p _ => .lowPower (p.f 1 0)) true noBound same :=
  .of (fun _ _ => rfl) fun _ _ ⟨hlevel, hwait⟩ => (if_neg hlevel).trans (if_pos hwait)

theorem enterLowPower_completes_setLevel :
    Completes rowEnterLowPower .enterLowPower (fun p u => p.f 1 0 ≠ u.pow.level ∧ ¬levelMustWait p u) (fun _ _ => {})
      (fun p u => u.setLevel (p.f 1 0)) :=
  .of (fun _ _ => rfl) fun _ _ ⟨hlevel, hwait⟩ => (if_neg hlevel).trans (if_neg hwait)

/-- Settles O18: the cases of each command are the branches of its row's effect. -/
theorem powerCommandsComplete : Obligations.PowerCommandsComplete :=
  ⟨setPowerMode_completes_inForce, setPowerMode_begins_transition, getCapabilities_completes, sampleCounters_completes,
    enterLowPower_completes_inForce, enterLowPower_begins_wait, enterLowPower_completes_setLevel⟩

/-! ## Events with a guard -/

/-- An event whose effect stands behind one test happens exactly where the test succeeds. -/
theorem Happens.of_guard {i : Instr} {g : State → Bool} {due : State → Prop} {t : State → State} (hg : ∀ s, g s = true ↔ due s)
    (hx : ∀ s, exec i s = if g s then .next (t s) else .next s) : Happens i due t :=
  ⟨fun s hdue => (hx s).trans (if_pos ((hg s).2 hdue)), fun s hnot => (hx s).trans (if_neg fun h => hnot ((hg s).1 h))⟩

/-! ## Windows, trips and PROCHOT (01 R24, 18 R576 to R578) -/

theorem powerWindow_happens (m : PowerMeas) :
    Happens (.powerWindow m) (fun s => s.runs = true ∧ s.pow.windowAt + us (s.kv kPowerWindow) ≤ s.now) (fun s => s.windowEnd m) :=
  .of_guard (g := fun s => s.runs && s.pow.windowAt + us (s.kv kPowerWindow) ≤ s.now) (by simp) fun _ => rfl

theorem dieOvertempTrip_happens (d t : Nat) :
    Happens (.dieOvertempTrip d t) (fun s => s.runs = true ∧ 110 ≤ t) State.overtemp :=
  .of_guard (g := fun s => s.runs && 110 ≤ t) (by simp) fun _ => rfl

theorem prochotAssert_happens :
    Happens .prochotAssert (fun s => s.runs = true ∧ s.pow.prochot = false)
      (fun s => { s with pow := { s.pow with prochot := true, prochotAt := s.now } }) :=
  .of_guard (g := fun s => s.runs && !s.pow.prochot) (by simp) fun _ => rfl

theorem prochotDeassert_happens :
    Happens .prochotDeassert (fun s => s.runs = true) (fun s => { s with pow := { s.pow with prochot := false } }) :=
  .of_guard (g := State.runs) (fun _ => Iff.rfl) fun _ => rfl

/-! ## Rails (18 R561 to R565) -/

/-- The board after a rail's output has been read. -/
def State.railRead (s : State) (r v i : Nat) : Board :=
  { s.board with vout := Tab.put 0 s.board.vout r v, iout := Tab.put 0 s.board.iout r i }

/-- A poll while the device runs: within tolerance the rail's record of a bad reading goes; outside it the first such reading is timed,
and one that is 1 ms after the first is a rail fault. -/
theorem exec_pmbusPoll {s : State} (r v i : Nat) (hruns : s.runs = true) :
    exec (.pmbusPoll r v i) s =
      if s.railOk r v then .next { s with board := { s.railRead r v i with railBad := Tab.erase s.board.railBad r } }
      else match Tab.find? s.board.railBad r with
        | none => .next { s with board := { s.railRead r v i with railBad := Tab.set s.board.railBad r s.now } }
        | some t =>
          if t + ms 1 ≤ s.now then .next (({ s with board := s.railRead r v i } : State).railFault r 0 v)
          else .next { s with board := s.railRead r v i } :=
  if_neg (by simp [hruns])

theorem pmbusPoll_acts_inTolerance (r v i : Nat) :
    Acts (.pmbusPoll r v i) (fun s => s.runs = true ∧ s.railOk r v = true)
      (fun s => { s with board := { s.railRead r v i with railBad := Tab.erase s.board.railBad r } }) :=
  fun s ⟨hruns, hok⟩ => by rw [exec_pmbusPoll r v i hruns, if_pos hok]

theorem pmbusPoll_acts_firstBad (r v i : Nat) :
    Acts (.pmbusPoll r v i) (fun s => s.runs = true ∧ s.railOk r v = false ∧ Tab.find? s.board.railBad r = none)
      (fun s => { s with board := { s.railRead r v i with railBad := Tab.set s.board.railBad r s.now } }) :=
  fun s ⟨hruns, hbad, hnone⟩ => by rw [exec_pmbusPoll r v i hruns, if_neg (by simp [hbad]), hnone]

theorem pmbusPoll_acts_stillBad (r v i t : Nat) :
    Acts (.pmbusPoll r v i)
      (fun s => s.runs = true ∧ s.railOk r v = false ∧ Tab.find? s.board.railBad r = some t ∧ s.now < t + ms 1)
      (fun s => { s with board := s.railRead r v i }) :=
  fun s ⟨hruns, hbad, hsince, hearly⟩ => by
    rw [exec_pmbusPoll r v i hruns, if_neg (by simp [hbad]), hsince]
    exact if_neg (Nat.not_le.mpr hearly)

theorem pmbusPoll_acts_fault (r v i t : Nat) :
    Acts (.pmbusPoll r v i)
      (fun s => s.runs = true ∧ s.railOk r v = false ∧ Tab.find? s.board.railBad r = some t ∧ t + ms 1 ≤ s.now)
      (fun s => ({ s with board := s.railRead r v i } : State).railFault r 0 v) :=
  fun s ⟨hruns, hbad, hsince, hlate⟩ => by
    rw [exec_pmbusPoll r v i hruns, if_neg (by simp [hbad]), hsince]
    exact if_pos hlate

/-- 18 R565: the first regulator whose status word reports a fault stops the device. -/
theorem pmbAlert_happens {st : List (BitVec 16)} {w : BitVec 16} {r : Nat} (se : List Nat)
    (hfirst : ((st.zip (List.range 10)).find? fun x => statusFault x.1) = some (w, r)) :
    Happens (.pmbAlert st se) (fun s => s.runs = true) (fun s => s.railFault r w.toNat (se.getD r 0)) := by
  refine .of_guard (g := State.runs) (fun _ => Iff.rfl) fun s => ?_
  change execPmbAlert st se s = _
  unfold execPmbAlert
  rw [hfirst]
  cases s.runs <;> rfl

/-- 18 R564: the adaptive loop has not stepped in the last 100 µs. -/
def State.loopRested (s : State) : Bool :=
  match s.board.voutAt with | some t => t + us 100 ≤ s.now | none => true

theorem State.loopRested_iff (s : State) : s.loopRested = true ↔ ∀ t, s.board.voutAt = some t → t + us 100 ≤ s.now := by
  unfold State.loopRested
  cases s.board.voutAt <;> simp

theorem timingMonitorReport_happens (c f : Nat) :
    Happens (.timingMonitorReport c f) (fun s => s.runs = true ∧ ∀ t, s.board.voutAt = some t → t + us 100 ≤ s.now)
      (fun s => { s with board := { s.board with
        vddCd := loopStep 650 850 c s.board.vddCd, vddFd := loopStep 700 800 f s.board.vddFd,
        voutAt := if loopStep 650 850 c s.board.vddCd = s.board.vddCd ∧ loopStep 700 800 f s.board.vddFd = s.board.vddFd
          then s.board.voutAt else some s.now } }) :=
  .of_guard (g := fun s => s.runs && s.loopRested) (fun s => by rw [Bool.and_eq_true, s.loopRested_iff]) fun s => by
    change (if (!(s.runs && s.loopRested)) = true then _ else _) = _
    cases s.runs && s.loopRested <;> rfl

/-! ## The power pin (18 R566, R567) -/

theorem sysPwrokRise_happens :
    Happens .sysPwrokRise (fun s => s.board.pwrok = false) (fun s => { s with board := { s.board with pwrok := true } }) :=
  .of_guard (g := fun s => !s.board.pwrok) (by simp) fun s => by
    change (if s.board.pwrok = true then _ else _) = _
    cases s.board.pwrok <;> rfl

theorem sysPwrokFall_happens : Happens .sysPwrokFall (fun s => s.board.pwrok = true) State.powerOff :=
  .of_guard (g := fun s => s.board.pwrok) (fun _ => Iff.rfl) fun _ => rfl

/-! ## The flash (18 R574, 16 R521) -/

theorem flashReq_happens :
    Happens .flashReq (fun s => s.board.pwrok = true)
      (fun s => { s with board := { s.board with flashReq := true, flashGnt := s.board.flashGnt || !s.idn.flashBusy } }) :=
  .of_guard (g := fun s => s.board.pwrok) (fun _ => Iff.rfl) fun _ => rfl

/-- The state once the device has the flash back from the board. -/
def State.flashBack (s : State) : State := { s with board := { s.board with flashReq := false, flashGnt := false } }

/-- A release takes the flash back, and the firmware, where it is up, goes on with what waited for it. -/
theorem exec_flashRelease {s : State} (hpower : s.board.pwrok = true) (hreq : s.board.flashReq = true) :
    exec .flashRelease s = .next (if s.fwUp then s.flashBack.nextPersist else s.flashBack) :=
  if_pos (by simp [hpower, hreq])

theorem flashRelease_acts_up :
    Acts .flashRelease (fun s => s.board.pwrok = true ∧ s.board.flashReq = true ∧ s.fwUp = true) (fun s => s.flashBack.nextPersist) :=
  fun s ⟨hpower, hreq, hup⟩ => by rw [exec_flashRelease hpower hreq, if_pos hup]

theorem flashRelease_acts_down :
    Acts .flashRelease (fun s => s.board.pwrok = true ∧ s.board.flashReq = true ∧ s.fwUp = false) State.flashBack :=
  fun s ⟨hpower, hreq, hdown⟩ => by rw [exec_flashRelease hpower hreq, if_neg (by simp [hdown])]

/-- The STAGE_MANIFEST whose flash write is in progress, with the bytes it writes. -/
def State.flashWriter (s : State) : Option (Inflight × List Byte) :=
  s.inflight.findSome? fun f => match f.wait with
    | .persist _ b _ => if f.committed then some (f, b) else none
    | _ => none

/-- The state once the flash write in progress has ended and its command has completed. -/
def State.flashWritten (s : State) : State :=
  let u : State := { s with idn := { s.idn with flashBusy := false } }
  match s.flashWriter with
  | some (f, b) => (u.flashManifest b).finish f {}
  | none => u

/-- The state once an ENTER_LOW_POWER that waited for the flash has entered OFF_READY (18 R570). -/
def State.offReadyEntered (s : State) : State :=
  match s.levelWait with
  | some (f, 3) => (s.setLevel 3).finish f {}
  | _ => s

theorem State.offReadyEntered_of_none {s : State} (h : s.levelWait = none) : s.offReadyEntered = s := by
  unfold State.offReadyEntered
  rw [h]

/-- The end of a flash write: OFF_READY, then the board's request, then the next manifest have the flash, in this order. -/
theorem exec_flashWriteComplete {s : State} (hruns : s.runs = true) (hbusy : s.idn.flashBusy = true) :
    exec .flashWriteComplete s = .next
      (let u := s.flashWritten.offReadyEntered
       if u.board.flashReq then { u with board := { u.board with flashGnt := true } } else u.nextPersist) :=
  if_pos (by simp [hruns, hbusy])

theorem flashWriteComplete_acts (f : Inflight) (b : List Byte) (u : State) :
    Acts .flashWriteComplete
      (fun s => s.runs = true ∧ s.idn.flashBusy = true ∧ s.flashWriter = some (f, b) ∧
        (({ s with idn := { s.idn with flashBusy := false } } : State).flashManifest b).finish f {} = u ∧ u.levelWait = none ∧
        u.board.flashReq = false)
      (fun _ => u.nextPersist) := by
  rintro s ⟨hruns, hbusy, hwriter, hdone, hlevel, hreq⟩
  have hwritten : s.flashWritten = u := by unfold State.flashWritten; rw [hwriter]; exact hdone
  rw [exec_flashWriteComplete hruns hbusy, hwritten, State.offReadyEntered_of_none hlevel]
  dsimp only
  rw [if_neg (by simp [hreq])]

theorem flashWriteComplete_acts_idle : Acts .flashWriteComplete (fun s => s.runs = true ∧ s.idn.flashBusy = false) id :=
  fun _ ⟨_, hidle⟩ => if_neg (by simp [hidle])

/-- 18 R569: once the stacks have left self-refresh, the level asked for comes into force and its command completes. -/
theorem selfRefreshExit_acts (f : Inflight) (l : Nat) :
    Acts .selfRefreshExit (fun s => s.runs = true ∧ s.levelWait = some (f, l) ∧ s.pow.level = 2 ∧ l < 2)
      (fun s => (s.setLevel l).finish f {}) := by
  rintro s ⟨hruns, hwait, hlevel, hl⟩
  change execSelfRefreshExit s = _
  unfold execSelfRefreshExit
  rw [hwait]
  exact if_pos (by simp [hruns, hlevel, hl])

/-- Settles O34: each clause is a branch of the event's effect under the test that guards it. -/
theorem powerEventsAct : Obligations.PowerEventsAct :=
  ⟨powerWindow_happens, pmbusPoll_acts_inTolerance, pmbusPoll_acts_firstBad, pmbusPoll_acts_stillBad, pmbusPoll_acts_fault,
    fun _ se _ _ => pmbAlert_happens se, timingMonitorReport_happens, dieOvertempTrip_happens, prochotAssert_happens,
    prochotDeassert_happens, sysPwrokRise_happens, sysPwrokFall_happens, flashReq_happens, flashRelease_acts_up,
    flashRelease_acts_down, flashWriteComplete_acts, flashWriteComplete_acts_idle, selfRefreshExit_acts⟩

end Sys2Proof.Machine
end

section
/-! The queue and what every host command shares: packets left in their rings, fetch faults, refusals and reads; O3, O14, O15, O16. -/

namespace Sys2Proof.Machine

/-! ## The queue (log entries 3 and 5) -/

/-- Settles O3: every command but SYS_PWROK's edges, and a step of time, keeps the queue's rest and the record of outputs (`Evolves`);
the edges keep them too. -/
theorem commandsAreTakenInOrder : Obligations.CommandsAreTakenInOrder := by
  intro s t hstep
  rcases step_cases hstep with ⟨hempty, -, rfl⟩ | ⟨hempty, -, htime⟩ | ⟨rest, ⟨hfront, -, rfl⟩ | ⟨hfront, -, rfl⟩⟩ |
    ⟨c, rest, hfront, hkept⟩
  · exact ⟨by rw [hempty]; rfl, List.prefix_rfl, List.prefix_rfl⟩
  · have hqueue : t.pending = s.pending := htime.queue
    exact ⟨by rw [hqueue, hempty]; rfl, htime.hostWr, htime.msix⟩
  · exact ⟨by rw [hfront]; rfl, List.prefix_rfl, List.prefix_rfl⟩
  · exact ⟨by rw [hfront]; rfl, List.prefix_rfl, List.prefix_rfl⟩
  · exact ⟨by rw [hkept.queue, hfront]; rfl, hkept.hostWr, hkept.msix⟩

/-! ## Taken, refused and faulted packets (02 R51, R57, R61, R62) -/

/-- Each opcode of 02 R69 is performed as `hostCommand` performs its row. -/
theorem exec_hostRow : ∀ rc ∈ hostRows, ∀ (p : Pkt) (s : State), exec (rc.2 p) s = .next (hostCommand rc.1 p s) := by
  simp only [hostRows, List.cons_append, List.nil_append, List.forall_mem_cons, List.not_mem_nil, IsEmpty.forall_iff,
    implies_true, and_true]
  and_intros <;> exact fun _ _ => rfl

/-- Settles O14: `hostCommand` leaves a packet it may not take, and completes one whose fetch faults in the state it was taken in. -/
theorem packetsWaitOrFault : Obligations.PacketsWaitOrFault := by
  intro rc hrow p s
  rw [exec_hostRow rc hrow p s]
  exact ⟨fun hwait => congrArg _ (hostCommand_waiting hwait),
    fun htake hfault => ⟨_, .finish s rc.1 p _ _, rfl, congrArg _ (hostCommand_fetchFault htake hfault)⟩⟩

/-- Settles O15: a refusal completes the command in the state it was taken in. -/
theorem refusalsHaveNoSideEffect : Obligations.RefusalsHaveNoSideEffect := by
  intro rc hrow p s a htake hfetched hrefused
  rw [exec_hostRow rc hrow p s]
  exact ⟨_, .finish s rc.1 p _ a, rfl, congrArg _ (hostCommand_refused htake hfetched hrefused)⟩

/-! ## Reading commands -/

/-- The row's effect is its answer alone. -/
def CmdRow.Reads (r : CmdRow) : Prop := ∀ p id u, ∃ a, r.act p id u = .done a u

/-- The row's effect is its answer alone, but that it draws free values for what the spec leaves open (log entry 8). -/
def CmdRow.ReadsFree (r : CmdRow) : Prop := ∀ p id u, ∃ a n, r.act p id u = .done a { u with free := n }

/-- The row is the command's, and a packet of it that is accepted changes only what a completion changes. -/
theorem CmdRow.Reads.onlyCompletes {r : CmdRow} {c : Pkt → Instr} (hreads : r.Reads)
    (hexec : ∀ p s, exec (c p) s = .next (hostCommand r p s)) (p : Pkt) (s : State) (haccepted : Accepted r p s) :
    ∃ t, exec (c p) s = .next t ∧ OnlyCompletes s t := by
  obtain ⟨a, hact⟩ := hreads p s.cmdNext (s.taken r p)
  exact ⟨_, (hexec p s).trans (congrArg _ (hostCommand_done haccepted hact)), .finish s r p _ a⟩

/-- What a posting changes does not depend on the free values drawn. -/
theorem Posts.withFree {s t : State} (h : Posts s t) (n : Nat) : Posts { s with free := n } { t with free := n } := by
  have hposting := congrArg (fun u : State => { u with free := n }) (show t = s.posting t from h)
  exact hposting

theorem CmdRow.ReadsFree.onlyCompletes {r : CmdRow} {c : Pkt → Instr} (hreads : r.ReadsFree)
    (hexec : ∀ p s, exec (c p) s = .next (hostCommand r p s)) (p : Pkt) (s : State) (haccepted : Accepted r p s) :
    ∃ t, exec (c p) s = .next t ∧ OnlyCompletes { s with free := t.free } t := by
  obtain ⟨a, n, hact⟩ := hreads p s.cmdNext (s.taken r p)
  refine ⟨_, (hexec p s).trans (congrArg _ (hostCommand_done haccepted hact)), ?_⟩
  have hfree : (s.answered r p a { s.taken r p with free := n }).free = n := State.finish_free ..
  rw [hfree]
  exact OnlyCompletes.of_posts (((s.taken_posts r p).withFree n).trans (State.finish_posts _ _ a))

theorem rowNop_reads : rowNop.Reads := fun _ _ _ => ⟨_, rfl⟩

/-- 02 R76: a key with no row answers a refusal, and reads nothing. -/
theorem rowConfigGet_reads : rowConfigGet.Reads := fun p _ u => by
  dsimp only [rowConfigGet]
  cases keyRow? (p.f 31 0) <;> exact ⟨_, rfl⟩

theorem rowGetCapabilities_reads : rowGetCapabilities.Reads := fun _ _ _ => ⟨_, rfl⟩
theorem rowSampleCounters_reads : rowSampleCounters.Reads := fun _ _ _ => ⟨_, rfl⟩

theorem rowQueryRequest_reads : rowQueryRequest.Reads := fun p _ u => by
  dsimp only [rowQueryRequest]
  cases u.ctxNamed p.handle <;> exact ⟨_, rfl⟩

theorem rowQueryLatch_reads : rowQueryLatch.Reads := fun p _ u => by
  dsimp only [rowQueryLatch]
  cases latchAsked p u <;> exact ⟨_, rfl⟩

theorem rowQueryQuota_reads : rowQueryQuota.Reads := fun _ _ _ => ⟨_, rfl⟩
theorem rowQueryNode_reads : rowQueryNode.Reads := fun _ _ _ => ⟨_, rfl⟩
theorem rowPortStatus_reads : rowPortStatus.Reads := fun _ _ _ => ⟨_, rfl⟩
theorem rowReadGateList_reads : rowReadGateList.Reads := fun _ _ _ => ⟨_, rfl⟩

/-- 17 R547: with no entry from the asked sequence on, nothing is written to the result buffer. -/
theorem rowReadEventLog_reads : rowReadEventLog.Reads := fun p _ u => by
  dsimp only [rowReadEventLog]
  cases ((u.logFrom (p.f 31 0)).take (p.f 44 32)).isEmpty <;> exact ⟨_, rfl⟩

theorem rowGetCertificates_reads : rowGetCertificates.Reads := fun _ _ _ => ⟨_, rfl⟩
theorem rowReadAttnCounters_reads : rowReadAttnCounters.Reads := fun _ _ _ => ⟨_, rfl⟩

theorem rowReadCoreStats_readsFree : rowReadCoreStats.ReadsFree := fun _ _ _ => ⟨_, _, rfl⟩
theorem rowReadExpanderStats_readsFree : rowReadExpanderStats.ReadsFree := fun _ _ _ => ⟨_, _, rfl⟩

/-- Settles O16: the effect of each row is its answer. -/
theorem readingCommandsChangeNothing : Obligations.ReadingCommandsChangeNothing := by
  unfold Obligations.ReadingCommandsChangeNothing
  simp only [List.forall_mem_cons, List.not_mem_nil, IsEmpty.forall_iff, implies_true, and_true]
  exact ⟨⟨rowNop_reads.onlyCompletes fun _ _ => rfl, rowConfigGet_reads.onlyCompletes fun _ _ => rfl,
      rowGetCapabilities_reads.onlyCompletes fun _ _ => rfl, rowSampleCounters_reads.onlyCompletes fun _ _ => rfl,
      rowQueryRequest_reads.onlyCompletes fun _ _ => rfl, rowQueryLatch_reads.onlyCompletes fun _ _ => rfl,
      rowQueryQuota_reads.onlyCompletes fun _ _ => rfl, rowQueryNode_reads.onlyCompletes fun _ _ => rfl,
      rowPortStatus_reads.onlyCompletes fun _ _ => rfl, rowReadGateList_reads.onlyCompletes fun _ _ => rfl,
      rowReadEventLog_reads.onlyCompletes fun _ _ => rfl, rowGetCertificates_reads.onlyCompletes fun _ _ => rfl,
      rowReadAttnCounters_reads.onlyCompletes fun _ _ => rfl⟩,
    rowReadCoreStats_readsFree.onlyCompletes fun _ _ => rfl, rowReadExpanderStats_readsFree.onlyCompletes fun _ _ => rfl⟩

end Sys2Proof.Machine
end

section
/-! The host interface: its commands, its register words written in parts, and its events; O17, O32, O33. -/

namespace Sys2Proof.Machine

/-! ## NOP, the ring commands and the configuration keys (02 R71, R73, R74, R76, R77) -/

theorem nop_completes : Completes rowNop .nop always (fun _ _ => {}) same := .of (fun _ _ => rfl) fun _ _ _ => rfl

theorem createRing_completes :
    Completes rowCreateRing .createRing always (fun p _ => { r0 := 0x1000 * (p.f 1 0 + 1) + 8 * p.f 15 8 }) (fun p u => u.createRing p) :=
  .of (fun _ _ => rfl) fun _ _ _ => rfl

theorem deleteRing_completes_absent :
    Completes rowDeleteRing .deleteRing (fun p u => u.ringSt (p.f 1 0) (p.f 15 8) = .absent) (fun _ _ => { status := sOkAlready }) same :=
  .of (fun _ _ => rfl) fun _ _ habsent => if_pos habsent

/-- 02 R74: a submission ring is DELETING until its commands in flight have completed. -/
theorem deleteRing_begins_submission :
    Begins rowDeleteRing .deleteRing (fun p u => u.ringSt (p.f 1 0) (p.f 15 8) ≠ .absent ∧ p.f 1 0 = 0)
      (fun p _ => .deleteRing 0 (p.f 15 8)) true noBound (fun p u => u.setRingSt 0 (p.f 15 8) .deleting) :=
  .of (fun _ _ => rfl) fun _ _ ⟨hpresent, hsubmission⟩ => (if_neg hpresent).trans (if_pos hsubmission)

theorem deleteRing_completes_drop :
    Completes rowDeleteRing .deleteRing (fun p u => u.ringSt (p.f 1 0) (p.f 15 8) ≠ .absent ∧ p.f 1 0 ≠ 0)
      (fun _ _ => {}) (fun p u => u.dropRing (p.f 1 0) (p.f 15 8)) :=
  .of (fun _ _ => rfl) fun _ _ ⟨hpresent, hother⟩ => (if_neg hpresent).trans (if_neg hother)

theorem configGet_completes (k : KeyRow) :
    Completes rowConfigGet .configGet (fun p _ => keyRow? (p.f 31 0) = some k)
      (fun p u => { r0 := u.keyValue k (p.f 63 32) % 2 ^ k.bits,
                    r1 := pack [(1, b2n (u.keyPending k (p.f 63 32))), (1, b2n k.ro), (6, 0), (2, k.ty)] }) same :=
  .of (fun _ _ => rfl) fun p _ hkey => by
    dsimp only [rowConfigGet]
    rw [hkey]
    rfl

/-- The effect of CONFIG_SET on a key that has a row: the value it has already is not recorded again (02 R77). -/
theorem rowConfigSet_act {p : Pkt} {k : KeyRow} (id : Nat) (u : State) (hkey : keyRow? (p.f 31 0) = some k) :
    rowConfigSet.act p id u =
      if u.keyValue k (p.f 63 32) = p.f 127 64 then .done { status := sOkAlready } u
      else .done {} (u.recordKey k (p.f 63 32) (p.f 127 64)) := by
  dsimp only [rowConfigSet]
  rw [hkey]

theorem configSet_completes_same (k : KeyRow) :
    Completes rowConfigSet .configSet (fun p u => keyRow? (p.f 31 0) = some k ∧ u.keyValue k (p.f 63 32) = p.f 127 64)
      (fun _ _ => { status := sOkAlready }) same :=
  .of (fun _ _ => rfl) fun _ _ ⟨hkey, hsame⟩ => (rowConfigSet_act _ _ hkey).trans (if_pos hsame)

theorem configSet_completes_record (k : KeyRow) :
    Completes rowConfigSet .configSet (fun p u => keyRow? (p.f 31 0) = some k ∧ u.keyValue k (p.f 63 32) ≠ p.f 127 64)
      (fun _ _ => {}) (fun p u => u.recordKey k (p.f 63 32) (p.f 127 64)) :=
  .of (fun _ _ => rfl) fun _ _ ⟨hkey, hnew⟩ => (rowConfigSet_act _ _ hkey).trans (if_neg hnew)

/-- Settles O17: the cases of each command are the branches of its row's effect. -/
theorem hostInterfaceCommandsComplete : Obligations.HostInterfaceCommandsComplete :=
  ⟨nop_completes, createRing_completes, deleteRing_completes_absent, deleteRing_begins_submission, deleteRing_completes_drop,
    configGet_completes, configSet_completes_same, configSet_completes_record⟩

/-! ## Register words written in parts (02 R41, log entry 57) -/

theorem regWrite_split {w : Nat} (s : State) (hsplit : w ≠ 8) : regWrite w s = .fault .registerWidth := if_neg hsplit

/-- The set-up words and `host_if_ctrl` lie below the doorbells. -/
theorem doorbellAt_low {off : Nat} (hlow : off < 0x1000) : doorbellAt off = none := by
  unfold doorbellAt
  split
  · rfl
  · rw [if_neg (by omega), if_neg (by omega), if_neg (by omega)]

/-- A write of `host_if_ctrl` or of a set-up word that is not its 8 bytes stops, wherever in the word it begins. -/
theorem bar0Write_split {s : State} {off w : Nat} (v : W64) (hruns : s.runs = true)
    (hword : off / 8 = 4 ∨ off / 8 = 5 ∨ off / 8 = 6 ∨ off / 8 = 7) (hsplit : w ≠ 8 ∨ off % 8 ≠ 0) :
    s.bar0Write off w v = .fault .registerWidth := by
  have hpart : ∀ t : State, (if off % 8 = 0 then regWrite w t else .fault .registerWidth) = .fault .registerWidth := fun t => by
    split
    next haligned => exact regWrite_split t (hsplit.resolve_right (absurd haligned))
    next => rfl
  unfold State.bar0Write
  rw [if_neg (by simp [hruns]), doorbellAt_low (by omega)]
  dsimp only
  by_cases hctrl : off / 8 = 7
  · rw [if_neg (by omega), if_pos (by omega)]
    exact hpart _
  · rw [if_pos (by omega)]
    exact hpart _

/-- Settles O32: both rows of `host_if_ctrl`, and a BAR0 write to its word or a set-up word. -/
theorem splitRegisterWritesStop : Obligations.SplitRegisterWritesStop :=
  ⟨fun _ _ _ hsplit => ⟨regWrite_split _ hsplit, regWrite_split _ hsplit⟩,
    fun _ _ v _ hruns hword hsplit => bar0Write_split v hruns hword hsplit⟩

/-! ## Ready, teardown and resets (02 R43, R44) -/

theorem hostIfReady_happens :
    Happens .hostIfReady
      (fun s => s.runs = true ∧ s.host.enable = true ∧ s.host.cfgError = false ∧ s.host.ready = false ∧ s.host.tearing = false)
      (fun s => { s.adminRings with host := { s.adminRings.host with ready := true, evSeq := 0 } }) :=
  .of_guard (g := fun s => s.runs && s.host.enable && !s.host.cfgError && !s.host.ready && !s.host.tearing)
    (fun s => by simp [and_assoc]) fun _ => rfl

theorem teardownComplete_happens :
    Happens .teardownComplete (fun s => s.runs = true ∧ s.host.tearing = true ∧ s.inflight = [])
      (fun s => { s with host := { s.host with ready := false, tearing := false } }) :=
  .of_guard (g := fun s => s.runs && s.host.tearing && s.inflight.isEmpty) (fun s => by simp [and_assoc]) fun _ => rfl

theorem hostLinkDown_happens : Happens .hostLinkDown (fun s => s.runs = true) State.teardown :=
  .of_guard (g := State.runs) (fun _ => Iff.rfl) fun _ => rfl

theorem hotReset_happens : Happens .hotReset (fun s => s.runs = true) State.teardown :=
  .of_guard (g := State.runs) (fun _ => Iff.rfl) fun _ => rfl

theorem d3hotEntry_happens : Happens .d3hotEntry (fun s => s.runs = true) State.teardown :=
  .of_guard (g := State.runs) (fun _ => Iff.rfl) fun _ => rfl

/-! ## The BAR2 window (02 R45, R46) -/

/-- Place in the HBM window of an offset in BAR2. -/
def State.bar2At (s : State) (off : Nat) : Nat := s.kv kBar2Window * 2 ^ 36 + off

/-- The access is permitted and stays within the HBM window. -/
def State.bar2Permits (s : State) (off len : Nat) : Prop := s.bar2Ok (s.bar2At off) = true ∧ s.bar2At off + len ≤ hbmSize

theorem exec_bar2Access_permitted {s : State} {off len : Nat} (write : Bool) (data : List Byte) (hruns : s.runs = true)
    (hpermit : s.bar2Permits off len) :
    exec (.bar2Access write off len data) s =
      .next (if write then (s.hbmWrite (s.bar2At off) (data.take len)).cleanLines (s.bar2At off) len
        else { s with host := { s.host with bar2Data := s.hbmRead (s.bar2At off) len } }) := by
  change execBar2Access write off len data s = _
  have htest : (s.bar2Ok (s.bar2At off) && decide (s.bar2At off + len ≤ hbmSize)) = true := by
    rw [Bool.and_eq_true, decide_eq_true_eq]
    exact hpermit
  unfold execBar2Access
  rw [if_neg (by simp [hruns])]
  cases write <;> exact if_pos htest

/-- 02 R45: a denied access is counted, stores nothing, and reads as zeros. -/
theorem exec_bar2Access_denied {s : State} {off len : Nat} (write : Bool) (data : List Byte) (hruns : s.runs = true)
    (hdeny : ¬s.bar2Permits off len) :
    exec (.bar2Access write off len data) s =
      .next (if write then s.bump kBar2Denied
        else { s.bump kBar2Denied with host := { (s.bump kBar2Denied).host with bar2Data := List.replicate len 0 } }) := by
  change execBar2Access write off len data s = _
  have htest : ¬(s.bar2Ok (s.bar2At off) && decide (s.bar2At off + len ≤ hbmSize)) = true := by
    rw [Bool.and_eq_true, decide_eq_true_eq]
    exact hdeny
  unfold execBar2Access
  rw [if_neg (by simp [hruns])]
  cases write <;> exact if_neg htest

/-! ## Command bounds, interrupt delays and held tokens (02 R53, R54, R66, 04 R146) -/

/-- 02 R66: a command not past its commit point is given up at its bound; MOVE_STATE has a bound of its own. -/
theorem commandTimeout_acts (c : Nat) (f : Inflight) :
    Acts (.commandTimeout c)
      (fun s => s.runs = true ∧ s.inflight.find? (·.id == c) = some f ∧ f.committed = false ∧ f.due ≤ s.now ∧
        (∀ i, f.wait ≠ .move i) ∧ ∀ n h r, f.wait ≠ .moveAsk n h r)
      (fun s => s.abandonCmd f sTimeout) := by
  rintro s ⟨hruns, hfind, hopen, hdue, hmove, hask⟩
  change execCommandTimeout c s = _
  unfold execCommandTimeout
  rw [hfind]
  dsimp only
  split
  next i hwait => exact absurd hwait (hmove i)
  next n h r hwait => exact absurd hwait (hask n h r)
  next => exact if_pos (by simp [hruns, hopen, hdue])

/-- 02 R54: the delay of an ACTIVE completion or output ring has passed since the first entry after its last signal. -/
theorem exec_irqDelayExpiry {out : Bool} {n t : Nat} {s : State} {r : DevRing} (hring : (if out then s.oqr n else s.cqr n) = r)
    (hruns : s.runs = true) (hactive : r.st = .active) (hfirst : r.firstAt = some t) (hlate : t + us r.delay ≤ s.now) :
    exec (.irqDelayExpiry out n) s =
      .next ((if out then s.setOq n r.signalled else s.setCq n r.signalled).signalVector r.vector) := by
  change execIrqDelayExpiry out n s = _
  unfold execIrqDelayExpiry
  rw [hring]
  dsimp only
  rw [hfirst]
  exact if_pos (by simp [hruns, hactive, hlate])

theorem irqDelayExpiry_acts_completion (n t : Nat) :
    Acts (.irqDelayExpiry false n)
      (fun s => s.runs = true ∧ (s.cqr n).st = .active ∧ (s.cqr n).firstAt = some t ∧ t + us (s.cqr n).delay ≤ s.now)
      (fun s => (s.setCq n (s.cqr n).signalled).signalVector (s.cqr n).vector) :=
  fun _ ⟨hruns, hactive, hfirst, hlate⟩ => exec_irqDelayExpiry rfl hruns hactive hfirst hlate

theorem irqDelayExpiry_acts_output (n t : Nat) :
    Acts (.irqDelayExpiry true n)
      (fun s => s.runs = true ∧ (s.oqr n).st = .active ∧ (s.oqr n).firstAt = some t ∧ t + us (s.oqr n).delay ≤ s.now)
      (fun s => (s.setOq n (s.oqr n).signalled).signalVector (s.oqr n).vector) :=
  fun _ ⟨hruns, hactive, hfirst, hlate⟩ => exec_irqDelayExpiry rfl hruns hactive hfirst hlate

theorem heldTokenWrite_acts (c : Nat) (o : OutHeld) :
    Acts (.heldTokenWrite c)
      (fun s => s.runs = true ∧ s.outHeld.find? (·.ctx == c) = some o ∧ s.ringGone o.ring = false ∧ (s.oqr o.ring).room ≠ 0)
      (fun s => ((({ s with outHeld := s.outHeld.erase o } : State).oqPost o.ring o.handle o.cookie o.ent).delivered o).settleDrain c) := by
  rintro s ⟨hruns, hheld, hring, hroom⟩
  change (if s.runs = true then _ else _) = _
  rw [if_pos hruns]
  unfold State.writeHeld
  rw [hheld]
  dsimp only
  rw [if_neg (by simp [hring]), if_neg hroom]

/-- 04 R146: at the bound of a MOVE_STATE, what comes depends on what it waits for. -/
theorem exec_moveStateBoundExpiry {c : Nat} {s : State} {f : Inflight} (hruns : s.runs = true)
    (hfind : (s.inflight.find? fun g => g.id == c) = some f) (hdue : f.due ≤ s.now) :
    exec (.moveStateBoundExpiry c) s = match f.wait with
      | .moveAsk _ _ _ => .next ((s.dropTxns fun t => t.who == .command f.id).finish f (refuse sTimeout))
      | .move i => .next (s.withdraw i false)
      | _ => .next s := by
  change execMoveStateBoundExpiry c s = _
  unfold execMoveStateBoundExpiry
  rw [hfind]
  exact if_neg (by simp [hruns, hdue])

theorem moveStateBoundExpiry_acts_asking (c : Nat) (f : Inflight) (n h r : Nat) :
    Acts (.moveStateBoundExpiry c)
      (fun s => s.runs = true ∧ (s.inflight.find? fun g => g.id == c) = some f ∧ f.due ≤ s.now ∧ f.wait = .moveAsk n h r)
      (fun s => (s.dropTxns fun t => t.who == .command f.id).finish f (refuse sTimeout)) :=
  fun _ ⟨hruns, hfind, hdue, hwait⟩ => by rw [exec_moveStateBoundExpiry hruns hfind hdue, hwait]

theorem moveStateBoundExpiry_acts_opened (c : Nat) (f : Inflight) (i : Nat) :
    Acts (.moveStateBoundExpiry c)
      (fun s => s.runs = true ∧ (s.inflight.find? fun g => g.id == c) = some f ∧ f.due ≤ s.now ∧ f.wait = .move i)
      (fun s => s.withdraw i false) :=
  fun _ ⟨hruns, hfind, hdue, hwait⟩ => by rw [exec_moveStateBoundExpiry hruns hfind hdue, hwait]

/-- Settles O33: each clause is a branch of the event's effect under the test that guards it. -/
theorem hostInterfaceEventsAct : Obligations.HostInterfaceEventsAct :=
  ⟨hostIfReady_happens, teardownComplete_happens, hostLinkDown_happens, hotReset_happens, d3hotEntry_happens,
    fun _ _ data _ ⟨hruns, hpermit⟩ => exec_bar2Access_permitted true data hruns hpermit,
    fun _ _ data _ ⟨hruns, hpermit⟩ => exec_bar2Access_permitted false data hruns hpermit,
    fun _ _ data _ ⟨hruns, hdeny⟩ => exec_bar2Access_denied true data hruns hdeny,
    fun _ _ data _ ⟨hruns, hdeny⟩ => exec_bar2Access_denied false data hruns hdeny,
    commandTimeout_acts, irqDelayExpiry_acts_completion, irqDelayExpiry_acts_output, heldTokenWrite_acts,
    moveStateBoundExpiry_acts_asking, moveStateBoundExpiry_acts_opened⟩

end Sys2Proof.Machine
end

section
/-! Bad doorbells, and the bytes a BAR2 write stores; O54, O59. -/

namespace Sys2Proof.Machine

/-! ## Bad doorbells (02 R49, R50) -/

/-- A doorbell while the control firmware runs is acted on at once. -/
theorem State.doorbell_fwUp {s : State} (ty n w : Nat) (v : W64) (hup : s.fwUp = true) :
    s.doorbell ty n w v = s.ringDoorbell ty n (v.toNat % 2 ^ 32) (w == 4) := by
  obtain ⟨hruns, hrestart⟩ : s.runs = true ∧ s.rcv.ctlRestart = false := by simpa [State.fwUp] using hup
  unfold State.doorbell
  dsimp only
  rw [if_neg (by simp [hruns]), if_neg (by simp [hrestart])]

/-- Any of the four faults of a doorbell write has it discarded. -/
theorem State.ringDoorbell_bad {s : State} {ty n v : Nat} {wellFormed : Bool}
    (hbad : wellFormed = false ∨ fld v 31 20 ≠ 0 ∨ s.ringSt ty n = .absent ∨ 2 ^ s.ringLog ty n ≤ fld v 19 0) :
    s.ringDoorbell ty n v wellFormed = s.badDoorbell ty n v := by
  have htest : (wellFormed && fld v 31 20 == 0 && s.ringSt ty n != .absent && decide (fld v 19 0 < 2 ^ s.ringLog ty n)) = false := by
    rcases hbad with h | h | h | h <;> simp [h]
  unfold State.ringDoorbell
  rw [htest]
  rfl

theorem State.badDoorbell_inactive {s : State} {ty n : Nat} (v : Nat) (hst : s.ringSt ty n ≠ .active) :
    s.badDoorbell ty n v = s.postEvent 0x0002 0 (pack [(2, ty), (6, 0), (8, n), (32, v)]) 0 := by
  unfold State.badDoorbell
  rw [if_neg hst]

theorem State.badDoorbell_active {s : State} {ty n : Nat} (v : Nat) (hty : ty < 2) (hst : s.ringSt ty n = .active) :
    s.badDoorbell ty n v =
      ((s.setRingSt ty n .error).bump kRingErrors).postEvent 0x0002 0 (pack [(2, ty), (6, 0), (8, n), (32, v)]) 0 := by
  unfold State.badDoorbell
  rw [if_pos hst]
  dsimp only
  rw [if_neg (by omega)]

/-- The state set for a submission or completion ring is what its ring then has. -/
theorem State.setRingSt_ringSt (s : State) {ty : Nat} (n : Nat) (st : RingSt) (hty : ty < 2) : (s.setRingSt ty n st).ringSt ty n = st := by
  unfold State.setRingSt State.ringSt
  rcases (by omega : ty = 0 ∨ ty = 1) with rfl | rfl <;> simp

/-- A ring's state is not among what the counters and the clock hold. -/
theorem State.setRingSt_rest (s : State) (ty n : Nat) (st : RingSt) :
    (s.setRingSt ty n st).ctrs = s.ctrs ∧ (s.setRingSt ty n st).now = s.now := by
  unfold State.setRingSt
  split
  · exact ⟨rfl, rfl⟩
  · split <;> exact ⟨rfl, rfl⟩

@[simp] theorem State.bump_ctr_self (s : State) (k m ix : Nat) : (s.bump k m ix).ctr k ix = s.ctr k ix + m := Tab.getD_put_self ..

/-- Any event leaves `ring_errors` alone. -/
theorem State.postEvent_ringErrors (s : State) (c h a b : Nat) : (s.postEvent c h a b).ctr kRingErrors 0 = s.ctr kRingErrors 0 :=
  State.postEvent_ctr s c h a b 0 (by decide)

/-- 02 R59: the first word of a RING_ERROR of a submission or completion ring: type, number and the value written. -/
theorem ringErrorWord {ty : Nat} (n v : Nat) (hty : ty < 2) :
    pack [(2, ty), (6, 0), (8, n), (32, v % 2 ^ 32)] % 2 ^ 64 = ty + 256 * (n % 256) + 65536 * (v % 2 ^ 32) := by
  simp only [pack]
  omega

/-- RING_ERROR, posted in any state, is in the event log. -/
theorem State.ringError_logged (s : State) {ty : Nat} (n v : Nat) (hty : ty < 2) :
    ∃ e ∈ (s.postEvent 0x0002 0 (pack [(2, ty), (6, 0), (8, n), (32, v % 2 ^ 32)]) 0).rcv.log,
      e.event = 0x0002 ∧ e.handle = 0 ∧ e.r0 = ty + 256 * (n % 256) + 65536 * (v % 2 ^ 32) ∧ e.time = s.now := by
  obtain ⟨e, hlogged, hevent, hhandle, hword, -, htime⟩ :=
    s.postEvent_logged 0x0002 0 (pack [(2, ty), (6, 0), (8, n), (32, v % 2 ^ 32)]) 0
  exact ⟨e, hlogged, hevent, hhandle, hword.trans (ringErrorWord n v hty), htime⟩

/-- What a discarded doorbell write of a submission or completion ring leaves. -/
theorem State.badDoorbell_effect (s : State) {ty : Nat} (n v : Nat) (hty : ty < 2) :
    (s.ringSt ty n = .active → (s.badDoorbell ty n (v % 2 ^ 32)).ringSt ty n = .error ∧
        (s.badDoorbell ty n (v % 2 ^ 32)).ctr kRingErrors 0 = s.ctr kRingErrors 0 + 1) ∧
      (s.ringSt ty n ≠ .active → (s.badDoorbell ty n (v % 2 ^ 32)).ringSt ty n = s.ringSt ty n ∧
        (s.badDoorbell ty n (v % 2 ^ 32)).ctr kRingErrors 0 = s.ctr kRingErrors 0) ∧
      ∃ e ∈ (s.badDoorbell ty n (v % 2 ^ 32)).rcv.log,
        e.event = 0x0002 ∧ e.handle = 0 ∧ e.r0 = ty + 256 * (n % 256) + 65536 * (v % 2 ^ 32) ∧ e.time = s.now := by
  by_cases hst : s.ringSt ty n = .active
  · obtain ⟨hctrs, hnow⟩ := s.setRingSt_rest ty n .error
    have hcount : ((s.setRingSt ty n .error).bump kRingErrors).ctr kRingErrors 0 = s.ctr kRingErrors 0 + 1 := by
      rw [State.bump_ctr_self, State.ctr, hctrs, State.ctr]
    rw [State.badDoorbell_active _ hty hst, State.postEvent_ringSt, State.bump_ringSt, s.setRingSt_ringSt n .error hty,
      State.postEvent_ringErrors]
    exact ⟨fun _ => ⟨rfl, hcount⟩, absurd hst, hnow ▸ State.ringError_logged _ n v hty⟩
  · rw [State.badDoorbell_inactive _ hst, State.postEvent_ringSt, State.postEvent_ringErrors]
    exact ⟨fun hactive => absurd hactive hst, fun _ => ⟨rfl, rfl⟩, s.ringError_logged n v hty⟩

/-- Settles O54: while the firmware runs, each fault has the write discarded, and the two doorbells differ only in the ring's type. -/
theorem badDoorbellsPutARingInError : Obligations.BadDoorbellsPutARingInError := by
  intro s n w v ty c hdoorbell hup hfault
  have hbad : s.doorbell ty n w v = s.badDoorbell ty n (v.toNat % 2 ^ 32) := by
    rw [State.doorbell_fwUp ty n w v hup]
    exact State.ringDoorbell_bad (hfault.imp_left beq_false_of_ne)
  have hty : ty < 2 := by omega
  have hexec : exec c s = .next (s.doorbell ty n w v) := by
    rcases hdoorbell with ⟨rfl, rfl⟩ | ⟨rfl, rfl⟩ <;> rfl
  rw [hexec, hbad]
  exact ⟨_, rfl, s.badDoorbell_effect n v.toNat hty⟩

/-! ## Bytes of the HBM window (02 R45, 12 R373) -/

/-- The byte written reads as written, every other byte as before. -/
theorem State.hbmPut_hbmByte (s : State) (a c : Nat) (b : Byte) : (s.hbmPut a b).hbmByte c = if c = a then b else s.hbmByte c := by
  unfold State.hbmPut
  by_cases hsame : c = a
  · subst hsame
    rw [if_pos rfl]
    split
    next hfirmware => exact (if_pos hfirmware).trans (Mem.read_write_self ..)
    next hplain => exact (if_neg hplain).trans (Mem.read_write_self ..)
  · rw [if_neg hsame]
    unfold State.hbmByte
    split
    next hfirmware =>
      dsimp only
      split
      next hc => exact Mem.read_write_ne _ (by omega) b
      next => rfl
    next hplain =>
      dsimp only
      split
      next => rfl
      next => exact Mem.read_write_ne _ hsame b

/-- A write leaves the bytes outside its range alone. -/
theorem State.hbmWrite_hbmByte_out (s : State) (a c : Nat) (bs : List Byte) (hout : c < a ∨ a + bs.length ≤ c) :
    (s.hbmWrite a bs).hbmByte c = s.hbmByte c := by
  induction bs generalizing s a with
  | nil => rfl
  | cons b bs ih =>
    rw [List.length_cons] at hout
    rw [State.hbmWrite, ih _ _ (by omega), State.hbmPut_hbmByte, if_neg (by omega)]

/-- A byte of the range written reads as written. -/
theorem State.hbmWrite_hbmByte_in (s : State) (a i : Nat) (bs : List Byte) (hin : i < bs.length) :
    (s.hbmWrite a bs).hbmByte (a + i) = bs[i] := by
  induction bs generalizing s a i with
  | nil => cases hin
  | cons b bs ih =>
    cases i with
    | zero => rw [State.hbmWrite, State.hbmWrite_hbmByte_out _ _ _ _ (by omega), State.hbmPut_hbmByte]; exact if_pos rfl
    | succ i => rw [State.hbmWrite, show a + (i + 1) = a + 1 + i by omega]; exact ih _ _ i (Nat.lt_of_succ_lt_succ hin)

/-- A read of the range written gives the bytes written. -/
theorem State.hbmRead_hbmWrite (s : State) (a : Nat) (bs : List Byte) : (s.hbmWrite a bs).hbmRead a bs.length = bs :=
  List.ext_getElem (by simp [State.hbmRead]) fun i _ hi => by
    simp only [State.hbmRead, List.getElem_map, List.getElem_range]
    exact s.hbmWrite_hbmByte_in a i bs hi

/-- A write changes bytes of HBM and of the firmware reserve alone. -/
theorem State.hbmWrite_frame (s : State) (a : Nat) (bs : List Byte) :
    s.hbmWrite a bs = { s with hbm := (s.hbmWrite a bs).hbm, fw := (s.hbmWrite a bs).fw } := by
  induction bs generalizing s a with
  | nil => rfl
  | cons b bs ih =>
    refine (ih (s.hbmPut a b) (a + 1)).trans ?_
    rw [State.hbmWrite]
    unfold State.hbmPut
    split <;> rfl

/-- A write and the lines it makes clean: besides the bytes, the poison of lines alone changes. -/
theorem State.cleanLines_hbmWrite_frame (s : State) (a len : Nat) (bs : List Byte) :
    (s.hbmWrite a bs).cleanLines a len =
      { s with hbm := (s.hbmWrite a bs).hbm, fw := (s.hbmWrite a bs).fw,
               fab := { s.fab with hbmPoison := ((s.hbmWrite a bs).cleanLines a len).fab.hbmPoison } } := by
  have hclean := congrArg (State.cleanLines · a len) (s.hbmWrite_frame a bs)
  have hfab : (s.hbmWrite a bs).fab = s.fab := (congrArg State.fab (s.hbmWrite_frame a bs) :)
  refine hclean.trans ?_
  unfold State.cleanLines
  rw [hfab]

/-- Settles O59: a permitted write is `hbmWrite` of its data, and the lines it covers made clean hold the same bytes. -/
theorem windowWritesStoreTheirBytes : Obligations.WindowWritesStoreTheirBytes := by
  rintro off len data s hruns rfl hok hfits
  refine ⟨_, exec_bar2Access_permitted true data hruns ⟨hok, hfits⟩, ?_⟩
  rw [if_pos rfl, List.take_length]
  exact ⟨fun c hout => s.hbmWrite_hbmByte_out _ c data hout, s.hbmRead_hbmWrite _ data, s.cleanLines_hbmWrite_frame _ _ data⟩

end Sys2Proof.Machine
end

section
/-! Contexts: which handle names one, and which one a new request takes; O53. -/

namespace Sys2Proof.Machine

/-! ## Handles (03 R82) -/

/-- A handle of 32 bits whose bits [15:13] are 0 is exactly its index in [12:0] and its generation in [31:16]. -/
theorem fld_handle_iff {h i g : Nat} :
    (h < 2 ^ 32 ∧ fld h 15 13 = 0 ∧ g = fld h 31 16) ∧ fld h 12 0 = i ↔ i < 8192 ∧ g < 65536 ∧ h = handleOf i g := by
  unfold fld handleOf
  omega

/-- A handle names context `i` exactly where it is the handle of `i`, in the range of handles, and `i` is not FREE. -/
theorem State.ctxNamed_eq_some_iff {s : State} {h i : Nat} :
    s.ctxNamed h = some i ↔ i < 8192 ∧ (s.ctx i).gen < 65536 ∧ h = s.handleFor i ∧ (s.ctx i).st ≠ .free := by
  unfold State.ctxNamed State.handleFor
  rw [Option.ite_none_right_eq_some, Option.some_inj]
  constructor
  · rintro ⟨⟨hword, hzero, hlive, hgen⟩, rfl⟩
    obtain ⟨hindex, hgenBound, hhandle⟩ := fld_handle_iff.1 ⟨⟨hword, hzero, hgen⟩, rfl⟩
    exact ⟨hindex, hgenBound, hhandle, hlive⟩
  · rintro ⟨hindex, hgenBound, hhandle, hlive⟩
    obtain ⟨⟨hword, hzero, hgen⟩, rfl⟩ := fld_handle_iff.2 ⟨hindex, hgenBound, hhandle⟩
    exact ⟨⟨hword, hzero, hlive, hgen⟩, rfl⟩

/-! ## The context a new request takes (03 R83, 04 R125) -/

/-- Context `i` may be taken: it is FREE, and its group of 2,048 indices is not withheld. -/
def State.ctxOpen (s : State) (i : Nat) : Bool := (s.ctx i).st = .free ∧ !s.withheld.contains (i / 2048)

theorem State.ctxOpen_iff {s : State} {i : Nat} :
    s.ctxOpen i = true ↔ (s.ctx i).st = .free ∧ s.withheld.contains (i / 2048) = false := by
  simp [State.ctxOpen]

theorem State.not_ctxOpen_iff {s : State} {i : Nat} :
    (!s.ctxOpen i) = true ↔ (s.ctx i).st ≠ .free ∨ s.withheld.contains (i / 2048) = true := by
  simp [State.ctxOpen]

theorem State.firstFree_eq_find? (s : State) (n i : Nat) : s.firstFree n i = (List.range' i n).find? s.ctxOpen := by
  induction n generalizing i with
  | zero => rfl
  | succ n ih =>
    rw [State.firstFree, List.range'_succ, List.find?_cons, ih]
    by_cases hopen : (s.ctx i).st = .free ∧ !s.withheld.contains (i / 2048)
    · rw [if_pos hopen, State.ctxOpen, decide_eq_true hopen]
    · rw [if_neg hopen, State.ctxOpen, decide_eq_false hopen]

/-- The context taken is the first of the 8,192 that may be taken. -/
theorem State.freeCtx_eq_find? (s : State) : s.freeCtx = (List.range 8192).find? s.ctxOpen := by
  rw [List.range_eq_range']
  exact s.firstFree_eq_find? 8192 0

/-- Settles O53: the fields of a handle are its context's index and generation, and `freeCtx` is a search from context 0 on. -/
theorem contextsAreNamedAndTaken : Obligations.ContextsAreNamedAndTaken := by
  refine ⟨fun s i hindex hgen hlive => State.ctxNamed_eq_some_iff.2 ⟨hindex, hgen, rfl, hlive⟩, fun s h i hnamed => ?_,
    fun s => ⟨fun i htaken => ?_, fun hnone j hj => ?_⟩⟩
  · obtain ⟨hindex, -, hhandle, hlive⟩ := State.ctxNamed_eq_some_iff.1 hnamed
    exact ⟨hindex, hhandle, hlive⟩
  · rw [State.freeCtx_eq_find?, List.find?_range_eq_some] at htaken
    obtain ⟨hopen, hindex, hlower⟩ := htaken
    obtain ⟨hfree, hgiven⟩ := State.ctxOpen_iff.1 hopen
    exact ⟨List.mem_range.1 hindex, hfree, hgiven, fun j hj => State.not_ctxOpen_iff.1 (hlower j hj)⟩
  · rw [State.freeCtx_eq_find?, List.find?_range_eq_none] at hnone
    exact State.not_ctxOpen_iff.1 (hnone j hj)

end Sys2Proof.Machine
end

section
/-! Requests: the commands of chapter 03, each case of each command's effect; O19. -/

namespace Sys2Proof.Machine

section

variable {p : Pkt} {u : State} {i : Nat} (id : Nat)

/-! ## ADMIT_REQUEST (03 R88, R89) -/

/-- With a context and a latch slot to take, and room for the working set, the request is admitted in them. -/
theorem rowAdmitRequest_act {v w : State} {k : Nat} (hctx : u.freeCtx = some i) (hlatch : u.takeLatch = some (k, v))
    (hworkset : (v.setCtx i (admitCtx p u (u.ctx i).gen)).takeWorkset i
      (u.workset (admitCtx p u (u.ctx i).gen).model (admitCtx p u (u.ctx i).gen).promptLen) = some w) :
    rowAdmitRequest.act p id u =
      .done { handle := w.handleFor i, r0 := (admitCtx p u (u.ctx i).gen).uid }
        (((w.setLatch k { region := 0, st := .home, homeNode := u.self, handle := w.handleFor i, stamp := 1, channel := i }).place
          i false).bump kAdmitted) := by
  change actAdmit p id u = _
  unfold actAdmit
  rw [hctx, hlatch]
  dsimp only
  unfold State.admitAt
  rw [hworkset]

theorem admitRequest_completes (i k : Nat) (v w : State) :
    Completes rowAdmitRequest .admitRequest
      (fun p u => u.freeCtx = some i ∧ u.takeLatch = some (k, v) ∧
        (v.setCtx i (admitCtx p u (u.ctx i).gen)).takeWorkset i
          (u.workset (admitCtx p u (u.ctx i).gen).model (admitCtx p u (u.ctx i).gen).promptLen) = some w)
      (fun p u => { handle := w.handleFor i, r0 := (admitCtx p u (u.ctx i).gen).uid })
      (fun _ u => ((w.setLatch k { region := 0, st := .home, homeNode := u.self, handle := w.handleFor i, stamp := 1, channel := i }).place
        i false).bump kAdmitted) :=
  .of (fun _ _ => rfl) fun _ _ ⟨hctx, hlatch, hworkset⟩ => rowAdmitRequest_act _ hctx hlatch hworkset

/-! ## CANCEL (03 R112) -/

/-- CANCEL of the live context its handle names: its state decides. -/
theorem rowCancel_act (hnamed : u.ctxNamed p.handle = some i) :
    rowCancel.act p id u = match (u.ctx i).st with
      | .prefill =>
        if u.layerRunning i then .wait (.cancel i) true none (u.modCtx i fun c => { c with cancelAsked := true })
        else .done ((u.endReq i sCancelled).cancelAns i sOK) (u.endReq i sCancelled)
      | .draining => .wait (.cancel i) true none u
      | .done | .ended => .done (u.cancelAns i sOkAlready) u
      | .free => .done (refuse sBadField) u
      | .admitted | .handoff | .decode | .paused => .done ((u.endReq i sCancelled).cancelAns i sOK) (u.endReq i sCancelled) := by
  change actCancel p id u = _
  unfold actCancel
  split
  next hnone => cases hnone.symm.trans hnamed
  next j hj =>
    cases hj.symm.trans hnamed
    rfl

theorem cancel_begins_layerRunning (i : Nat) :
    Begins rowCancel .cancel
      (fun p u => u.ctxNamed p.handle = some i ∧ (u.ctx i).st = .prefill ∧ u.layerRunning i = true)
      (fun _ _ => .cancel i) true noBound (fun _ u => u.modCtx i fun c => { c with cancelAsked := true }) :=
  .of (fun _ _ => rfl) fun _ _ ⟨hnamed, hst, hrunning⟩ => by
    rw [rowCancel_act _ hnamed, hst]
    exact if_pos hrunning

theorem cancel_begins_draining (i : Nat) :
    Begins rowCancel .cancel (fun p u => u.ctxNamed p.handle = some i ∧ (u.ctx i).st = .draining)
      (fun _ _ => .cancel i) true noBound same :=
  .of (fun _ _ => rfl) fun _ _ ⟨hnamed, hst⟩ => by
    rw [rowCancel_act _ hnamed, hst]
    rfl

theorem cancel_completes_over (i : Nat) :
    Completes rowCancel .cancel
      (fun p u => u.ctxNamed p.handle = some i ∧ ((u.ctx i).st = .done ∨ (u.ctx i).st = .ended))
      (fun _ u => u.cancelAns i sOkAlready) same :=
  .of (fun _ _ => rfl) fun _ _ ⟨hnamed, hst⟩ => by
    rw [rowCancel_act _ hnamed]
    rcases hst with hst | hst <;> rw [hst] <;> rfl

/-- A request that is not over, and of which no layer is being computed, ends at once. -/
theorem cancel_completes_ending (i : Nat) :
    Completes rowCancel .cancel
      (fun p u => u.ctxNamed p.handle = some i ∧ ((u.ctx i).st = .admitted ∨ ((u.ctx i).st = .prefill ∧ u.layerRunning i = false) ∨
        (u.ctx i).st = .handoff ∨ (u.ctx i).st = .decode ∨ (u.ctx i).st = .paused))
      (fun _ u => (u.endReq i sCancelled).cancelAns i sOK) (fun _ u => u.endReq i sCancelled) :=
  .of (fun _ _ => rfl) fun _ _ ⟨hnamed, hst⟩ => by
    rw [rowCancel_act _ hnamed]
    rcases hst with hst | ⟨hst, hidle⟩ | hst | hst | hst <;> rw [hst]
    exact if_neg (Bool.eq_false_iff.1 hidle)

/-! ## PAUSE (03 R114) -/

/-- PAUSE of the live context its handle names: PAUSED already, in a step of its partition, or between two steps. -/
theorem rowPause_act (hnamed : u.ctxNamed p.handle = some i) :
    rowPause.act p id u =
      if (u.ctx i).st = .paused then
        if (u.ctx i).pauseHost then .done { status := sOkAlready } u else .done {} (u.modCtx i fun c => { c with pauseHost := true })
      else if (u.part (u.ctx i).partition).stepAt.isSome then
        .wait (.pause i) false none (u.modCtx i fun c => { c with pauseAsked := true })
      else .done {} (u.pauseNow i) := by
  change actPause p id u = _
  unfold actPause
  rw [hnamed]

theorem pause_completes_again (i : Nat) :
    Completes rowPause .pause
      (fun p u => u.ctxNamed p.handle = some i ∧ (u.ctx i).st = .paused ∧ (u.ctx i).pauseHost = true)
      (fun _ _ => { status := sOkAlready }) same :=
  .of (fun _ _ => rfl) fun _ _ ⟨hnamed, hst, hhost⟩ => by
    rw [rowPause_act _ hnamed, if_pos hst, if_pos hhost]
    rfl

/-- The host's pause joins whichever pause the request is held by already. -/
theorem pause_completes_paused (i : Nat) :
    Completes rowPause .pause
      (fun p u => u.ctxNamed p.handle = some i ∧ (u.ctx i).st = .paused ∧ (u.ctx i).pauseHost = false)
      (fun _ _ => {}) (fun _ u => u.modCtx i fun c => { c with pauseHost := true }) :=
  .of (fun _ _ => rfl) fun _ _ ⟨hnamed, hst, hhost⟩ => by
    rw [rowPause_act _ hnamed, if_pos hst, if_neg (Bool.eq_false_iff.1 hhost)]

theorem pause_begins_inStep (i : Nat) :
    Begins rowPause .pause
      (fun p u => u.ctxNamed p.handle = some i ∧ (u.ctx i).st = .decode ∧ (u.part (u.ctx i).partition).stepAt.isSome = true)
      (fun _ _ => .pause i) false noBound (fun _ u => u.modCtx i fun c => { c with pauseAsked := true }) :=
  .of (fun _ _ => rfl) fun _ _ ⟨hnamed, hst, hstep⟩ => by
    rw [rowPause_act _ hnamed, if_neg (by simp [hst]), if_pos hstep]
    rfl

theorem pause_completes_betweenSteps (i : Nat) :
    Completes rowPause .pause
      (fun p u => u.ctxNamed p.handle = some i ∧ (u.ctx i).st = .decode ∧ (u.part (u.ctx i).partition).stepAt = none)
      (fun _ _ => {}) (fun _ u => u.pauseNow i) :=
  .of (fun _ _ => rfl) fun _ _ ⟨hnamed, hst, hnoStep⟩ => by
    rw [rowPause_act _ hnamed, if_neg (by simp [hst]), if_neg (by simp [hnoStep])]

/-! ## RESUME (03 R115) -/

/-- RESUME takes back the host's pause; it waits only where nothing but the recall of the region keeps the request from DECODE. -/
theorem rowResume_act {t : State} (hnamed : u.ctxNamed p.handle = some i)
    (hresumed : (u.modCtx i fun c => { c with pauseHost := false }).tryDecode i = t) :
    rowResume.act p id u =
      if (t.ctx i).recalling = true ∧ (t.ctx i).pauseSched = false ∧ (t.ctx i).pauseParked = false then .wait (.resume i) true none t
      else .done { r0 := (t.ctx i).st.code } t := by
  subst hresumed
  change actResume p id u = _
  unfold actResume
  rw [hnamed]
  simp only [Bool.and_eq_true, Bool.not_eq_true', and_assoc]

theorem resume_begins_recall (i : Nat) (t : State) :
    Begins rowResume .resume
      (fun p u => u.ctxNamed p.handle = some i ∧ (u.modCtx i fun c => { c with pauseHost := false }).tryDecode i = t ∧
        (t.ctx i).recalling = true ∧ (t.ctx i).pauseSched = false ∧ (t.ctx i).pauseParked = false)
      (fun _ _ => .resume i) true noBound (fun _ _ => t) :=
  .of (fun _ _ => rfl) fun _ _ ⟨hnamed, hresumed, hrecall⟩ => (rowResume_act _ hnamed hresumed).trans (if_pos hrecall)

theorem resume_completes (i : Nat) (t : State) :
    Completes rowResume .resume
      (fun p u => u.ctxNamed p.handle = some i ∧ (u.modCtx i fun c => { c with pauseHost := false }).tryDecode i = t ∧
        ¬((t.ctx i).recalling = true ∧ (t.ctx i).pauseSched = false ∧ (t.ctx i).pauseParked = false))
      (fun _ _ => { r0 := (t.ctx i).st.code }) (fun _ _ => t) :=
  .of (fun _ _ => rfl) fun _ _ ⟨hnamed, hresumed, hnoRecall⟩ => (rowResume_act _ hnamed hresumed).trans (if_neg hnoRecall)

/-! ## QUERY_REQUEST and RELEASE_CONTEXT (03 R116, R117) -/

theorem queryRequest_completes (i : Nat) :
    Completes rowQueryRequest .queryRequest (fun p u => u.ctxNamed p.handle = some i)
      (fun p u => { wr := [(p.f 63 0, u.ctxRecord i)] }) same :=
  .of (fun _ _ => rfl) fun _ _ hnamed => by
    dsimp only [rowQueryRequest]
    rw [hnamed]
    rfl

theorem releaseContext_completes (i : Nat) :
    Completes rowReleaseContext .releaseContext (fun p u => u.ctxNamed p.handle = some i) (fun _ _ => {}) (fun _ u => u.freeCtxAt i) :=
  .of (fun _ _ => rfl) fun _ _ hnamed => by
    dsimp only [rowReleaseContext]
    rw [hnamed]

end

/-- Settles O19: the cases of each command are the branches of its row's effect. -/
theorem requestCommandsComplete : Obligations.RequestCommandsComplete :=
  ⟨admitRequest_completes, cancel_begins_layerRunning, cancel_begins_draining, cancel_completes_over, cancel_completes_ending,
    pause_completes_again, pause_completes_paused, pause_begins_inStep, pause_completes_betweenSteps, resume_begins_recall,
    resume_completes, queryRequest_completes, releaseContext_completes⟩

end Sys2Proof.Machine
end

section
/-! Requests: index lookups, fetches, pushes, work items, steps, deadlines, forwarding records and twin links; O42. -/

namespace Sys2Proof.Machine

/-! ## PREFIX_LOOKUP and PREFIX_FETCH_COMPLETE (04 R141, R142) -/

/-- The state in which context `c` is being looked up in the index. -/
def State.searching (s : State) (c : Nat) : State := (s.adopt kPrefixTable).modCtx c fun x => { x with prefixSt := .searching }

/-- The lookup of an ADMITTED request: no index, an index in a cascade, or one table to search. -/
theorem exec_prefixLookup {s : State} {c : Nat} (hup : s.fwUp = true) (hst : (s.ctx c).st = .admitted)
    (hunlooked : (s.ctx c).prefixSt = .unlooked) :
    exec (.prefixLookup c) s = match (s.searching c).indexTable with
      | none => .next ((s.searching c).prefixFound c none)
      | some k =>
        if ((s.searching c).table k).cascade then .next ((s.searching c).cascLookup c ((s.searching c).promptBlocks (s.ctx c)))
        else
          let r := (s.searching c).searchBlocks k ((s.searching c).promptBlocks (s.ctx c))
          .next (r.2.prefixFound c r.1) :=
  if_neg (by simp [hup, hst, hunlooked])

theorem prefixLookup_acts_noIndex (c : Nat) :
    Acts (.prefixLookup c)
      (fun s => s.fwUp = true ∧ (s.ctx c).st = .admitted ∧ (s.ctx c).prefixSt = .unlooked ∧ (s.searching c).indexTable = none)
      (fun s => (s.searching c).prefixFound c none) :=
  fun _ ⟨hup, hst, hunlooked, hindex⟩ => by rw [exec_prefixLookup hup hst hunlooked, hindex]

theorem prefixLookup_acts_search (c k : Nat) (r : Option (Nat × Nat) × State) (u : State) :
    Acts (.prefixLookup c)
      (fun s => s.fwUp = true ∧ (s.ctx c).st = .admitted ∧ (s.ctx c).prefixSt = .unlooked ∧ s.searching c = u ∧
        u.indexTable = some k ∧ (u.table k).cascade = false ∧ u.searchBlocks k (u.promptBlocks (s.ctx c)) = r)
      (fun _ => r.2.prefixFound c r.1) := by
  rintro s ⟨hup, hst, hunlooked, rfl, hindex, hsingle, rfl⟩
  rw [exec_prefixLookup hup hst hunlooked, hindex]
  exact if_neg (Bool.eq_false_iff.1 hsingle)

theorem prefixFetchComplete_acts_failed (c : Nat) :
    Acts (.prefixFetchComplete c false none)
      (fun s => s.runs = true ∧ (s.ctx c).prefixSt = .fetching ∧ (s.ctx c).st.over = false)
      (fun s => ((s.modCtx c fun x => { x with prefixSt := .inPlace, prefixReused := 0, prefixPushed := true }).bump
        kPrefixFallbacks).advancePush c) :=
  fun _ ⟨hruns, hfetching, hlive⟩ => if_neg (by simp [hruns, hfetching, hlive])

theorem prefixFetchComplete_acts_replica (c : Nat) (o : PrefixObj) :
    Acts (.prefixFetchComplete c true none)
      (fun s => s.runs = true ∧ (s.ctx c).prefixSt = .fetching ∧ (s.ctx c).st.over = false ∧
        Tab.find? s.prefixes (s.ctx c).prefixObj = some o)
      (fun s => (((List.range (s.layersOf (s.ctx c).model)).foldl
          (fun u l => u.hbmWrite (u.worksetRow (s.ctx c) l 0) (s.objectRows o l (s.ctx c).prefixReused)) s).modCtx c
        fun x => { x with prefixSt := .inPlace, prefixPushed := false }).advancePush c) := by
  rintro s ⟨hruns, hfetching, hlive, hobject⟩
  change execPrefixFetchComplete c true none s = _
  unfold execPrefixFetchComplete
  dsimp only
  rw [hobject]
  exact if_neg (by simp [hruns, hfetching, hlive])

/-! ## The push of a layer (04 R134) -/

theorem layerPushStart_acts (c n : Nat) :
    Acts (.layerPushStart c n)
      (fun s => s.runs = true ∧ ((s.ctx c).st = .prefill ∨ ((s.ctx c).st = .handoff ∧ (s.ctx c).isDest = false)) ∧
        (s.opened c).isSome = true ∧ (s.ctx c).prefixPushed = true ∧ (s.ctx c).pushing = 0 ∧ (s.ctx c).pushLeft = 0 ∧
        n = (s.ctx c).layersPushed ∧ n < (s.ctx c).layersDone ∧ (s.ctx c).toCompute ≠ 0)
      (fun s => (s.modCtx c fun x => { x with pushing := n + 1 }).pushRows c n (s.ctx c).prefixReused ((s.ctx c).promptLen - 1)) := by
  rintro s ⟨hruns, hst, hopened, hprefix, hpushing, hleft, hnext, hdone, hcompute⟩
  exact if_neg (by simpa [hruns, Option.isSome_iff_ne_none.1 hopened, hprefix, hpushing, hleft, ← hnext, hdone, hcompute] using
    hst.resolve_left)

/-! ## Work items (06 R208) -/

theorem workItemWrite_acts_prefill (pc : Nat) (qs : List Nat) (f n place : Nat) :
    Acts (.workItemWrite pc 1 qs f n)
      (fun s => s.fwUp = true ∧ (s.pc pc).live = true ∧ (s.pc pc).serving = true ∧ (s.pc pc).endWith = 0 ∧
        (s.pc pc).items.length < 4096 ∧ qs.length ≤ 8192 ∧ qs.Nodup ∧ (s.pc pc).decode = false ∧ qs ≠ [] ∧
        (qs.all fun i => s.mayPrefill pc i f n) = true ∧ arenaFit (s.pc pc).items (s.itemBytes qs false) = some place)
      (fun s => s.postItem pc 1 qs f n place) := by
  rintro s ⟨hup, hlive, hserving, hgoing, hroom, hfew, hnodup, hprefill, hsome, hmay, hplace⟩
  refine (if_neg (by simp [hup, hlive, hserving, hgoing, hroom, hfew, hnodup])).trans ?_
  refine (if_pos rfl).trans ((if_neg (by simp [hprefill, hsome, hmay])).trans ?_)
  rw [hplace]

theorem workItemWrite_acts_step (pc : Nat) (qs able : List Nat) (u : State) (is : List Nat) (place : Nat) :
    Acts (.workItemWrite pc 2 qs 0 0)
      (fun s => s.fwUp = true ∧ (s.pc pc).live = true ∧ (s.pc pc).serving = true ∧ (s.pc pc).endWith = 0 ∧
        (s.pc pc).items.length < 4096 ∧ qs.length ≤ 8192 ∧ qs.Nodup ∧ (s.pc pc).decode = true ∧ (s.part (pc / 8)).stepAt = none ∧
        ((s.stepSeqs (pc / 8)).filter fun i => !s.stalled i) = able ∧ able.all qs.contains = true ∧ qs.all able.contains = true ∧
        qs ≠ [] ∧ s.backRows qs = (is, u) ∧ is ≠ [] ∧ arenaFit (u.pc pc).items (u.itemBytes is true) = some place)
      (fun _ =>
        let v := is.foldl (fun w i => w.modCtx i fun c => { c with mirrorSent := false }) u
        (v.modPart (pc / 8) fun p => { p with stepAt := some v.now, batch := is }).postItem pc 2 is 0 0 place) := by
  rintro s ⟨hup, hlive, hserving, hgoing, hroom, hfew, hnodup, hdecode, hbetween, rfl, hall, honly, hsome, hbacked, hbackedSome,
    hplace⟩
  refine (if_neg (by simp [hup, hlive, hserving, hgoing, hroom, hfew, hnodup])).trans ?_
  refine (if_neg (by decide)).trans ((if_pos rfl).trans ?_)
  refine (if_neg (by simp only [hdecode, hbetween, hall, honly]; decide)).trans ((if_neg (by simp [hsome])).trans ?_)
  rw [hbacked]
  refine (if_neg (by simp [hbackedSome])).trans ?_
  dsimp only
  rw [hplace]

/-! ## A prefill layer counted (06 R208) -/

/-- The unit of the PREFILL item at the head of a live program context's queue that counter 30 has passed is counted. -/
theorem exec_prefillLayerDone {s : State} {pc : Nat} {w : WorkItem} {ws : List WorkItem} (hup : s.fwUp = true)
    (hlive : (s.pc pc).live = true) (hitems : (s.pc pc).items = w :: ws) (hkind : w.kind = 1) (hcounted : w.base < (s.pc pc).ctr 30) :
    exec (.prefillLayerDone pc) s =
      .next ((w.seqs.foldl State.layerDone (s.modPc pc fun x =>
        { x with items := if w.layerCount ≤ 1 then ws
          else { w with firstLayer := w.firstLayer + 1, layerCount := w.layerCount - 1, base := w.base + 1 } :: ws })).beginHead pc) := by
  change execPrefillLayerDone pc s = _
  unfold execPrefillLayerDone
  dsimp only
  rw [hitems]
  exact if_pos (by simp [hup, hlive, hkind, hcounted])

theorem prefillLayerDone_acts_last (pc : Nat) (w : WorkItem) (ws : List WorkItem) :
    Acts (.prefillLayerDone pc)
      (fun s => s.fwUp = true ∧ (s.pc pc).live = true ∧ (s.pc pc).items = w :: ws ∧ w.kind = 1 ∧ w.base < (s.pc pc).ctr 30 ∧
        w.layerCount ≤ 1)
      (fun s => (w.seqs.foldl State.layerDone (s.modPc pc fun x => { x with items := ws })).beginHead pc) :=
  fun _ ⟨hup, hlive, hitems, hkind, hcounted, hlast⟩ => by
    rw [exec_prefillLayerDone hup hlive hitems hkind hcounted, if_pos hlast]

theorem prefillLayerDone_acts_more (pc : Nat) (w : WorkItem) (ws : List WorkItem) :
    Acts (.prefillLayerDone pc)
      (fun s => s.fwUp = true ∧ (s.pc pc).live = true ∧ (s.pc pc).items = w :: ws ∧ w.kind = 1 ∧ w.base < (s.pc pc).ctr 30 ∧
        1 < w.layerCount)
      (fun s => (w.seqs.foldl State.layerDone (s.modPc pc fun x =>
        { x with items := { w with firstLayer := w.firstLayer + 1, layerCount := w.layerCount - 1, base := w.base + 1 } :: ws })).beginHead
          pc) :=
  fun _ ⟨hup, hlive, hitems, hkind, hcounted, hmore⟩ => by
    rw [exec_prefillLayerDone hup hlive hitems hkind hcounted, if_neg (Nat.not_le.2 hmore)]

/-! ## The commit of a decode step (03 R97, R103, 04 R150) -/

/-- With no request mirrored, no twin is to be sent the step or waited for. -/
theorem stepCommit_acts (k id : Nat) (w : WorkItem) (ws : List WorkItem) (t0 : Nat) :
    Acts (.stepCommit k)
      (fun s => s.fwUp = true ∧ s.servingOf k true = some id ∧ (s.pc id).items = w :: ws ∧ (s.part k).stepAt = some t0 ∧
        w.kind = 2 ∧ w.base < (s.pc id).ctr 30 ∧ ∀ i, s.mirrorOf i = none)
      (fun s =>
        let seqs := w.seqs.zipIdx.filter fun e => (s.part k).batch.contains e.1
        let t := (seqs.foldl (fun t e => t.commitSeq e.1 (s.drawn k e.1 e.2 w)) s).bump kOutputStall
          ((s.stepSeqs k).filter s.stalled).length
        ((t.modPc id fun x => { x with items := ws }).modPart k
          fun p => { p with steps := ((s.now - t0) / 1600 :: p.steps).take 16 }).boundary k) := by
  rintro s ⟨hup, hserving, hitems, hstep, hkind, hcounted, hmirror⟩
  change execStepCommit k s = _
  unfold execStepCommit
  rw [hserving]
  dsimp only
  rw [hitems, hstep]
  dsimp only
  rw [if_neg (by simp [hup, hkind, hcounted]), if_neg (by simp [hmirror]), if_neg (by simp [hmirror])]

/-! ## Deadlines (03 R98, R99) -/

/-- The miss of a home that is bound and not past its PREPARE is written, any other is recorded. -/
theorem exec_deadlinePass {s : State} {c : Nat} (hup : s.fwUp = true) (hmissed : s.missed c = true) :
    exec (.deadlinePass c) s =
      if (s.ctx c).bound = true ∧ s.committing c = false then .next (s.writeMisses c) else .next (s.recordMiss c) := by
  refine (if_pos (by simp [hup, hmissed])).trans ?_
  simp only [Bool.and_eq_true, Bool.not_eq_true']

theorem deadlinePass_acts_written (c : Nat) :
    Acts (.deadlinePass c)
      (fun s => s.fwUp = true ∧ s.missed c = true ∧ (s.ctx c).bound = true ∧ s.committing c = false) (fun s => s.writeMisses c) :=
  fun _ ⟨hup, hmissed, hmay⟩ => (exec_deadlinePass hup hmissed).trans (if_pos hmay)

theorem deadlinePass_acts_recorded (c : Nat) :
    Acts (.deadlinePass c)
      (fun s => s.fwUp = true ∧ s.missed c = true ∧ ¬((s.ctx c).bound = true ∧ s.committing c = false)) (fun s => s.recordMiss c) :=
  fun _ ⟨hup, hmissed, hmayNot⟩ => (exec_deadlinePass hup hmissed).trans (if_neg hmayNot)

theorem deadlinePass_acts_none (c : Nat) : Acts (.deadlinePass c) (fun s => ¬(s.fwUp = true ∧ s.missed c = true)) id :=
  fun _ hnone => if_neg (mt Bool.and_eq_true_iff.1 hnone)

/-! ## Retain times, forwarding records and twin links (03 R110, 04 R148, R152, R154) -/

theorem ctxRetainExpiry_happens (c : Nat) :
    Happens (.ctxRetainExpiry c)
      (fun s => s.fwUp = true ∧ ((s.ctx c).st = .done ∨ (s.ctx c).st = .ended) ∧ (s.ctx c).overAt + ms (s.ctx c).retainMs ≤ s.now)
      (fun s => s.freeCtxAt c) :=
  .of_guard
    (g := fun s => s.fwUp && ((s.ctx c).st == .done || (s.ctx c).st == .ended) && (s.ctx c).overAt + ms (s.ctx c).retainMs ≤ s.now)
    (by simp [and_assoc]) fun _ => rfl

/-- An event that passes by where its test fails happens exactly where the test succeeds. -/
theorem Happens.of_guard_not {i : Instr} {g : State → Bool} {t : State → State}
    (hx : ∀ s, exec i s = if !g s then .next s else .next (t s)) : Happens i (fun s => g s = true) t :=
  .of_guard (g := g) (fun _ => Iff.rfl) fun s => (hx s).trans (by cases g s <;> rfl)

theorem fwdRecordCheck_happens :
    Happens .fwdRecordCheck (fun s => s.fwUp = true)
      (fun s =>
        let u := (s.adopt kFwdHold).adopt kFwdDrain
        (Tab.keysOf u.latches fun _ x => x.st == .forwarding && x.tState + us (u.kv kFwdHold) ≤ u.now &&
          (x.redirects == 0 || x.lastRedirect + us (u.kv kFwdDrain) ≤ u.now)).foldl State.dropLatch u) :=
  .of_guard_not fun _ => rfl

theorem mirrorScrub_acts (tw : List TwinCopy) :
    Acts (.mirrorScrub tw) (fun s => s.fwUp = true ∧ ((s.adopt kScrubMs).adopt kScrubEnable).kv kScrubEnable = 1)
      (fun s => ((s.adopt kScrubMs).adopt kScrubEnable).compareAll tw) :=
  fun _ ⟨hup, henabled⟩ => (if_neg (by simp [hup])).trans (if_pos henabled)

theorem twinLinkFail_happens :
    Happens .twinLinkFail (fun s => s.runs = true)
      (fun s => (Tab.keysOf s.latches fun _ x => x.mirrored).foldl (fun u k =>
        if (u.latch k).primary then u.suspendMirror k (u.latch k).ctx else u.setLatch k { u.latch k with mirrorActive := false }) s) :=
  .of_guard_not fun _ => rfl

theorem twinLinkReturn_happens (tw : List TwinCopy) :
    Happens (.twinLinkReturn tw) (fun s => s.runs = true) (fun s => s.compareAll tw) :=
  .of_guard (g := State.runs) (fun _ => Iff.rfl) fun _ => rfl

/-- Settles O42: each clause is a branch of the event's effect under the test that guards it. -/
theorem requestEventsAct : Obligations.RequestEventsAct :=
  ⟨prefixLookup_acts_noIndex, prefixLookup_acts_search, prefixFetchComplete_acts_failed, prefixFetchComplete_acts_replica,
    layerPushStart_acts, workItemWrite_acts_prefill, workItemWrite_acts_step, prefillLayerDone_acts_last, prefillLayerDone_acts_more,
    stepCommit_acts, deadlinePass_acts_written, deadlinePass_acts_recorded, deadlinePass_acts_none, ctxRetainExpiry_happens,
    fwdRecordCheck_happens, mirrorScrub_acts, twinLinkFail_happens, twinLinkReturn_happens⟩

end Sys2Proof.Machine
end

section
/-! Hinge: the commands of chapter 04, each case of each command's effect; O20. -/

namespace Sys2Proof.Machine

/-! ## MOVE_STATE and FETCH_PREFIX (04 R143, R146) -/

theorem moveState_begins :
    Begins rowMoveState .moveState always (fun p _ => .moveAsk (p.f 45 32) (p.f 31 0) (p.f 55 48)) false
      (fun _ u => some (ms ((u.adopt kMoveTimeout).kv kMoveTimeout)))
      (fun p u =>
        (u.adopt kMoveTimeout).request (.command u.lastCmd) (p.f 45 32) 0xD 0 0 0 0 (.hinge { handle := p.f 31 0 } .query)) :=
  .of (fun _ _ => rfl) fun _ _ _ => rfl

theorem fetchPrefix_begins :
    Begins rowFetchPrefix .fetchPrefix always (fun p _ => .fetch (p.f 31 0) (p.f 41 32)) false
      (fun _ u => some (ms ((u.adopt kMoveTimeout).kv kMoveTimeout))) (fun _ u => u.adopt kMoveTimeout) :=
  .of (fun _ _ => rfl) fun _ _ _ => rfl

/-! ## SEAL_PREFIX (04 R144) -/

/-- With a live context, an index for the object and a run of extents for its rows, the object is made and its rows are copied. -/
theorem actSeal_eq {p : Pkt} {w v : State} {i j e : Nat} (id : Nat) (hnamed : w.ctxNamed p.handle = some i)
    (hindex : w.freePrefixId = some j)
    (hrun : (w.reclaimFor (w.ctx i).tenant (sealExts p w (w.ctx i))).findRun (sealExts p w (w.ctx i)) = (some e, v)) :
    actSeal p id w =
      let c := w.ctx i
      let m := sealExts p w c
      let t := (v.takeExts 1 e m .object .nobody).charge c.tenant 1 m
      .wait (.sealing i (p.f 14 0) (w.self * 2 ^ 18 + j) e m (p.f 14 0)) false none
        { t with
          prefixes := Tab.set t.prefixes (w.self * 2 ^ 18 + j)
            { id := w.self * 2 ^ 18 + j, tenant := c.tenant, blocks := p.f 14 0, layers := w.layersOf c.model,
              rowBytes := w.rowBytesOf c.model, first := e, count := m, hashes := sealHashes p w c, used := w.now }
          nextId := Tab.put 0 t.nextId 4 (j + 1) } := by
  unfold actSeal
  rw [hnamed, hindex]
  dsimp only
  rw [hrun]

/-- The key value that sealing brings into force leaves the request and this node's number as they are. -/
theorem sealPrefix_begins (i j e : Nat) (v : State) :
    Begins rowSealPrefix .sealPrefix
      (fun p u => u.ctxNamed p.handle = some i ∧ (u.adopt kPrefixTable).freePrefixId = some j ∧
        ((u.adopt kPrefixTable).reclaimFor (u.ctx i).tenant (sealExts p (u.adopt kPrefixTable) (u.ctx i))).findRun
          (sealExts p (u.adopt kPrefixTable) (u.ctx i)) = (some e, v))
      (fun p u => .sealing i (p.f 14 0) (u.self * 2 ^ 18 + j) e (sealExts p (u.adopt kPrefixTable) (u.ctx i)) (p.f 14 0)) false noBound
      (fun p u =>
        let c := u.ctx i
        let w := u.adopt kPrefixTable
        let m := sealExts p w c
        let t := (v.takeExts 1 e m .object .nobody).charge c.tenant 1 m
        { t with
          prefixes := Tab.set t.prefixes (u.self * 2 ^ 18 + j)
            { id := u.self * 2 ^ 18 + j, tenant := c.tenant, blocks := p.f 14 0, layers := w.layersOf c.model,
              rowBytes := w.rowBytesOf c.model, first := e, count := m, hashes := sealHashes p w c, used := w.now }
          nextId := Tab.put 0 t.nextId 4 (j + 1) }) :=
  .of (fun _ _ => rfl) fun _ u ⟨hnamed, hindex, hrun⟩ => actSeal_eq (w := u.adopt kPrefixTable) u.lastCmd hnamed hindex hrun

/-! ## QUERY_LATCH (04 R122, R155) -/

theorem queryLatch_completes (k : Nat) :
    Completes rowQueryLatch .queryLatch (fun p u => latchAsked p u = some k)
      (fun p u => { wr := [(p.f 127 64, (u.latch k).record)] }) same :=
  .of (fun _ _ => rfl) fun _ _ hasked => by
    dsimp only [rowQueryLatch]
    rw [hasked]
    rfl

/-! ## SET_MIRROR (04 R149) -/

/-- SET_MIRROR of a request with a latch: on, it opens the copy at the twin; off, it ends the copy here or asks the twin to release it. -/
theorem rowSetMirror_act {p : Pkt} {u : State} {i k : Nat} (id : Nat) (hnamed : u.ctxNamed p.handle = some i)
    (hlatch : u.latchOf (u.handleFor i) = some k) :
    rowSetMirror.act p id u =
      let v := u.adopt kMoveTimeout
      let bound := some (ms (v.kv kMoveTimeout))
      let x := v.latch k
      let d := v.ctxDigests (v.ctx i)
      if p.b 0 then
        .wait (.mirror i true) false bound
          ((v.setLatch k { x with twinNode := v.twinNode, twinHandle := 0, twinRegion := 0 }).request (.mirror i) v.twinNode 0xD 0 0 0 0
            (.hinge { handle := p.handle }
              (.opening (v.ctx i).fixed d.1 d.2.1 d.2.2 (v.ctxAge i) p.handle false [] 0 (some (p.f 15 8, p.f 19 16)))))
      else if v.dead x.twinNode then .done {} (v.endMirror k i)
      else
        .wait (.mirror i false) false bound
          (v.request (.mirror i) x.twinNode 0xD 0 0 0 0 (.hinge { region := x.twinRegion, handle := x.handle } (.abandon sOK))) := by
  dsimp only [rowSetMirror]
  rw [hnamed]
  dsimp only
  rw [hlatch]
  rfl

theorem setMirror_begins_off (i k : Nat) :
    Begins rowSetMirror .setMirror
      (fun p u => u.ctxNamed p.handle = some i ∧ u.latchOf (u.handleFor i) = some k ∧ p.b 0 = false ∧
        (u.adopt kMoveTimeout).dead ((u.adopt kMoveTimeout).latch k).twinNode = false)
      (fun _ _ => .mirror i false) false (fun _ u => some (ms ((u.adopt kMoveTimeout).kv kMoveTimeout)))
      (fun _ u =>
        let x := (u.adopt kMoveTimeout).latch k
        (u.adopt kMoveTimeout).request (.mirror i) x.twinNode 0xD 0 0 0 0
          (.hinge { region := x.twinRegion, handle := x.handle } (.abandon sOK))) :=
  .of (fun _ _ => rfl) fun _ _ ⟨hnamed, hlatch, hoff, hlives⟩ =>
    (rowSetMirror_act _ hnamed hlatch).trans ((if_neg (Bool.eq_false_iff.1 hoff)).trans (if_neg (Bool.eq_false_iff.1 hlives)))

/-- A dead twin is asked nothing: mirroring ends here. -/
theorem setMirror_completes_twinDead (i k : Nat) :
    Completes rowSetMirror .setMirror
      (fun p u => u.ctxNamed p.handle = some i ∧ u.latchOf (u.handleFor i) = some k ∧ p.b 0 = false ∧
        (u.adopt kMoveTimeout).dead ((u.adopt kMoveTimeout).latch k).twinNode = true)
      (fun _ _ => {}) (fun _ u => (u.adopt kMoveTimeout).endMirror k i) :=
  .of (fun _ _ => rfl) fun _ _ ⟨hnamed, hlatch, hoff, hdead⟩ =>
    (rowSetMirror_act _ hnamed hlatch).trans ((if_neg (Bool.eq_false_iff.1 hoff)).trans (if_pos hdead))

theorem setMirror_begins_on (i k : Nat) :
    Begins rowSetMirror .setMirror
      (fun p u => u.ctxNamed p.handle = some i ∧ u.latchOf (u.handleFor i) = some k ∧ p.b 0 = true)
      (fun _ _ => .mirror i true) false (fun _ u => some (ms ((u.adopt kMoveTimeout).kv kMoveTimeout)))
      (fun p u =>
        let v := u.adopt kMoveTimeout
        let c := v.ctx i
        let d := v.ctxDigests c
        (v.setLatch k { v.latch k with twinNode := v.twinNode, twinHandle := 0, twinRegion := 0 }).request (.mirror i) v.twinNode
          0xD 0 0 0 0 (.hinge { handle := p.handle }
            (.opening c.fixed d.1 d.2.1 d.2.2 (v.ctxAge i) p.handle false [] 0 (some (p.f 15 8, p.f 19 16))))) :=
  .of (fun _ _ => rfl) fun _ _ ⟨hnamed, hlatch, hon⟩ => (rowSetMirror_act _ hnamed hlatch).trans (if_pos hon)

/-- Settles O20: the cases of each command are the branches of its row's effect. -/
theorem hingeCommandsComplete : Obligations.HingeCommandsComplete :=
  ⟨moveState_begins, fetchPrefix_begins, sealPrefix_begins, queryLatch_completes, setMirror_begins_off,
    setMirror_completes_twinDead, setMirror_begins_on⟩

end Sys2Proof.Machine
end

section
/-! Hinge messages: the packet that carries one, its arrival in turn, and what it then does; O41. -/

namespace Sys2Proof.Machine

/-! ## The packet of a hinge message (04 R127) -/

/-- A hinge row is the arrival of the packet that carries its message. -/
theorem exec_hinge {i : Instr} {h : HHdr} {m : HMsg} {tw : List TwinCopy} (hi : hingeOf i = some (h, m, tw)) (s : State) :
    exec i s = .next (s.requestIn (s.hingePkt h m).1 (s.hingePkt h m).2 tw) := by
  unfold hingeOf at hi
  split at hi <;> cases hi
  case h_2 ok _ _ _ _ => cases ok <;> rfl
  all_goals rfl

/-- What a search finds passes its test, and so does what stands in for it. -/
theorem find?_getD_of_default {α : Type} {f : α → Bool} {xs : List α} {d : α} (hd : f d = true) :
    f ((xs.find? f).getD d) = true := by
  cases hfound : xs.find? f with
  | none => exact hd
  | some x => exact List.find?_some hfound

/-- The packet is a hinge packet of that very message, whether found in a receive buffer or made of the header. -/
theorem State.hingePkt_carries (s : State) (h : HHdr) (m : HMsg) :
    (s.hingePkt h m).2.ptype = 13 ∧ (s.hingePkt h m).2.pay = .hinge h m := by
  have hmine : ((s.hingePkt h m).2.ptype == 13 && (s.hingePkt h m).2.pay == .hinge h m) = true :=
    find?_getD_of_default (f := fun p : FPkt => p.ptype == 13 && p.pay == .hinge h m) (by simp)
  simpa using hmine

/-! ## Arrival and performance of a request (12 R380 to R383, R401, R402) -/

/-- The state `t` in which the number `want` of the packet's source is taken, and no early copy of the packet is left. -/
def State.inTurn (t : State) (p : FPkt) (want : Nat) : State :=
  { t with fab := { t.fab with
    seqRx := Tab.put 0 t.fab.seqRx p.src ((want + 1) % 2 ^ 32)
    early := t.fab.early.filter fun e => !(e.2.src == p.src && e.2.seq == p.seq) } }

/-- A request of the map in force that bears the next number of its source is performed, and the early ones it lets through after it. -/
theorem State.requestIn_inTurn {s : State} {l : Nat} {p : FPkt} {tw : List TwinCopy} (hmap : s.inMap = true) (hdst : p.dst = s.self)
    (hepoch : p.epoch = s.compo.epoch) (hnotNewer : epochNewer p.epoch s.compo.epoch = false)
    (hseq : (p.seq + 2 ^ 32 - Tab.getD 0 s.fab.seqRx p.src) % 2 ^ 32 = 0) :
    s.requestIn l p tw =
      match (((s.takeRx l (· == p)).heardFrom p.src).inTurn p (Tab.getD 0 s.fab.seqRx p.src)).perform p tw with
      | some t => State.runEarly p.src (t.fab.early.length + 1) t
      | none => s := by
  unfold State.requestIn
  rw [if_neg (by simp [hmap, hdst])]
  dsimp only
  rw [if_neg (Bool.eq_false_iff.1 hnotNewer), if_neg (not_not_intro hepoch), if_pos hseq]
  rfl

/-- A request to another node, or while this one takes no part in the map, is left where it is. -/
theorem State.requestIn_apart {s : State} {l : Nat} {p : FPkt} {tw : List TwinCopy} (hapart : s.inMap = false ∨ p.dst ≠ s.self) :
    s.requestIn l p tw = s :=
  if_pos (by simpa using hapart)

/-- A sound hinge packet goes to the hinge at once, even while the stacks are in self-refresh (18 R569). -/
theorem State.perform_hinge {t : State} {p : FPkt} {h : HHdr} {m : HMsg} {tw : List TwinCopy} (hsound : p.sound = true)
    (htype : p.ptype = 13) (hpay : p.pay = .hinge h m) : t.perform p tw = some (t.onHinge h m tw) := by
  unfold State.perform
  rw [if_neg (by simp [hsound]), if_neg (by simp [htype]), htype, hpay]
  rfl

/-! ## The messages -/

theorem hinge_acts {i : Instr} {h : HHdr} {m : HMsg} {tw : List TwinCopy} (hi : hingeOf i = some (h, m, tw)) (l : Nat) (p : FPkt)
    (t u : State) :
    Acts i
      (fun s => s.hingePkt h m = (l, p) ∧ s.inMap = true ∧ p.dst = s.self ∧ p.sound = true ∧ p.epoch = s.compo.epoch ∧
        epochNewer p.epoch s.compo.epoch = false ∧ (p.seq + 2 ^ 32 - Tab.getD 0 s.fab.seqRx p.src) % 2 ^ 32 = 0 ∧
        (s.takeRx l (· == p)).heardFrom p.src = t ∧ (t.inTurn p (Tab.getD 0 s.fab.seqRx p.src)).onHinge h m tw = u)
      (fun _ => State.runEarly p.src (u.fab.early.length + 1) u) := by
  rintro s ⟨hpkt, hmap, hdst, hsound, hepoch, hnotNewer, hseq, rfl, rfl⟩
  obtain ⟨htype, hpay⟩ := s.hingePkt_carries h m
  rw [hpkt] at htype hpay
  rw [exec_hinge hi, hpkt, State.requestIn_inTurn hmap hdst hepoch hnotNewer hseq, State.perform_hinge hsound htype hpay]

theorem hinge_acts_apart {i : Instr} {h : HHdr} {m : HMsg} {tw : List TwinCopy} (hi : hingeOf i = some (h, m, tw)) (l : Nat) (p : FPkt) :
    Acts i (fun s => s.hingePkt h m = (l, p) ∧ (s.inMap = false ∨ p.dst ≠ s.self)) id := by
  rintro s ⟨hpkt, hapart⟩
  rw [exec_hinge hi, hpkt, State.requestIn_apart hapart]
  rfl

/-- Settles O41: a hinge row is the arrival of a request packet, which the hinge performs in its turn. -/
theorem hingeMessagesAct : Obligations.HingeMessagesAct :=
  fun _ _ _ _ hi l p => ⟨hinge_acts hi l p, hinge_acts_apart hi l p⟩

end Sys2Proof.Machine
end

section
/-! Memories: the canonical form of all six of them (log entry 2) through every step; O7. -/

namespace Sys2Proof.Machine

/-- The six memories of a state in canonical form, one by one. -/
theorem State.memsOk_iff {s : State} :
    s.memsOk = true ↔ s.hbm.wf = true ∧ s.fw.wf = true ∧ s.t2.wf = true ∧ s.sp.wf = true ∧ s.acc.wf = true ∧
      s.idn.flash.wf = true := by
  simp [State.memsOk, and_assoc]

/-- Only the memories' own fields count: the queue, the clock and the board's inputs do not. -/
theorem State.memsOk_of_outside (s : State) (queue : List Instr) (now : Nat) (board : Board) :
    { s with pending := queue, now, board }.memsOk = s.memsOk := rfl

/-- Every operation of the block keeps the canonical form of all memories, since it keeps that of each. -/
theorem Evolves.memsOk {s t : State} (h : Evolves s t) (hs : s.memsOk = true) : t.memsOk = true := by
  obtain ⟨hhbm, hfw, ht2, hsp, hacc, hflash⟩ := State.memsOk_iff.1 hs
  exact State.memsOk_iff.2 ⟨h.hbm hhbm, h.fw hfw, h.t2 ht2, h.sp hsp, h.acc hacc, h.flash hflash⟩

/-- The loss of power empties every memory but the boot flash, which it leaves as it is (18 R567). -/
theorem State.powerOff_memsOk {s : State} (hs : s.memsOk = true) : s.powerOff.memsOk = true := by
  obtain ⟨-, -, -, -, -, hflash⟩ := State.memsOk_iff.1 hs
  exact State.memsOk_iff.2 ⟨rfl, rfl, rfl, rfl, rfl, hflash⟩

/-- Settles O7: every command but SYS_PWROK's edges, and a step of time, keeps each memory canonical (`Evolves`); the fall leaves only
the boot flash listed, and the rise touches no memory. -/
theorem memoriesStayCanonical : Obligations.MemoriesStayCanonical := by
  intro s t hstep hs
  rcases step_cases hstep with ⟨-, -, rfl⟩ | ⟨-, -, htime⟩ | ⟨rest, ⟨-, -, rfl⟩ | ⟨-, -, rfl⟩⟩ | ⟨c, rest, -, hkept⟩
  · exact hs
  · exact htime.memsOk ((s.memsOk_of_outside ..).trans hs)
  · exact (s.powerOff.memsOk_of_outside ..).trans (State.powerOff_memsOk hs)
  · exact (s.memsOk_of_outside ..).trans hs
  · exact hkept.memsOk ((s.memsOk_of_outside ..).trans hs)

end Sys2Proof.Machine
end

section
/-! Objects: the commands that load and unload images, models, deltas and grammars; O21. -/

namespace Sys2Proof.Machine

/-! ## Loads: the copy begins, with the bound of its size (06 R200, 07 R244, 08 R284, R286, 09 R313) -/

theorem loadImage_begins :
    Begins rowLoadImage .loadImage always (fun p _ => .copy .image (p.f 63 0) (p.f 95 64) (p.f 105 96) 0) false
      (fun p _ => some (ms (250 + mibs (p.f 95 64)))) same :=
  .of (fun _ _ => rfl) fun _ _ _ => rfl

theorem loadModel_begins :
    Begins rowLoadModel .loadModel always (fun p _ => .copy .model (p.f 63 0) (p.f 127 64) (p.f 137 128) 0) false
      (fun p _ => some (ms 250 + us (250 * mibs (p.f 127 64)))) same :=
  .of (fun _ _ => rfl) fun _ _ _ => rfl

theorem loadDelta_begins :
    Begins rowLoadDelta .loadDelta always (fun p _ => .copy .delta (p.f 63 0) (p.f 127 64) (p.f 169 160) (p.f 159 128)) false
      (fun p _ => some (ms 250 + us (500 * mibs (p.f 127 64)))) same :=
  .of (fun _ _ => rfl) fun _ _ _ => rfl

theorem replaceDelta_begins :
    Begins rowReplaceDelta .replaceDelta always
      (fun p u => .copy .replace (p.f 63 0) (p.f 127 64) (u.deltaTenant p.handle) p.handle) false
      (fun p _ => some (ms 250 + us (500 * mibs (p.f 127 64)))) same :=
  .of (fun _ _ => rfl) fun _ _ _ => rfl

theorem loadGrammar_begins :
    Begins rowLoadGrammar .loadGrammar always (fun p _ => .copy .grammar (p.f 63 0) (p.f 127 64) (p.f 137 128) 0) false
      (fun p _ => some (ms (250 + mibs (p.f 127 64)))) same :=
  .of (fun _ _ => rfl) fun _ _ _ => rfl

/-! ## Unloads: the object goes and its extents are free (06 R201, 07 R245, 08 R290, 09 R315) -/

theorem unloadImage_completes (o : Img) :
    Completes rowUnloadImage .unloadImage (fun p u => Tab.find? u.images p.handle = some o) (fun _ _ => {})
      (fun _ u => ({ u with images := Tab.erase u.images o.id } : State).releaseObject o.tenant o.first (extsOf o.size)) :=
  .of (fun _ _ => rfl) fun _ _ hfound => by
    dsimp only [rowUnloadImage]
    rw [hfound]

theorem unloadModel_completes (o : Model) :
    Completes rowUnloadModel .unloadModel (fun p u => Tab.find? u.models p.handle = some o) (fun _ _ => {})
      (fun _ u => ({ u with models := Tab.erase u.models o.id } : State).releaseObject o.tenant o.first (extsOf o.size)) :=
  .of (fun _ _ => rfl) fun _ _ hfound => by
    dsimp only [rowUnloadModel]
    rw [hfound]

/-- A delta goes with every version it still has, the current one and the retired ones (08 R288). -/
theorem unloadDelta_completes (o : Delta) :
    Completes rowUnloadDelta .unloadDelta (fun p u => Tab.find? u.deltas p.handle = some o) (fun _ _ => {})
      (fun _ u => o.vers.foldl (fun v x => v.releaseObject o.tenant x.first (extsOf x.size))
        { u with deltas := Tab.erase u.deltas o.id }) :=
  .of (fun _ _ => rfl) fun _ _ hfound => by
    dsimp only [rowUnloadDelta]
    rw [hfound]

theorem unloadGrammar_completes (o : Grammar) :
    Completes rowUnloadGrammar .unloadGrammar (fun p u => Tab.find? u.grammars p.handle = some o) (fun _ _ => {})
      (fun _ u => ({ u with grammars := Tab.erase u.grammars o.id } : State).releaseObject o.tenant o.first (extsOf o.size)) :=
  .of (fun _ _ => rfl) fun _ _ hfound => by
    dsimp only [rowUnloadGrammar]
    rw [hfound]

/-- Settles O21: the effect of each load is its wait for the copy, and each unload finds its object. -/
theorem objectCommandsComplete : Obligations.ObjectCommandsComplete :=
  ⟨loadImage_begins, loadModel_begins, loadDelta_begins, replaceDelta_begins, loadGrammar_begins, unloadImage_completes,
    unloadModel_completes, unloadDelta_completes, unloadGrammar_completes⟩

end Sys2Proof.Machine
end

section
/-! Programs: LAUNCH_PROGRAM and the reads of the cores' records; O22. -/

namespace Sys2Proof.Machine

/-! ## LAUNCH_PROGRAM (06 R202, R205) -/

/-- The context a launch makes in slot `n` of its partition: on the first cores of its kind, its engines at their starts. -/
def launchedCtx (p : Pkt) (u : State) (n : Nat) : ProgCtx :=
  let cores := ((u.part (p.f 3 0)).kindCores (p.b 4)).take (u.imgMax p.handle (p.b 4))
  let x : ProgCtx :=
    { live := true, image := p.handle, decode := p.b 4, be := p.b 5, serving := p.b 6, cores, ctrs := List.replicate 32 0,
      args := (List.range 10).map fun i => p.xf (64 * i + 63) (64 * i) }
  { x with core := (List.range cores.length).map fun r =>
      { engines := (List.range (engCount (p.b 4))).map (u.newEngine x (p.f 3 0 * 8 + n) r) } }

/-- The state with that context in its slot, and its launch record in the firmware reserve. -/
def State.launched (u : State) (p : Pkt) (n : Nat) : State :=
  let id := p.f 3 0 * 8 + n
  (u.setPc id (launchedCtx p u n)).fwWrite (launchPlace id) ((u.setPc id (launchedCtx p u n)).launchRec id)

/-- With a free slot the program starts in it; a serving prefill program takes the requests that wait for one (10 R327). -/
theorem rowLaunchProgram_act {p : Pkt} {u : State} {n : Nat} (id : Nat) (hslot : u.freeSlot (p.f 3 0) = some n) :
    rowLaunchProgram.act p id u =
      .done { r0 := p.f 3 0 * 8 + n }
        ((if p.b 6 && !p.b 4 then (u.launched p n).placeWaiting else u.launched p n).choosePc (p.f 3 0) (p.b 4)) := by
  change actLaunch p id u = _
  unfold actLaunch
  dsimp only
  rw [hslot]
  rfl

theorem launchProgram_completes (n : Nat) :
    Completes rowLaunchProgram .launchProgram (fun p u => u.freeSlot (p.f 3 0) = some n) (fun p _ => { r0 := p.f 3 0 * 8 + n })
      (fun p u =>
        (if p.b 6 && !p.b 4 then (u.launched p n).placeWaiting else u.launched p n).choosePc (p.f 3 0) (p.b 4)) :=
  .of (fun _ _ => rfl) fun _ _ hslot => rowLaunchProgram_act _ hslot

/-! ## The records (05 R192, 07 R264, 08 R292) -/

/-- The cores that a packet of READ_CORE_STATS or READ_EXPANDER_STATS names. -/
def statCores (p : Pkt) : List Nat := (List.range (p.f 21 16)).map (p.f 13 8 + ·)

@[simp] theorem statCores_length (p : Pkt) : (statCores p).length = p.f 21 16 := by simp [statCores]

/-- Five counts of cycles of each core are free values (log entry 20). -/
theorem readCoreStats_completes :
    Completes rowReadCoreStats .readCoreStats always
      (fun p u => { wr := [(p.f 127 64, coreRun (u.coreRec (p.b 0)) 5 (u.freeVals (5 * p.f 21 16)).1 (statCores p))] })
      (fun p u => (u.freeVals (5 * p.f 21 16)).2) :=
  .of (fun _ _ => rfl) fun p u _ => by
    rw [← statCores_length p]
    rfl

theorem readAttnCounters_completes :
    Completes rowReadAttnCounters .readAttnCounters always
      (fun p u => { wr := [(p.f 63 0, Mem.readN u.fw (attnPlace 0) 1024)] }) same :=
  .of (fun _ _ => rfl) fun _ _ _ => rfl

/-- Three counts of cycles of each expander of a core are free values (log entry 20). -/
theorem readExpanderStats_completes :
    Completes rowReadExpanderStats .readExpanderStats always
      (fun p u =>
        { wr := [(p.f 127 64, coreRun (u.expRecs (p.b 0)) (3 * meCount (p.b 0)) (u.freeVals (3 * meCount (p.b 0) * p.f 21 16)).1
          (statCores p))] })
      (fun p u => (u.freeVals (3 * meCount (p.b 0) * p.f 21 16)).2) :=
  .of (fun _ _ => rfl) fun p u _ => by
    rw [← statCores_length p]
    rfl

/-- Settles O22: a launch takes the free slot, and a read's answer holds the records of the cores it names. -/
theorem programCommandsComplete : Obligations.ProgramCommandsComplete :=
  ⟨launchProgram_completes, readCoreStats_completes, readAttnCounters_completes, readExpanderStats_completes⟩

end Sys2Proof.Machine
end

section
/-! Control descriptors: a row whose engine stands at its descriptor, and what NOP to HALT then do; O43. -/

namespace Sys2Proof.Machine

/-! ## A row and its engine (06 R209, R211) -/

section

variable {e : EngAt} {d : Desc} {ok : Nat → Bool} {f : At → State → State} {s : State} {a : At}

theorem onEngine_started (hstart : s.startAt e d ok = some a) : onEngine e d ok f s = .next (f a s) := by
  unfold onEngine
  rw [hstart]

theorem onEngine_elsewhere (hnone : s.startAt e d ok = none) : onEngine e d ok f s = .next s := by
  unfold onEngine
  rw [hnone]

/-- A row that is performed as `onEngine` performs it starts its descriptor where its engine is at it, and changes nothing elsewhere. -/
theorem Starts.of_onEngine {i : Instr} (hexec : ∀ s, exec i s = onEngine e d ok f s) : Starts i e d ok f :=
  ⟨fun _ s hstart => (hexec s).trans (onEngine_started hstart), fun s hnone => (hexec s).trans (onEngine_elsewhere hnone)⟩

end

/-! ## NOP, SET, ADD, MUL, LOOP and HALT (06 R215, R216) -/

theorem descNop_starts (e : EngAt) (d : Desc) :
    Starts (.descNop e d) e d (isOp opNop) (fun a s => (s.begin_ a).2.launch a (s.begin_ a).1 []) :=
  .of_onEngine fun _ => rfl

theorem set_starts (e : EngAt) (d : Desc) : Starts (.set e d) e d (isOp opSet) (fun a s => s.setReg a fun _ => immOf a.d) :=
  .of_onEngine fun _ => rfl

theorem add_starts (e : EngAt) (d : Desc) :
    Starts (.add e d) e d (isOp opAdd) (fun a s => s.setReg a fun r => rsOf a.d r + rtOf a.d 0 r + immOf a.d) :=
  .of_onEngine fun _ => rfl

theorem mul_starts (e : EngAt) (d : Desc) :
    Starts (.mul e d) e d (isOp opMul) (fun a s => s.setReg a fun r => rsOf a.d r * rtOf a.d (immOf a.d) r) :=
  .of_onEngine fun _ => rfl

theorem loop_starts (e : EngAt) (d : Desc) :
    Starts (.loop e d) e d (isOp opLoop)
      (fun a s => (s.begin_ a).2.launch a (s.begin_ a).1 [] (rsOf a.d ((s.begin_ a).2.engOf a).regs)) :=
  .of_onEngine fun _ => rfl

theorem halt_starts (e : EngAt) (d : Desc) :
    Starts (.halt e d) e d (isOp opHalt) (fun a s => (s.begin_ a).2.launch a (s.begin_ a).1 []) :=
  .of_onEngine fun _ => rfl

/-! ## LDREG (06 R215) -/

/-- The accesses of an LDREG: it reads the eight bytes at `x` of its scratchpad. -/
def ldregReads (x : Nat) : Acc := ⟨false, false, [(x, 8)]⟩

/-- The state in which an LDREG has taken its tokens and its read has been checked against those of other engines (05 R180). -/
def State.ldregRead (s : State) (a : At) (x : Nat) : State := (s.begin_ a).2.race a (s.begin_ a).1 (ldregReads x)

/-- An aligned word within the scratchpad passes both checks that an LDREG makes before it starts. -/
theorem ldreg_noFault {x size : Nat} (haligned : x % 8 = 0) (hfits : spFault size [(x, 8)] = none) :
    firstFault [if x % 8 = 0 then none else some (0x05, x), spFault size [(x, 8)]] = none := by
  rw [if_pos haligned, hfits]
  rfl

theorem ldreg_acts_clean (e : EngAt) (d : Desc) (a : At) (x : Nat) :
    Acts (.ldreg e d)
      (fun s => s.startAt e d (isOp opLdreg) = some a ∧ (rsOf a.d (s.engOf a).regs + immOf a.d) % 2 ^ 64 = x ∧ x % 8 = 0 ∧
        spFault (spBytes (s.isDecode a)) [(x, 8)] = none ∧ (s.ldregRead a x).spBad a x 8 = false)
      (fun s =>
        let u := s.ldregRead a x
        ((u.modEng a fun g => { g with regs := g.regs.set (fld a.d 131 128) (u.spNat a x 8) }).touch a (s.begin_ a).1
          [ldregReads x]).launch a (s.begin_ a).1 []) := by
  rintro s ⟨hstart, rfl, haligned, hfits, hclean⟩
  change execLdreg e d s = _
  unfold execLdreg
  rw [onEngine_started hstart]
  dsimp only
  rw [ldreg_noFault haligned hfits]
  exact congrArg _ (if_neg (Bool.eq_false_iff.1 hclean))

theorem ldreg_acts_elsewhere (e : EngAt) (d : Desc) : Acts (.ldreg e d) (fun s => s.startAt e d (isOp opLdreg) = none) id :=
  fun s hnone => by
    change execLdreg e d s = _
    exact onEngine_elsewhere hnone

/-- Settles O43: each row is performed where its engine is at its descriptor, and LDREG there reads an aligned, clean word. -/
theorem controlDescriptorsAct : Obligations.ControlDescriptorsAct :=
  fun e d => ⟨descNop_starts e d, set_starts e d, add_starts e d, mul_starts e d, loop_starts e d, halt_starts e d,
    ldreg_acts_clean e d, ldreg_acts_elsewhere e d⟩

end Sys2Proof.Machine
end

section
/-! Rotations: the engine queue timeout, the end of a slice, and the phases of a switch; O45. -/

namespace Sys2Proof.Machine

/-! ## The engine queue timeout (05 R182, 10 R332, 17 R533) -/

theorem engineQueueTimeout_acts (e : EngAt) (c k : Nat) (g : Engine) :
    Acts (.engineQueueTimeout e)
      (fun s => s.runs = true ∧ (s.pc e.pc).live = true ∧ (s.pc e.pc).place = .onCores ∧
        ((s.pc e.pc).cores.zipIdx.find? fun c => c.1 == e.core) = some (c, k) ∧
        ((s.pc e.pc).core.getD k {}).engines[e.eng]? = some g ∧ (s.rot (e.pc / 8) (s.pc e.pc).decode).sw = none ∧ g.halted = false ∧
        g.progress + us ((s.adopt kEngineTimeout).kv kEngineTimeout) ≤ s.now ∧
        (s.adopt kEngineTimeout).anyFwWait (s.pc e.pc) = false)
      (fun s => (s.adopt kEngineTimeout).resetProg e.pc k e.eng 0x09 g.pos 0) := by
  rintro s ⟨hruns, hlive, hcores, hrank, hengine, hnoSwitch, hgoing, hlate, hnoWait⟩
  have hsw : ((s.adopt kEngineTimeout).rot (e.pc / 8) (s.pc e.pc).decode).sw = none := hnoSwitch
  change execEngineQueueTimeout e s = _
  unfold execEngineQueueTimeout
  dsimp only
  rw [if_neg (by simp [hruns]), hrank]
  dsimp only
  rw [hengine]
  exact if_pos (by simp [hlive, hcores, hsw, hgoing, hlate, hnoWait])

/-! ## The end of a slice (10 R330) -/

theorem sliceEnd_happens (k : Nat) (d : Bool) :
    Happens (.sliceEnd k d)
      (fun s => s.fwUp = true ∧ (s.rot k d).cur ≠ 0 ∧ (s.rot k d).sw = none ∧ (s.rot k d).ended = false ∧
        (s.rot k d).sliceAt + us (s.rot k d).sliceUs ≤ s.now)
      (fun s => (s.setRot k d { s.rot k d with ended := true }).choosePc k d) :=
  .of_guard
    (g := fun s => s.fwUp && (s.rot k d).cur != 0 && (s.rot k d).sw.isNone && !(s.rot k d).ended &&
      (s.rot k d).sliceAt + us (s.rot k d).sliceUs ≤ s.now)
    (fun s => by simp [and_assoc]) fun _ => rfl

/-! ## The switch in progress (10 R333 to R336) -/

/-- A row that acts on the switch in progress of a rotation changes nothing where there is none. -/
theorem Acts.of_noSwitch {i : Instr} {k : Nat} {d : Bool} {f : Switch → State → Res}
    (hexec : ∀ s, exec i s = match s.switchOf k d with | some w => f w s | none => .next s) :
    Acts i (fun s => s.switchOf k d = none) id :=
  fun s hnone => by
    rw [hexec, hnone]
    rfl

theorem yieldRequest_acts (k : Nat) (d : Bool) (w : Switch) :
    Acts (.yieldRequest k d) (fun s => s.switchOf k d = some w ∧ w.phase = .asking)
      (fun s => (s.modPc (k * 8 + w.out - 1) ProgCtx.aim).modSw k d fun w => { w with phase := .yielding, askedAt := s.now }) := by
  rintro s ⟨hswitch, hphase⟩
  change execYieldRequest k d s = _
  unfold execYieldRequest
  rw [hswitch]
  exact if_pos hphase

/-- When the outgoing context has stopped: asked to yield, once every engine stands before its yield point (06 R232, 10 R334); told to
stop at once, once every engine is at a resumable point (10 R333). -/
theorem exec_contextStopped {s : State} {k : Nat} {d : Bool} {w : Switch} (hswitch : s.switchOf k d = some w) :
    exec (.contextStopped k d) s = match w.phase with
      | .yielding =>
        if s.allAtYield (s.pc (k * 8 + w.out - 1)) then .next (s.modSw k d fun w => { w with phase := .saving, byYield := true })
        else .next s
      | .stopping =>
        if (s.pc (k * 8 + w.out - 1)).quiet then .next (s.modSw k d fun w => { w with phase := .saving, byYield := false })
        else .next s
      | .asking | .saving | .restoring => .next s := by
  change execContextStopped k d s = _
  unfold execContextStopped
  rw [hswitch]
  dsimp only
  cases w.phase <;> rfl

theorem contextStopped_acts_atYield (k : Nat) (d : Bool) (w : Switch) :
    Acts (.contextStopped k d)
      (fun s => s.switchOf k d = some w ∧ w.phase = .yielding ∧ s.allAtYield (s.pc (k * 8 + w.out - 1)) = true)
      (fun s => s.modSw k d fun w => { w with phase := .saving, byYield := true }) := by
  rintro s ⟨hswitch, hphase, hatYield⟩
  rw [exec_contextStopped hswitch, hphase]
  exact if_pos hatYield

theorem contextStopped_acts_quiet (k : Nat) (d : Bool) (w : Switch) :
    Acts (.contextStopped k d)
      (fun s => s.switchOf k d = some w ∧ w.phase = .stopping ∧ (s.pc (k * 8 + w.out - 1)).quiet = true)
      (fun s => s.modSw k d fun w => { w with phase := .saving, byYield := false }) := by
  rintro s ⟨hswitch, hphase, hquiet⟩
  rw [exec_contextStopped hswitch, hphase]
  exact if_pos hquiet

theorem preemptBoundExpiry_acts (k : Nat) (d : Bool) (w : Switch) :
    Acts (.preemptBoundExpiry k d)
      (fun s => s.switchOf k d = some w ∧ w.phase = .yielding ∧ w.askedAt + us (s.kv kPreemptBound k) ≤ s.now)
      (fun s =>
        ((s.bump kYieldOverruns).modPc (k * 8 + w.out - 1) ProgCtx.unaim).modSw k d fun w => { w with phase := .stopping }) := by
  rintro s ⟨hswitch, hlate⟩
  change execPreemptBoundExpiry k d s = _
  unfold execPreemptBoundExpiry
  rw [hswitch]
  exact if_pos hlate

/-- A context that did not stop by a yield is saved whole, and the restore of the incoming one begins (10 R333, R335). -/
theorem saveComplete_acts_full (k : Nat) (d : Bool) (w : Switch) :
    Acts (.saveComplete k d) (fun s => s.switchOf k d = some w ∧ w.phase = .saving ∧ w.byYield = false ∧ w.inc ≠ 0)
      (fun s =>
        let id := k * 8 + w.out - 1
        let x := s.pc id
        let u := ((s.setPc id (s.saveCores x (x.core.map fun _ => wholeCore)).unaim).bump kYieldFallbacks 0).bump kFullSaves 1 k
        u.setRot k d { u.rot k d with cur := 0, ended := false, sw := some { w with phase := .restoring } }) := by
  rintro s ⟨hswitch, hphase, hstopped, hincoming⟩
  change execSaveComplete k d s = _
  unfold execSaveComplete
  rw [hswitch]
  dsimp only
  rw [if_pos hphase, if_neg hincoming, if_neg hincoming, hstopped]
  rfl

theorem restoreComplete_acts (k : Nat) (d : Bool) (w : Switch) :
    Acts (.restoreComplete k d) (fun s => s.switchOf k d = some w ∧ w.phase = .restoring ∧ w.inc ≠ 0) (fun s => s.arrive k d w) := by
  rintro s ⟨hswitch, hrestored⟩
  change execRestoreComplete k d s = _
  unfold execRestoreComplete
  rw [hswitch]
  exact if_pos hrestored

/-- Settles O45: each clause is a branch of the event's effect under the test that guards it. -/
theorem rotationEventsAct : Obligations.RotationEventsAct :=
  ⟨engineQueueTimeout_acts, sliceEnd_happens, yieldRequest_acts, contextStopped_acts_atYield, contextStopped_acts_quiet,
    preemptBoundExpiry_acts, saveComplete_acts_full, restoreComplete_acts,
    fun _ _ => ⟨.of_noSwitch fun _ => rfl, .of_noSwitch fun _ => rfl, .of_noSwitch fun _ => rfl, .of_noSwitch fun _ => rfl,
      .of_noSwitch fun _ => rfl⟩⟩

end Sys2Proof.Machine
end

section
/-! Partitions: CREATE_PARTITION, DESTROY_PARTITION, BIND_IMAGE and UNBIND_IMAGE; O23. -/

namespace Sys2Proof.Machine

/-! ## CREATE_PARTITION (10 R321, R322)

The attention counter block is cleared but for `part_valid`, at its place in the firmware reserve (07 R263, log entry 75), and the
capability views of the device and of the partition's job change (01 R36). -/

theorem createPartition_completes :
    Completes rowCreatePartition .createPartition always (fun p _ => { r0 := b2n (p.b 5) })
      (fun p u =>
        let k := p.f 3 0
        let j := p.f 19 8
        let v := ((u.clearPartKeys k).setKey kSliceUs k (p.f 175 160) false).setKey kPreemptBound k (p.f 191 176) false
        let v := v.setPart k { st := .active, det := p.b 4, reqYield := p.b 5, effYield := p.b 5, job := j, model := p.f 63 32,
                               pMask := p.f 111 64, dMask := p.f 159 112 }
        let v := v.charge (v.jobTenant j) 0 (20 * popCount 48 (p.f 111 64) + 12 * popCount 48 (p.f 159 112))
        (v.fwWrite (attnPlace k) (List.replicate 16 0 ++ [1] ++ List.replicate 47 0)).capChanged [none, some j]) :=
  .of (fun _ _ => rfl) fun _ _ _ => rfl

/-! ## DESTROY_PARTITION (10 R323) -/

/-- The partition is DESTROYING, and every program context it had has been cancelled. -/
def State.stopPart (u : State) (k : Nat) : State :=
  let v := u.modPart k fun x => { x with st := .destroying }
  (v.pcsOf k).foldl State.cancelProg v

/-- The partition is gone at once unless a program context has outlived its cancelling. -/
theorem rowDestroyPartition_act {p : Pkt} {u : State} (id : Nat) (hpresent : (u.part (p.f 3 0)).st ≠ .absent) :
    rowDestroyPartition.act p id u =
      if (u.stopPart (p.f 3 0)).pcsOf (p.f 3 0) = [] then .done {} ((u.stopPart (p.f 3 0)).finishPart (p.f 3 0))
      else .wait (.destroyPart (p.f 3 0)) true none (u.stopPart (p.f 3 0)) := by
  simp only [← List.isEmpty_iff]
  exact if_neg hpresent

theorem destroyPartition_completes_absent :
    Completes rowDestroyPartition .destroyPartition (fun p u => (u.part (p.f 3 0)).st = .absent)
      (fun _ _ => { status := sOkAlready }) same :=
  .of (fun _ _ => rfl) fun _ _ habsent => if_pos habsent

theorem destroyPartition_completes_empty (v : State) :
    Completes rowDestroyPartition .destroyPartition
      (fun p u => (u.part (p.f 3 0)).st ≠ .absent ∧ u.stopPart (p.f 3 0) = v ∧ v.pcsOf (p.f 3 0) = [])
      (fun _ _ => {}) (fun p _ => v.finishPart (p.f 3 0)) :=
  .of (fun _ _ => rfl) fun _ _ ⟨hpresent, hstopped, hempty⟩ => by
    subst hstopped
    exact (rowDestroyPartition_act _ hpresent).trans (if_pos hempty)

theorem destroyPartition_begins_running (v : State) :
    Begins rowDestroyPartition .destroyPartition
      (fun p u => (u.part (p.f 3 0)).st ≠ .absent ∧ u.stopPart (p.f 3 0) = v ∧ v.pcsOf (p.f 3 0) ≠ [])
      (fun p _ => .destroyPart (p.f 3 0)) true noBound (fun _ _ => v) :=
  .of (fun _ _ => rfl) fun _ _ ⟨hpresent, hstopped, hrunning⟩ => by
    subst hstopped
    exact (rowDestroyPartition_act _ hpresent).trans (if_neg hrunning)

/-! ## BIND_IMAGE (10 R324) -/

/-- The image is bound to the partition, whose effective yield mode is found again. -/
def State.bindTo (u : State) (img k : Nat) : State := (u.modPart k fun x => { x with images := NSet.add x.images img }).recompute k

theorem bindImage_completes_bound :
    Completes rowBindImage .bindImage (fun p u => (u.part (p.f 3 0)).images.contains p.handle = true)
      (fun p u => { status := sOkAlready, r0 := b2n (u.part (p.f 3 0)).effYield }) same :=
  .of (fun _ _ => rfl) fun _ _ hbound => if_pos hbound

theorem bindImage_completes_new (v : State) :
    Completes rowBindImage .bindImage
      (fun p u => (u.part (p.f 3 0)).images.contains p.handle = false ∧ u.bindTo p.handle (p.f 3 0) = v)
      (fun p _ => { r0 := b2n (v.part (p.f 3 0)).effYield }) (fun _ _ => v) :=
  .of (fun _ _ => rfl) fun _ _ ⟨hnew, hbound⟩ => by
    subst hbound
    exact if_neg (Bool.eq_false_iff.1 hnew)

/-! ## UNBIND_IMAGE (10 R325) -/

/-- The image is bound to the partition no longer, whose effective yield mode is found again. -/
def State.unbindFrom (u : State) (img k : Nat) : State := (u.modPart k fun x => { x with images := NSet.del x.images img }).recompute k

/-- The partition's program contexts of the image have been cancelled. -/
def State.stopImage (v : State) (img k : Nat) : State :=
  ((v.pcsOf k).filter fun id => (v.pc id).image == img).foldl State.cancelProg v

/-- The partition has a live program context of the image. -/
def State.runsImage (w : State) (img k : Nat) : Bool := (w.pcsOf k).any fun id => (w.pc id).image == img

/-- UNBIND_IMAGE of a bound image ends at once unless a program context of the image has outlived its cancelling. -/
theorem rowUnbindImage_act {p : Pkt} {u : State} (id : Nat) (hbound : (u.part (p.f 3 0)).images.contains p.handle = true) :
    rowUnbindImage.act p id u =
      let w := (u.unbindFrom p.handle (p.f 3 0)).stopImage p.handle (p.f 3 0)
      if w.runsImage p.handle (p.f 3 0) = true then .wait (.unbind p.handle (p.f 3 0)) true none w
      else .done { r0 := b2n (w.part (p.f 3 0)).effYield } w :=
  if_neg (by rw [hbound]; decide)

theorem unbindImage_completes_unbound :
    Completes rowUnbindImage .unbindImage (fun p u => (u.part (p.f 3 0)).images.contains p.handle = false)
      (fun p u => { status := sOkAlready, r0 := b2n (u.part (p.f 3 0)).effYield }) same :=
  .of (fun _ _ => rfl) fun _ _ hunbound => if_pos (by rw [hunbound]; rfl)

theorem unbindImage_completes_idle (v w : State) :
    Completes rowUnbindImage .unbindImage
      (fun p u => (u.part (p.f 3 0)).images.contains p.handle = true ∧ u.unbindFrom p.handle (p.f 3 0) = v ∧
        v.stopImage p.handle (p.f 3 0) = w ∧ w.runsImage p.handle (p.f 3 0) = false)
      (fun p _ => { r0 := b2n (w.part (p.f 3 0)).effYield }) (fun _ _ => w) :=
  .of (fun _ _ => rfl) fun _ _ ⟨hbound, hunbound, hstopped, hidle⟩ => by
    subst hunbound hstopped
    exact (rowUnbindImage_act _ hbound).trans (if_neg (Bool.eq_false_iff.1 hidle))

theorem unbindImage_begins_running (v w : State) :
    Begins rowUnbindImage .unbindImage
      (fun p u => (u.part (p.f 3 0)).images.contains p.handle = true ∧ u.unbindFrom p.handle (p.f 3 0) = v ∧
        v.stopImage p.handle (p.f 3 0) = w ∧ w.runsImage p.handle (p.f 3 0) = true)
      (fun p _ => .unbind p.handle (p.f 3 0)) true noBound (fun _ _ => w) :=
  .of (fun _ _ => rfl) fun _ _ ⟨hbound, hunbound, hstopped, hrunning⟩ => by
    subst hunbound hstopped
    exact (rowUnbindImage_act _ hbound).trans (if_pos hrunning)

/-- Settles O23: the cases of each command are the branches of its row's effect. -/
theorem partitionCommandsComplete : Obligations.PartitionCommandsComplete :=
  ⟨createPartition_completes, destroyPartition_completes_absent, destroyPartition_completes_empty, destroyPartition_begins_running,
    bindImage_completes_bound, bindImage_completes_new, unbindImage_completes_unbound, unbindImage_completes_idle,
    unbindImage_begins_running⟩

end Sys2Proof.Machine
end

section
/-! The invariants at reset: the premises of the statements about every step; O5. -/

namespace Sys2Proof.Machine

/-- 17 R545: a log with no entry is numbered from its next sequence on. -/
theorem Recov.logOk_of_empty {r : Recov} (hempty : r.log = []) (hseq : r.logSeq < 2 ^ 32) : r.logOk := by
  refine ⟨by simp [hempty], hseq, fun i e hentry => ?_⟩
  rw [hempty] at hentry
  cases hentry

/-- 16 R507: a device that does not sign yet needs no burnt fuse. -/
theorem Ident16.leafOk_of_not_signing {i : Ident16} (hidle : i.signing = false) : i.leafOk := fun hsigning =>
  absurd hsigning (by simp [hidle])

/-- Log entry 2: no memory lists a byte at reset. -/
theorem State.reset_memsOk : State.reset.memsOk = true := State.memsOk_iff.2 ⟨rfl, rfl, rfl, rfl, rfl, rfl⟩

/-- Settles O5: at reset no memory lists a byte, the log holds no entry, and nothing signs. -/
theorem resetMeetsTheInvariants : Obligations.ResetMeetsTheInvariants := by
  obtain ⟨-, hlog, hseq⟩ := State.reset_recovery
  exact ⟨State.reset_memsOk, Recov.logOk_of_empty hlog (by simp [hseq]), Ident16.leafOk_of_not_signing rfl⟩

end Sys2Proof.Machine
end

section
/-! Tiers: the extent and quota commands and the events of extents, drives, demotion and recall, chapter 11 and 17 R549 to R556; O24
and O36. -/

namespace Sys2Proof.Machine

/-! ## GRANT_EXTENT (11 R362, R363) -/

/-- The state in which a T1 run is looked for: a host grant brings the host's limit into force, and a tenant's frees PREFIX objects where
its charge does not fit (11 R368). -/
def State.grantSearch (u : State) (p : Pkt) : State :=
  if grantee p = .host then u.adopt kHostT1 else u.reclaimFor (p.f 25 16) (p.f 63 48)

/-- The run of T1 extents from `e` on has been granted, and counts against the host's limit or the tenant's quota. -/
def State.grantT1 (v : State) (p : Pkt) (e : Nat) : State :=
  let w := v.takeExts 1 e (p.f 63 48) .granted (grantee p)
  if grantee p = .host then { w with hostT1 := w.hostT1 + p.f 63 48 } else w.charge (p.f 25 16) 1 (p.f 63 48)

/-- A grant of T1 that finds a run ends at once. -/
theorem rowGrantExtent_act_t1 {p : Pkt} {u v : State} {e : Nat} (id : Nat) (htier : p.f 1 0 = 1)
    (hrun : (u.grantSearch p).findRun (p.f 63 48) (grantHint p) = (some e, v)) :
    rowGrantExtent.act p id u = .done { r0 := e * extBytes, r1 := p.f 63 48 } (v.grantT1 p e) := by
  unfold State.grantSearch at hrun
  change actGrant p id u = _
  unfold actGrant
  dsimp only
  rw [if_pos htier, hrun]
  rfl

theorem grantExtent_completes_host (e : Nat) (v : State) :
    Completes rowGrantExtent .grantExtent
      (fun p u => p.f 1 0 = 1 ∧ grantee p = .host ∧ (u.adopt kHostT1).findRun (p.f 63 48) (grantHint p) = (some e, v))
      (fun p _ => { r0 := e * extBytes, r1 := p.f 63 48 })
      (fun p _ =>
        let w := v.takeExts 1 e (p.f 63 48) .granted .host
        { w with hostT1 := w.hostT1 + p.f 63 48 }) :=
  .of (fun _ _ => rfl) fun p u ⟨htier, hhost, hrun⟩ => by
    have hsearch : u.grantSearch p = u.adopt kHostT1 := if_pos hhost
    rw [rowGrantExtent_act_t1 _ htier (hsearch ▸ hrun), State.grantT1, if_pos hhost, hhost]

theorem grantExtent_completes_tenant (e : Nat) (v : State) :
    Completes rowGrantExtent .grantExtent
      (fun p u => p.f 1 0 = 1 ∧ grantee p ≠ .host ∧
        (u.reclaimFor (p.f 25 16) (p.f 63 48)).findRun (p.f 63 48) (grantHint p) = (some e, v))
      (fun p _ => { r0 := e * extBytes, r1 := p.f 63 48 })
      (fun p _ => (v.takeExts 1 e (p.f 63 48) .granted (grantee p)).charge (p.f 25 16) 1 (p.f 63 48)) :=
  .of (fun _ _ => rfl) fun p u ⟨htier, htenant, hrun⟩ => by
    have hsearch : u.grantSearch p = u.reclaimFor (p.f 25 16) (p.f 63 48) := if_neg htenant
    rw [rowGrantExtent_act_t1 _ htier (hsearch ▸ hrun), State.grantT1, if_neg htenant]

/-- 11 R363: a grant of T2 takes its run on the bay chosen for it and waits for the run to be filled. -/
theorem grantExtent_begins_fill (d e : Nat) :
    Begins rowGrantExtent .grantExtent
      (fun p u => p.f 1 0 ≠ 1 ∧ u.grantBay (p.f 63 48) = some d ∧
        runPlace (p.f 63 48) (u.t2Gaps d) (u.choose (runPlaces (u.t2Gaps d) (p.f 63 48))).1 = some e)
      (fun p _ => .fill (grantee p) (p.f 25 16) e (p.f 63 48)) false (fun p _ => some (ms (250 + p.f 63 48)))
      (fun p u => (List.range (p.f 63 48)).foldl
        (fun w i => w.issueTier d (t2Off (e + i)) extBytes (.fill u.lastCmd (p.f 127 64 / extBytes + i)))
        ((u.choose (runPlaces (u.t2Gaps d) (p.f 63 48))).2.takeExts 2 e (p.f 63 48) .filling .nobody)) :=
  .of (fun _ _ => rfl) fun p u ⟨htier, hbay, hplace⟩ => by
    change actGrant p u.lastCmd u = _
    unfold actGrant
    dsimp only
    rw [if_neg htier, hbay]
    dsimp only
    rw [hplace]

/-! ## REVOKE_EXTENT (11 R365, R366, log entry 99) -/

/-- A revocation acts on the extents of its range that can be revoked, and has nothing to do where there is none. -/
theorem rowRevokeExtent_act (p : Pkt) (id : Nat) (u : State) :
    rowRevokeExtent.act p id u =
      if (u.revocable p).isEmpty = true then .done { status := sOkAlready } u
      else .wait (.revoke (p.f 1 0) (p.f 127 64 / extBytes) (p.f 31 16) (u.revocable p).length 0) true
        (some (ms (u.kv kExtentDrain + 250))) ((u.revocable p).foldl (fun w e => w.revokeOne (p.f 1 0) e id) u) := rfl

theorem revokeExtent_completes_nothing (es : List Nat) :
    Completes rowRevokeExtent .revokeExtent (fun p u => u.revocable p = es ∧ es = []) (fun _ _ => { status := sOkAlready }) same :=
  .of (fun _ _ => rfl) fun _ _ ⟨hlist, hempty⟩ => by
    rw [rowRevokeExtent_act, hlist, hempty]
    rfl

theorem revokeExtent_begins_drain (es : List Nat) :
    Begins rowRevokeExtent .revokeExtent (fun p u => u.revocable p = es ∧ es ≠ [])
      (fun p _ => .revoke (p.f 1 0) (p.f 127 64 / extBytes) (p.f 31 16) es.length 0) true
      (fun _ u => some (ms (u.kv kExtentDrain + 250))) (fun p u => es.foldl (fun w e => w.revokeOne (p.f 1 0) e u.lastCmd) u) :=
  .of (fun _ _ => rfl) fun _ _ ⟨hlist, hsome⟩ => by
    rw [rowRevokeExtent_act, hlist, if_neg (by simp [hsome])]

/-! ## Quotas (11 R360, R361) -/

theorem setQuota_completes_same :
    Completes rowSetQuota .setQuota (fun p u => u.quotaOf (p.f 9 0) (p.f 17 16) = p.f 63 32)
      (fun p u =>
        { status := sOkAlready, r0 := u.usageOf (p.f 9 0) (p.f 17 16), r1 := b2n (p.f 63 32 < u.usageOf (p.f 9 0) (p.f 17 16)) }) same :=
  .of (fun _ _ => rfl) fun _ _ hsame => if_pos hsame

theorem setQuota_completes_new :
    Completes rowSetQuota .setQuota (fun p u => u.quotaOf (p.f 9 0) (p.f 17 16) ≠ p.f 63 32)
      (fun p u => { r0 := u.usageOf (p.f 9 0) (p.f 17 16), r1 := b2n (p.f 63 32 < u.usageOf (p.f 9 0) (p.f 17 16)) })
      (fun p u => { u with quota := Tab.put 0 u.quota (p.f 9 0 * 4 + p.f 17 16) (p.f 63 32) }) :=
  .of (fun _ _ => rfl) fun _ _ hnew => if_neg hnew

theorem queryQuota_completes :
    Completes rowQueryQuota .queryQuota always
      (fun p u => { r0 := u.quotaOf (p.f 9 0) (p.f 17 16), r1 := u.usageOf (p.f 9 0) (p.f 17 16) }) same :=
  .of (fun _ _ => rfl) fun _ _ _ => rfl

/-- Settles O24: the cases of each command are the branches of its row's effect. -/
theorem tierCommandsComplete : Obligations.TierCommandsComplete :=
  ⟨grantExtent_completes_host, grantExtent_completes_tenant, grantExtent_begins_fill, revokeExtent_completes_nothing,
    revokeExtent_begins_drain, setQuota_completes_same, setQuota_completes_new, queryQuota_completes⟩

/-! ## Buttons and abort windows (17 R549, R550, R554) -/

/-- A press during a control-core restart is kept for its end, and else acted on (17 R549). -/
theorem exec_buttonPress {s : State} (b : Button) (hruns : s.runs = true) :
    exec (.buttonPress b) s =
      if s.rcv.ctlRestart = true then .next { s with rcv := { s.rcv with buttons := s.rcv.buttons ++ [buttonCode b] } }
      else .next (s.press (buttonCode b)) :=
  if_neg (by simp [hruns])

theorem State.fwUp_iff {s : State} : s.fwUp = true ↔ s.runs = true ∧ s.rcv.ctlRestart = false := by
  simp [State.fwUp]

theorem buttonPress_acts_pressed (b : Button) : Acts (.buttonPress b) (fun s => s.fwUp = true) (fun s => s.press (buttonCode b)) :=
  fun s hup => by
    obtain ⟨hruns, hrestart⟩ := State.fwUp_iff.1 hup
    rw [exec_buttonPress b hruns, if_neg (Bool.eq_false_iff.1 hrestart)]

theorem buttonPress_acts_latched (b : Button) :
    Acts (.buttonPress b) (fun s => s.runs = true ∧ s.rcv.ctlRestart = true)
      (fun s => { s with rcv := { s.rcv with buttons := s.rcv.buttons ++ [buttonCode b] } }) :=
  fun s ⟨hruns, hrestart⟩ => by rw [exec_buttonPress b hruns, if_pos hrestart]

theorem abortWindowExpiry_acts_drive (d t : Nat) :
    Acts (.abortWindowExpiry (.drive d))
      (fun s => s.fwUp = true ∧ (s.drive d).windowEnd = some t ∧ (s.drive d).st = .active ∧ t ≤ s.now) (fun s => s.drainBay d) := by
  rintro s ⟨hup, hwindow, hactive, hover⟩
  change execAbortWindowExpiry (.drive d) s = _
  unfold execAbortWindowExpiry
  dsimp only
  rw [hwindow]
  exact if_pos (by simp [hup, hactive, hover])

theorem abortWindowExpiry_happens_module :
    Happens (.abortWindowExpiry .module) (fun s => s.fwUp = true ∧ s.rcv.modSt = .abortWindow ∧ s.rcv.modAt ≤ s.now)
      State.drainModule :=
  .of_guard (g := fun s => s.fwUp && s.rcv.modSt == .abortWindow && s.rcv.modAt ≤ s.now) (fun s => by simp [and_assoc]) fun _ => rfl

/-! ## Drives (11 R348, 17 R550) -/

theorem State.pwrok_of_runs {s : State} (hruns : s.runs = true) : s.board.pwrok = true := (Bool.and_eq_true_iff.1 hruns).1

theorem drivePresenceChange_acts_inserted (d c : Nat) :
    Acts (.drivePresenceChange d true c) (fun s => s.runs = true ∧ (s.drive d).present = false ∧ s.bayComposed d = true)
      (fun s => (s.setDrive d { s.drive d with present := true, capacity := c }).powerBay d) := by
  rintro s ⟨hruns, habsent, hcomposed⟩
  change execDrivePresenceChange d true c s = _
  unfold execDrivePresenceChange
  rw [if_neg (by simp [State.pwrok_of_runs hruns]), if_neg (by simp [hruns, habsent]), if_pos rfl]
  exact congrArg _ (if_pos hcomposed)

/-- The state in which the bay's drive has gone. -/
def State.driveGone (s : State) (d : Nat) : State := s.setDrive d { s.drive d with present := false, training := false }

/-- What the going of a drive does depends on the state its bay was in. -/
theorem exec_drivePresenceChange_removed {d : Nat} {s : State} (c : Nat) (hruns : s.runs = true) (hpresent : (s.drive d).present = true) :
    exec (.drivePresenceChange d false c) s = match (s.drive d).st with
      | .active => .next ((s.driveGone d).failBay d)
      | .draining => .next (((s.driveGone d).failBay d).setBay d .absent 0)
      | .safe => .next ((s.driveGone d).setBay d .absent 0)
      | .failed => .next ((s.driveGone d).setBay d .absent 0)
      | .absent => .next (s.driveGone d) := by
  change execDrivePresenceChange d false c s = _
  unfold execDrivePresenceChange
  rw [if_neg (by simp [State.pwrok_of_runs hruns]), if_neg (by simp [hruns, hpresent])]
  rfl

theorem drivePresenceChange_acts_activeRemoved (d c : Nat) :
    Acts (.drivePresenceChange d false c) (fun s => s.runs = true ∧ (s.drive d).present = true ∧ (s.drive d).st = .active)
      (fun s => (s.driveGone d).failBay d) :=
  fun s ⟨hruns, hpresent, hactive⟩ => by rw [exec_drivePresenceChange_removed c hruns hpresent, hactive]

theorem drivePresenceChange_acts_idleRemoved (d c : Nat) :
    Acts (.drivePresenceChange d false c)
      (fun s => s.runs = true ∧ (s.drive d).present = true ∧ ((s.drive d).st = .safe ∨ (s.drive d).st = .failed))
      (fun s => (s.driveGone d).setBay d .absent 0) := by
  rintro s ⟨hruns, hpresent, hsafe | hfailed⟩
  · rw [exec_drivePresenceChange_removed c hruns hpresent, hsafe]
  · rw [exec_drivePresenceChange_removed c hruns hpresent, hfailed]

theorem driveFailure_happens (d : Nat) :
    Happens (.driveFailure d) (fun s => s.runs = true ∧ ((s.drive d).st = .active ∨ (s.drive d).st = .draining))
      (fun s => s.failBay d) :=
  .of_guard (g := fun s => s.runs && ((s.drive d).st == .active || (s.drive d).st == .draining)) (fun s => by simp) fun _ => rfl

theorem driveDrainComplete_happens (d : Nat) :
    Happens (.driveDrainComplete d) (fun s => s.runs = true ∧ (s.drive d).st = .draining ∧ s.demotedOn d = [])
      (fun s => (s.setBay d .safe 0).finishAll (fun w => w == .drain 1 d) { r0 := (s.drive d).ended }) :=
  .of_guard (g := fun s => s.runs && (s.drive d).st == .draining && (s.demotedOn d).isEmpty) (fun s => by simp [and_assoc]) fun _ => rfl

/-- The end of a bay's training: the drive goes into use or has failed. -/
theorem exec_driveTrained {d : Nat} {s : State} (ok : Bool) (hruns : s.runs = true) (htraining : (s.drive d).training = true) :
    exec (.driveTrained d ok) s =
      if ok = true then .next (s.activateBay d)
      else .next ((s.setDrive d { s.drive d with training := false }).setBay d .failed 0) :=
  if_pos (by simp [hruns, htraining])

theorem driveTrained_acts_up (d : Nat) :
    Acts (.driveTrained d true) (fun s => s.runs = true ∧ (s.drive d).training = true) (fun s => s.activateBay d) :=
  fun _ ⟨hruns, htraining⟩ => exec_driveTrained true hruns htraining

theorem driveTrained_acts_failed (d : Nat) :
    Acts (.driveTrained d false) (fun s => s.runs = true ∧ (s.drive d).training = true)
      (fun s => (s.setDrive d { s.drive d with training := false }).setBay d .failed 0) :=
  fun _ ⟨hruns, htraining⟩ => exec_driveTrained false hruns htraining

/-! ## Operations of a drive (11 R348, R352) -/

/-- The end of an operation: one that succeeded has its effect, and one that failed is tried again while it has attempts left. -/
theorem exec_driveIoComplete {n : Nat} {s : State} {o : TierOp} (ok : Bool) (b : List Byte) (hruns : s.runs = true)
    (hfind : s.tierOps.find? (·.id == n) = some o) :
    exec (.driveIoComplete n ok b) s =
      if ok = true then .next (if o.why = .sector then (s.tierDone o b).sectorOut o.id true else s.tierDone o b)
      else if o.left = 0 then .next (s.ioLost o sTierFault) else .next (s.retryTier o) := by
  change execDriveIoComplete n ok b s = _
  unfold execDriveIoComplete
  rw [hfind]
  exact if_neg (by simp [hruns])

theorem driveIoComplete_acts_sector (n : Nat) (b : List Byte) (o : TierOp) :
    Acts (.driveIoComplete n true b) (fun s => s.runs = true ∧ s.tierOps.find? (·.id == n) = some o ∧ o.why = .sector)
      (fun s => (s.tierDone o b).sectorOut o.id true) :=
  fun s ⟨hruns, hfind, hsector⟩ => by rw [exec_driveIoComplete true b hruns hfind, if_pos rfl, if_pos hsector]

theorem driveIoComplete_acts_done (n : Nat) (b : List Byte) (o : TierOp) :
    Acts (.driveIoComplete n true b) (fun s => s.runs = true ∧ s.tierOps.find? (·.id == n) = some o ∧ o.why ≠ .sector)
      (fun s => s.tierDone o b) :=
  fun s ⟨hruns, hfind, hother⟩ => by rw [exec_driveIoComplete true b hruns hfind, if_pos rfl, if_neg hother]

theorem driveIoComplete_acts_lost (n : Nat) (b : List Byte) (o : TierOp) :
    Acts (.driveIoComplete n false b) (fun s => s.runs = true ∧ s.tierOps.find? (·.id == n) = some o ∧ o.left = 0)
      (fun s => s.ioLost o sTierFault) :=
  fun s ⟨hruns, hfind, hlast⟩ => by rw [exec_driveIoComplete false b hruns hfind, if_neg Bool.false_ne_true, if_pos hlast]

theorem driveIoComplete_acts_retry (n : Nat) (b : List Byte) (o : TierOp) :
    Acts (.driveIoComplete n false b) (fun s => s.runs = true ∧ s.tierOps.find? (·.id == n) = some o ∧ o.left ≠ 0)
      (fun s => s.retryTier o) :=
  fun s ⟨hruns, hfind, hmore⟩ => by rw [exec_driveIoComplete false b hruns hfind, if_neg Bool.false_ne_true, if_neg hmore]

/-- The time-out of an operation: a read fails at once, a write or Flush by attempts. -/
theorem exec_tierTimeout {n : Nat} {s : State} {o : TierOp} (hruns : s.runs = true) (hfind : s.tierOps.find? (·.id == n) = some o)
    (hdue : o.due ≤ s.now) :
    exec (.tierTimeout n) s =
      if (o.why.isRead || o.left == 0) = true then .next (s.ioLost o sTimeout) else .next (s.retryTier o) := by
  change execTierTimeout n s = _
  unfold execTierTimeout
  rw [hfind]
  exact if_neg (by simp [hruns, hdue])

theorem tierTimeout_acts_lost (n : Nat) (o : TierOp) :
    Acts (.tierTimeout n)
      (fun s => s.runs = true ∧ s.tierOps.find? (·.id == n) = some o ∧ o.due ≤ s.now ∧ (o.why.isRead = true ∨ o.left = 0))
      (fun s => s.ioLost o sTimeout) :=
  fun s ⟨hruns, hfind, hdue, hfinal⟩ => by rw [exec_tierTimeout hruns hfind hdue, if_pos (by simpa using hfinal)]

theorem tierTimeout_acts_retry (n : Nat) (o : TierOp) :
    Acts (.tierTimeout n)
      (fun s => s.runs = true ∧ s.tierOps.find? (·.id == n) = some o ∧ o.due ≤ s.now ∧ o.why.isRead = false ∧ o.left ≠ 0)
      (fun s => s.retryTier o) :=
  fun s ⟨hruns, hfind, hdue, hwrite, hmore⟩ => by rw [exec_tierTimeout hruns hfind hdue, if_neg (by simp [hwrite, hmore])]

/-! ## Demotion and recall (11 R354, R355) -/

theorem demoteCheck_acts :
    Acts .demoteCheck
      (fun s => s.fwUp = true ∧ s.pow.level < 2 ∧ ((s.adopt kPauseDemote).adopt kDemoteEnable).kv kDemoteEnable = 1)
      (fun s => (((s.adopt kPauseDemote).adopt kDemoteEnable).ctxsThat fun _ => true).foldl
        (fun u i => if u.demoteDue i then u.startDemotion i else u) ((s.adopt kPauseDemote).adopt kDemoteEnable)) := by
  rintro s ⟨hup, hlevel, henabled⟩
  change execDemoteCheck s = _
  unfold execDemoteCheck
  rw [if_neg (by simp [hup, hlevel])]
  exact if_pos henabled

/-- Once no write of the demotion is under way, the region's run goes back, held extents at once and the others over a scrub. -/
theorem demotionCommit_acts (c : Nat) (r : Region) :
    Acts (.demotionCommit c)
      (fun s => s.runs = true ∧ s.regionOf c = some r ∧ (s.ctx c).demoting = true ∧ s.tierOpsFor (TierFor.demotes c) = [])
      (fun s => ((((List.range r.count).foldl (fun u k =>
          if (u.ext 1 (r.first + k)).st = .held then u.setExt 1 (r.first + k) {} else u.scrubExt 1 (r.first + k)) s).setRegion
        { r with hasRun := false }).modCtx c fun x => { x with demoting := false, demoted := true }).bump kDemotions) := by
  rintro s ⟨hruns, hregion, hdemoting, hwritten⟩
  change execDemotionCommit c s = _
  unfold execDemotionCommit
  rw [hregion]
  exact if_pos (by simp [hruns, hdemoting, hwritten])

/-- Once every extent of the region has been read back, its T2 extents are released and the request decodes again where it may. -/
theorem recallCommit_acts (c : Nat) (r : Region) :
    Acts (.recallCommit c)
      (fun s => s.runs = true ∧ (s.seekRun c).regionOf c = some r ∧ ((s.seekRun c).ctx c).recalling = true ∧ r.hasRun = true ∧
        (s.seekRun c).tierOpsFor (TierFor.recalls c) = [] ∧ (s.seekRun c).runs = true)
      (fun s => (((((r.demoted.foldl (fun u d => u.releaseExt 2 d.2) (s.seekRun c)).setRegion
        { r with demoted := [] }).settleRevokes).modCtx c
          fun x => { x with demoted := false, recalling := false }).bump kRecalls).tryDecode c) := by
  rintro s ⟨hruns, hregion, hrecalling, hrun, hread, -⟩
  change execRecallCommit c s = _
  unfold execRecallCommit
  rw [if_neg (by simp [hruns])]
  dsimp only
  rw [hregion]
  exact if_pos (by simp [hrecalling, hrun, hread])

theorem recallTimeout_happens (c : Nat) :
    Happens (.recallTimeout c) (fun s => s.runs = true ∧ (s.ctx c).recalling = true ∧ (s.ctx c).recallBy ≤ s.now)
      (fun s => s.lostRecall c) :=
  .of_guard (g := fun s => s.runs && (s.ctx c).recalling && (s.ctx c).recallBy ≤ s.now) (fun s => by simp [and_assoc]) fun _ => rfl

/-! ## The ends of drains and scrubs (11 R344, R366, R367) -/

theorem extentDrainEnd_happens (t e : Nat) :
    Happens (.extentDrainEnd t e)
      (fun s => s.runs = true ∧ (s.ext t e).st = .draining ∧ (s.ext t e).who.owner = none ∧ s.extBusy t e = false)
      (fun s => (s.releaseExt t e).settleRevokes) :=
  .of_guard (g := fun s => s.runs && (s.ext t e).st == .draining && (s.ext t e).who.owner.isNone && !s.extBusy t e)
    (fun s => by simp [and_assoc]) fun _ => rfl

/-- 11 R367: at the timeout of a drain, the request that owns the extent ends; where no request owns it, the sector reads still outstanding
fail, and the extent is released. -/
theorem exec_extentDrainTimeout {t e : Nat} {s : State} (hruns : s.runs = true) (hdraining : (s.ext t e).st = .draining)
    (hdue : (s.ext t e).drainBy ≤ s.now) :
    exec (.extentDrainTimeout t e) s = match (s.ext t e).who.owner with
      | some c => .next (((s.revokeEnded (s.ext t e).cmd).endReq c sExtentRevoked).settleRevokes)
      | none => .next ((((s.tierOps.filter fun o => t == 2 && o.why == .sector && o.offset / extBytes == e).foldl
          (fun u o => u.tierLost o sTimeout) s).releaseExt t e).settleRevokes) :=
  if_pos (by simp [hruns, hdraining, hdue])

theorem extentDrainTimeout_acts_owned (t e c : Nat) :
    Acts (.extentDrainTimeout t e)
      (fun s => s.runs = true ∧ (s.ext t e).st = .draining ∧ (s.ext t e).drainBy ≤ s.now ∧ (s.ext t e).who.owner = some c)
      (fun s => ((s.revokeEnded (s.ext t e).cmd).endReq c sExtentRevoked).settleRevokes) :=
  fun s ⟨hruns, hdraining, hdue, howner⟩ => by rw [exec_extentDrainTimeout hruns hdraining hdue, howner]

theorem extentDrainTimeout_acts_released (t e : Nat) :
    Acts (.extentDrainTimeout t e)
      (fun s => s.runs = true ∧ (s.ext t e).st = .draining ∧ (s.ext t e).drainBy ≤ s.now ∧ (s.ext t e).who.owner = none)
      (fun s => ((((s.tierOps.filter fun o => t == 2 && o.why == .sector && o.offset / extBytes == e).foldl
        (fun u o => u.tierLost o sTimeout) s).releaseExt t e).settleRevokes)) :=
  fun s ⟨hruns, hdraining, hdue, hnobody⟩ => by rw [exec_extentDrainTimeout hruns hdraining hdue, hnobody]

/-- The extent is FREE and reads as zeros; a T1 extent is clean of poison too. -/
def State.scrubbed (s : State) (t e : Nat) : State :=
  let v := s.setExt t e {}
  if t = 2 then { v with t2 := Mem.zero v.t2 (t2Off e) extBytes }
  else { v with hbm := Mem.zero v.hbm (e * extBytes) extBytes
                fab := { v.fab with hbmPoison := NSet.delRange v.fab.hbmPoison (e * 16384) 16384 } }

/-- A scrub that is under way ends; revocations that waited for it are settled, and recalls look for a run again. -/
theorem scrubComplete_happens (t e : Nat) :
    Happens (.scrubComplete t e) (fun s => s.runs = true ∧ (s.ext t e).st = .scrubbing)
      (fun s => ((s.scrubbed t e).ctxsThat fun c => c.recalling).foldl State.seekRun (s.scrubbed t e).settleRevokes) :=
  .of_guard (g := fun s => s.runs && (s.ext t e).st == .scrubbing) (fun s => by simp) fun _ => rfl

/-- Settles O36: each clause is a branch of the event's effect under the test that guards it. -/
theorem tierEventsAct : Obligations.TierEventsAct :=
  ⟨buttonPress_acts_pressed, buttonPress_acts_latched, abortWindowExpiry_acts_drive, abortWindowExpiry_happens_module,
    drivePresenceChange_acts_inserted, drivePresenceChange_acts_activeRemoved, drivePresenceChange_acts_idleRemoved,
    driveFailure_happens, driveIoComplete_acts_sector, driveIoComplete_acts_done, driveIoComplete_acts_lost,
    driveIoComplete_acts_retry, tierTimeout_acts_lost, tierTimeout_acts_retry, driveDrainComplete_happens, driveTrained_acts_up,
    driveTrained_acts_failed, demoteCheck_acts, demotionCommit_acts, recallCommit_acts, recallTimeout_happens,
    extentDrainEnd_happens, extentDrainTimeout_acts_owned, extentDrainTimeout_acts_released, scrubComplete_happens 2,
    scrubComplete_happens 1⟩

end Sys2Proof.Machine
end

section
/-! Fabric memory: what an atomic writes and returns at the home; O60. -/

namespace Sys2Proof.Machine

/-! ## Numbers as little-endian bytes (00 R4) -/

@[simp] theorem toLE_length (n v : Nat) : (toLE n v).length = n := by
  induction n generalizing v with
  | zero => rfl
  | succ n ih => rw [toLE, List.length_cons, ih]

/-- The bytes of a number that fits in them give the number back. -/
theorem leNat_toLE {n v : Nat} (hfits : v < 256 ^ n) : leNat (toLE n v) = v := by
  induction n generalizing v with
  | zero => exact (Nat.lt_one_iff.1 hfits).symm
  | succ n ih =>
    have hrest : leNat (toLE n (v / 256)) = v / 256 := ih (Nat.div_lt_of_lt_mul (by rwa [Nat.pow_succ'] at hfits))
    rw [toLE, leNat, hrest, BitVec.toNat_ofNat]
    exact Nat.mod_add_div v 256

theorem leNat_lt (bs : List Byte) : leNat bs < 256 ^ bs.length := by
  induction bs with
  | nil => exact Nat.one_pos
  | cons b bs ih =>
    have hbyte : b.toNat < 256 := b.isLt
    rw [leNat, List.length_cons, Nat.pow_succ']
    omega

/-! ## Atomics at the home (12 R377) -/

/-- ADD, SWAP and CAS. -/
theorem atomicNew_codes (old x y : Nat) :
    atomicNew 0 old x y = (old + x) % 2 ^ 64 ∧ atomicNew 1 old x y = x ∧ atomicNew 2 old x y = if old = x then y else old :=
  ⟨rfl, rfl, rfl⟩

/-- An atomic of words gives a word. -/
theorem atomicNew_lt {code old x y : Nat} (hold : old < 2 ^ 64) (hx : x < 2 ^ 64) (hy : y < 2 ^ 64) :
    atomicNew code old x y < 2 ^ 64 := by
  unfold atomicNew
  split_ifs
  · exact Nat.mod_lt _ (by decide)
  · exact hx
  · exact hy
  · exact hold

/-- A word of the HBM window is below 2^64. -/
theorem State.hbmRead_word_lt (s : State) (a : Nat) : leNat (s.hbmRead a 8) < 2 ^ 64 := by
  have hbytes := leNat_lt (s.hbmRead a 8)
  rwa [State.hbmRead, List.length_map, List.length_range] at hbytes

/-- A word written reads back as it was written. -/
theorem State.hbmRead_hbmWrite_word (s : State) (a : Nat) {v : Nat} (hword : v < 2 ^ 64) :
    leNat ((s.hbmWrite a (toLE 8 v)).hbmRead a 8) = v := by
  have hbytes : (s.hbmWrite a (toLE 8 v)).hbmRead a 8 = toLE 8 v := by
    simpa only [toLE_length] using s.hbmRead_hbmWrite a (toLE 8 v)
  rw [hbytes, leNat_toLE hword]

theorem State.doAtomic_poisoned {s : State} {a : Nat} (code x y : Nat) (hpoison : s.poisonAt (a / 128) = true) :
    s.doAtomic a code x y = (none, s) := if_pos hpoison

theorem State.doAtomic_clean {s : State} {a : Nat} (code x y : Nat) (hclean : s.poisonAt (a / 128) = false) :
    s.doAtomic a code x y =
      (some (leNat (s.hbmRead a 8)), s.hbmWrite a (toLE 8 (atomicNew code (leNat (s.hbmRead a 8)) x y))) :=
  if_neg (Bool.eq_false_iff.1 hclean)

/-- Settles O60: an atomic on a clean word is a write of the eight bytes of its result. -/
theorem atomicsReturnTheOldWord : Obligations.AtomicsReturnTheOldWord := by
  refine ⟨atomicNew_codes, fun s a code x y _ _ hx hy => ⟨s.doAtomic_poisoned code x y, fun hclean => ?_⟩⟩
  have hnew := atomicNew_lt (code := code) (s.hbmRead_word_lt a) hx hy
  exact ⟨_, State.doAtomic_clean code x y hclean, s.hbmRead_hbmWrite_word a hnew,
    fun b hout => s.hbmWrite_hbmByte_out a b _ (by rwa [toLE_length]), s.hbmWrite_frame a _⟩

end Sys2Proof.Machine
end

section
/-! Fabric memory: FLUSH_RANGE, ACQUIRE_RANGE, PUBLISH and QUERY_NODE, each case of each command's effect; O25. -/

namespace Sys2Proof.Machine

/-! ## FLUSH_RANGE and ACQUIRE_RANGE (12 R394, R395) -/

/-- Nothing waits where no write of this device into the range is outstanding (12 R394). -/
theorem flushRange_completes :
    Completes rowFlushRange .flushRange (fun p u => u.writesTo (p.f 13 0) (p.f 127 64) (p.f 191 128) = []) (fun _ _ => {}) same :=
  .of (fun _ _ => rfl) fun _ _ hnone => if_pos (List.isEmpty_iff.2 hnone)

theorem flushRange_begins :
    Begins rowFlushRange .flushRange (fun p u => u.writesTo (p.f 13 0) (p.f 127 64) (p.f 191 128) ≠ [])
      (fun p u => .flush (u.writesTo (p.f 13 0) (p.f 127 64) (p.f 191 128))) true noBound same :=
  .of (fun _ _ => rfl) fun _ _ hwrites => if_neg (mt List.isEmpty_iff.1 hwrites)

/-- The version of an extent of another node is asked of its home. -/
theorem acquireRange_begins :
    Begins rowAcquireRange .acquireRange (fun p u => p.b 28 = true ∧ p.f 13 0 ≠ u.self)
      (fun p _ => .acquire (p.f 13 0) (p.f 127 64) (p.f 191 128)) false noBound
      (fun p u => if u.dead (p.f 13 0) then u
        else u.request (.command u.lastCmd) (p.f 13 0) 11 3 0 (p.f 127 64 / extBytes * extBytes) (p.f 27 16) (.bytes [])) :=
  .of (fun _ _ => rfl) fun _ _ ⟨hversion, hremote⟩ => if_pos (by simp [hversion, hremote])

theorem acquireRange_completes :
    Completes rowAcquireRange .acquireRange (fun p u => p.b 28 = false ∨ p.f 13 0 = u.self)
      (fun p u => { r0 := if p.b 28 then u.version (p.f 127 64 / extBytes) else 0 })
      (fun p u => u.rlcDrop fun line =>
        line * 128 / 2 ^ 50 == p.f 13 0 && p.f 127 64 ≤ line * 128 % 2 ^ 50 && line * 128 % 2 ^ 50 < p.f 127 64 + p.f 191 128) :=
  .of (fun _ _ => rfl) fun _ _ hlocal => if_neg (by simpa [or_iff_not_imp_left] using hlocal)

/-! ## PUBLISH and QUERY_NODE (12 R397 to R399, R412) -/

theorem publish_completes_here :
    Completes rowPublish .publish
      (fun p u => u.writesTo (p.f 13 0) (p.f 127 64) (p.f 63 48 * extBytes) = [] ∧ p.f 13 0 = u.self)
      (fun p u =>
        let x := u.publish (p.f 127 64) (p.f 63 48) (p.f 191 128) (p.f 27 16) (p.b 28)
        publishAns x.1 x.2.1 x.2.2.1)
      (fun p u => (u.publish (p.f 127 64) (p.f 63 48) (p.f 191 128) (p.f 27 16) (p.b 28)).2.2.2) :=
  .of (fun _ _ => rfl) fun _ _ ⟨hnone, hhere⟩ => if_pos (Bool.and_eq_true_iff.2 ⟨List.isEmpty_iff.2 hnone, beq_iff_eq.2 hhere⟩)

theorem publish_begins_remote :
    Begins rowPublish .publish
      (fun p u => u.writesTo (p.f 13 0) (p.f 127 64) (p.f 63 48 * extBytes) = [] ∧ p.f 13 0 ≠ u.self ∧ u.dead (p.f 13 0) = false)
      (fun p _ => .publish [] (p.f 13 0) (p.f 127 64) (p.f 63 48) (p.f 191 128) (p.f 27 16) (p.b 28) true) false noBound
      (fun p u => u.request (.command u.lastCmd) (p.f 13 0) 9 3 0 (p.f 127 64) (p.f 27 16)
        (.bytes (toLE 16 (pack [(16, p.f 63 48), (48, 0), (64, p.f 191 128)])))) :=
  .of (fun _ _ => rfl) fun _ _ ⟨hnone, hremote, hlives⟩ =>
    (if_neg (by simp [hremote])).trans ((if_neg (by simp [hlives])).trans (if_pos (List.isEmpty_iff.2 hnone)))

/-- A PUBLISH is sent only once this device's own writes into its range are complete (12 R397). -/
theorem publish_begins_behindWrites :
    Begins rowPublish .publish (fun p u => u.writesTo (p.f 13 0) (p.f 127 64) (p.f 63 48 * extBytes) ≠ [])
      (fun p u => .publish (u.writesTo (p.f 13 0) (p.f 127 64) (p.f 63 48 * extBytes)) (p.f 13 0) (p.f 127 64) (p.f 63 48) (p.f 191 128)
        (p.f 27 16) (p.b 28) false) false noBound same :=
  .of (fun _ _ => rfl) fun _ _ hwrites =>
    (if_neg (by simp [hwrites])).trans ((if_neg (by simp [hwrites])).trans (if_neg (mt List.isEmpty_iff.1 hwrites)))

theorem queryNode_completes :
    Completes rowQueryNode .queryNode always (fun p u => { r0 := (u.nodeWords (p.f 13 0)).1, r1 := (u.nodeWords (p.f 13 0)).2 }) same :=
  .of (fun _ _ => rfl) fun _ _ _ => rfl

/-- Settles O25: the cases of each command are the branches of its row's effect. -/
theorem fabricCommandsComplete : Obligations.FabricCommandsComplete :=
  ⟨flushRange_completes, flushRange_begins, acquireRange_begins, acquireRange_completes, publish_completes_here,
    publish_begins_remote, publish_begins_behindWrites, queryNode_completes⟩

end Sys2Proof.Machine
end

section
/-! Fabric memory: the packets of requests and of responses, and the timers of what is outstanding; O39, O40. -/

namespace Sys2Proof.Machine

/-! ## Rows of packets (12 R380) -/

/-- A row does nothing with a packet of another type. -/
theorem Acts.of_otherType {i : Instr} {n : Nat} {p : FPkt} {f : State → State} (hexec : ∀ s, exec i s = onType n p s (f s))
    (htype : p.ptype ≠ n) : Acts i (fun _ => True) id :=
  fun s _ => (hexec s).trans (if_neg htype)

/-- A packet of the row's own type is acted on. -/
theorem Acts.of_ownType {i : Instr} {n : Nat} {p : FPkt} {f : State → State} (hexec : ∀ s, exec i s = onType n p s (f s))
    (htype : p.ptype = n) {due : State → Prop} {t : State → State} (hact : ∀ s, due s → f s = t s) : Acts i due t :=
  fun s hdue => ((hexec s).trans (if_pos htype)).trans (congrArg _ (hact s hdue))

/-! ## Requests of other nodes (12 R382, R383, R401, R402) -/

/-- A request of an older map is counted and refused, and its number is not taken. -/
theorem State.requestIn_staleMap {s : State} {l : Nat} {p : FPkt} {tw : List TwinCopy} (hmap : s.inMap = true) (hdst : p.dst = s.self)
    (hother : p.epoch ≠ s.compo.epoch) (hnotNewer : epochNewer p.epoch s.compo.epoch = false) :
    s.requestIn l p tw = (((s.takeRx l (· == p)).heardFrom p.src).bump kStaleMap).nack p nStaleMap := by
  unfold State.requestIn
  rw [if_neg (by simp [hmap, hdst])]
  dsimp only
  rw [if_neg (Bool.eq_false_iff.1 hnotNewer), if_pos hother]

/-- A request of a newer map is discarded: its packet is taken from the link, and nothing else comes of it. -/
theorem State.requestIn_newerMap {s : State} {l : Nat} {p : FPkt} {tw : List TwinCopy} (hmap : s.inMap = true) (hdst : p.dst = s.self)
    (hnewer : epochNewer p.epoch s.compo.epoch = true) : s.requestIn l p tw = (s.takeRx l (· == p)).heardFrom p.src := by
  unfold State.requestIn
  rw [if_neg (by simp [hmap, hdst])]
  exact if_pos hnewer

/-- Settles O39: each of the five rows is the arrival of a request packet of its type. -/
theorem requestPacketsAct : Obligations.RequestPacketsAct := by
  intro c hc l p
  have hexec : ∀ s, exec (c.2 l p) s = onType c.1 p s (s.requestIn l p) := by
    simp only [List.mem_cons, List.not_mem_nil, or_false] at hc
    rcases hc with rfl | rfl | rfl | rfl | rfl <;> exact fun _ => rfl
  refine ⟨Acts.of_otherType hexec, fun htype => ⟨fun t u => ?_, ?_, ?_, ?_⟩⟩
  · refine .of_ownType hexec htype ?_
    rintro s ⟨hmap, hdst, hepoch, hnotNewer, hseq, rfl, hperform⟩
    rw [State.requestIn_inTurn hmap hdst hepoch hnotNewer hseq, State.inTurn, hperform]
  · exact .of_ownType hexec htype fun _ ⟨hmap, hdst, hother, hnotNewer⟩ => State.requestIn_staleMap hmap hdst hother hnotNewer
  · exact .of_ownType hexec htype fun _ ⟨hmap, hdst, hnewer⟩ => State.requestIn_newerMap hmap hdst hnewer
  · exact .of_ownType hexec htype fun _ hapart => State.requestIn_apart hapart

/-! ## Responses (12 R379, R382, R401) -/

section

variable {s v : State} {l : Nat} {p : FPkt} {f : State → Txn → State} {t : Txn} (hmap : s.inMap = true) (hdst : p.dst = s.self)
  (hepoch : p.epoch = s.compo.epoch) (hsound : p.sound = true) (hv : (s.takeRx l (· == p)).heardFrom p.src = v)
  (hsame : v.compo.epoch = s.compo.epoch) (htxn : v.txnOf p.tag p.src = some t) (hseq : t.pkt.seq = p.seq)

include hmap hdst hepoch hsound hv hsame htxn hseq

/-- A sound response of the map in force goes to the outstanding request that has its tag, its source and its number. -/
theorem State.responseIn_answers : s.responseIn l p f = (f v t).settleFences := by
  unfold State.responseIn
  rw [if_neg (by simp [hmap, hdst]), hv]
  dsimp only
  rw [if_neg (by simp [hepoch, hsame, hsound]), htxn]
  exact if_pos hseq

/-- A response of a type that answers the request ends it. -/
theorem State.answerIn_answers {reqs : List Nat} (hkind : reqs.contains t.pkt.ptype = true) :
    s.answerIn l p reqs f = (f (v.dropTxn t) t).settleFences := by
  rw [State.answerIn, State.responseIn_answers hmap hdst hepoch hsound hv hsame htxn hseq, if_pos hkind]

end

/-- A response to another node, or while this one takes no part in the map, is left where it is. -/
theorem State.responseIn_apart {s : State} {l : Nat} {p : FPkt} {f : State → Txn → State} (hapart : s.inMap = false ∨ p.dst ≠ s.self) :
    s.responseIn l p f = s :=
  if_pos (by simpa using hapart)

/-- 12 R378: PENDING restarts the timer of the read it answers with the home's bound. -/
theorem pendingRsp_acts {l : Nat} {p : FPkt} (t : Txn) (htype : p.ptype = 8) :
    Acts (.pendingRsp l p)
      (fun s => s.inMap = true ∧ p.dst = s.self ∧ p.epoch = s.compo.epoch ∧ p.sound = true ∧
        ((s.takeRx l (· == p)).heardFrom p.src).compo.epoch = s.compo.epoch ∧
        ((s.takeRx l (· == p)).heardFrom p.src).txnOf p.tag p.src = some t ∧ t.pkt.seq = p.seq ∧ t.pkt.ptype = 1)
      (fun s =>
        let u := (s.takeRx l (· == p)).heardFrom p.src
        { u with fab := { u.fab with
          txns := u.fab.txns.map fun x => if x == t then { x with due := u.now + us (bytesAt p.data 0 4) } else x } }.settleFences) :=
  .of_ownType (fun _ => rfl) htype fun s ⟨hmap, hdst, hepoch, hsound, hsame, htxn, hseq, hread⟩ => by
    rw [State.responseIn_answers hmap hdst hepoch hsound rfl hsame htxn hseq, if_pos hread]

/-! ## The timers of fabric transactions and of collective lines, and the twin's writes (12 R388, R405, 13 R439, 17 R533) -/

/-- A request that is out of time makes its node SUSPECT; what then becomes of it depends on who made it. -/
theorem exec_fabricTxnTimeout {s : State} {n : Nat} {t : Txn} (hmap : s.inMap = true)
    (hfind : (s.fab.txns.find? fun t => t.tag == n) = some t) (hdue : t.due ≤ s.now) :
    exec (.fabricTxnTimeout n) s = .next
      (let u := (s.suspect t.pkt.dst).dropTxn t
       (match t.who with
        | .engine _ _ _ _ => u.deadRaw t 1
        | .collFwd e k _ => u.sessError (e * 16 + k) t.pkt.dst sStateLost
        | .nobody => u.rlcAck (t.addr / 128)
        | _ => if u.dead t.pkt.dst then u else u.issue t).settleFences) := by
  change execFabricTxnTimeout n s = _
  unfold execFabricTxnTimeout
  rw [hfind]
  exact if_neg (by simp [hmap, hdue])

theorem fabricTxnTimeout_acts_engine (n : Nat) (t : Txn) (a b c d : Nat) :
    Acts (.fabricTxnTimeout n)
      (fun s => s.inMap = true ∧ (s.fab.txns.find? fun t => t.tag == n) = some t ∧ t.due ≤ s.now ∧ t.who = .engine a b c d)
      (fun s => (((s.suspect t.pkt.dst).dropTxn t).deadRaw t 1).settleFences) :=
  fun s ⟨hmap, hfind, hdue, hwho⟩ => by rw [exec_fabricTxnTimeout hmap hfind hdue, hwho]

/-- A command's request is sent again, for its node still lives. -/
theorem fabricTxnTimeout_acts_command (n : Nat) (t : Txn) (c : Nat) :
    Acts (.fabricTxnTimeout n)
      (fun s => s.inMap = true ∧ (s.fab.txns.find? fun t => t.tag == n) = some t ∧ t.due ≤ s.now ∧ t.who = .command c ∧
        ((s.suspect t.pkt.dst).dropTxn t).dead t.pkt.dst = false)
      (fun s => (((s.suspect t.pkt.dst).dropTxn t).issue t).settleFences) :=
  fun s ⟨hmap, hfind, hdue, hwho, hlives⟩ => by
    rw [exec_fabricTxnTimeout hmap hfind hdue, hwho]
    dsimp only
    rw [if_neg (Bool.eq_false_iff.1 hlives)]

theorem twinInvalidate_happens (a : Nat) :
    Happens (.twinInvalidate a) (fun s => s.runs = true ∧ s.twinValid = true) (fun s => s.rlcDrop (· == a / 128)) :=
  .of_guard (g := fun s => s.runs && s.twinValid) (by simp) fun _ => rfl

theorem collLineTimeout_acts (e k n : Nat) (l : CollLine) :
    Acts (.collLineTimeout e k n)
      (fun s => s.runs = true ∧ k < 16 ∧ (s.sess (e * 16 + k)).st = .open_ ∧ Tab.find? (s.sess (e * 16 + k)).lines n = some l ∧
        l.due ≤ s.now)
      (fun s => s.lineLate (e * 16 + k) n) := by
  rintro s ⟨hruns, hk, hopen, hfind, hdue⟩
  change execCollLineTimeout e k n s = _
  unfold execCollLineTimeout
  dsimp only
  rw [hfind]
  exact congrArg _ (if_pos (by simp [hruns, hk, hopen, hdue]))

/-- Settles O40: each of the six rows is the arrival of a response of its type, and the timers act under their tests. -/
theorem responsePacketsAct : Obligations.ResponsePacketsAct := by
  refine ⟨fun c hc l p htype => ?_, fun _ _ t htype => pendingRsp_acts t htype, fabricTxnTimeout_acts_engine,
    fabricTxnTimeout_acts_command, twinInvalidate_happens, collLineTimeout_acts⟩
  have hexec : ∀ s, exec (c.2.1 l p) s = onType c.1 p s (s.answerIn l p c.2.2.1 (c.2.2.2 p)) := by
    simp only [List.mem_cons, List.not_mem_nil, or_false] at hc
    rcases hc with rfl | rfl | rfl | rfl | rfl | rfl <;> exact fun _ => rfl
  constructor
  · exact fun t => .of_ownType hexec htype fun _ ⟨hmap, hdst, hepoch, hsound, hsame, htxn, hseq, hkind⟩ =>
      State.answerIn_answers hmap hdst hepoch hsound rfl hsame htxn hseq hkind
  · exact .of_ownType hexec htype fun _ hapart => State.responseIn_apart hapart

end Sys2Proof.Machine
end

section
/-! Recovery: heartbeats and probes, node down, job faults, fences, restarts and the module's drain; O48. -/

namespace Sys2Proof.Machine

/-! ## Heartbeats (17 R535, R536, R538) -/

theorem heartbeatTimer_acts (u v : State) (ups : List Nat) :
    Acts .heartbeatTimer
      (fun s => s.inMap = true ∧ s.rcv.hbAt + us (s.kv kHeartbeat) ≤ s.now ∧
        s.judgeSilence.neighbours.foldl (fun w n => if (w.node n).beat + us (s.kv kHeartbeat) ≤ w.now then w.suspect n else w)
          s.judgeSilence = u ∧
        ((List.range 40).filter fun l => (u.link l).st == .up) = ups ∧
        ups.foldl (fun w l => w.mgmtOn l (.heartbeat w.idn.uid w.self w.compo.epoch)) (u.adopt kHeartbeat) = v)
      (fun _ => { v with rcv := { v.rcv with hbAt := v.now, heard := false, upAll := ups } }.sendReports) := by
  rintro s ⟨hmap, hdue, rfl, rfl, rfl⟩
  exact if_neg (by simp [hmap, hdue])

/-- A heartbeat from a member of the map in force shows that the fabric is heard and that its node lives. -/
theorem heartbeat_acts (l u n e : Nat) (v : State) :
    Acts (.heartbeat l u n e)
      (fun s => s.linkLive l = true ∧ (s.link l).st.trained = true ∧ s.gotMgmt l (.heartbeat u n e) = v ∧ v.fromMember u n = true ∧
        e = v.compo.epoch)
      (fun _ => (({ v with rcv := { v.rcv with heard := true } }.modNode n fun x => { x with beat := v.now }).heardFrom n).revive n) := by
  rintro s ⟨hlive, htrained, rfl, hmember, hepoch⟩
  exact (if_neg (by simp [hlive, htrained])).trans (if_pos (by simp [hmember, ← hepoch]))

/-! ## Probes (17 R536, R539) -/

theorem probe_happens (l u n t k : Nat) :
    Happens (.probe l u n t k) (fun s => s.inMap = true ∧ s.linkLive l = true ∧ t = s.self)
      (fun s => ((s.gotMgmt l (.probe u n t k)).heardFrom n).mgmtTo n (.probeAnswer u n t k)) :=
  .of_guard (g := fun s => s.inMap && s.linkLive l && t == s.self) (by simp [and_assoc]) fun _ => rfl

theorem probeAnswer_happens (l u n t k : Nat) :
    Happens (.probeAnswer l u n t k) (fun s => s.inMap = true ∧ s.linkLive l = true ∧ u = s.idn.uid ∧ n = s.self)
      (fun s => ((s.gotMgmt l (.probeAnswer u n t k)).heardFrom t).revive t) :=
  .of_guard (g := fun s => s.inMap && s.linkLive l && u == s.idn.uid && n == s.self) (by simp [and_assoc]) fun _ => rfl

/-- An interval after the last probe of a SUSPECT node, the miss is counted: the last one allowed declares the node down. -/
theorem exec_probeInterval {s : State} {n : Nat} (hmap : s.inMap = true) (hsuspect : (s.node n).live = .suspect)
    (hdue : (s.node n).probedAt + us (s.kv kHeartbeat) ≤ s.now) :
    exec (.probeInterval n) s =
      if (s.node n).missLimit ≤ (s.node n).missed + 1 then
        let u := (s.modNode n fun x => { x with downSeen := true }).flood none (.nodeDown n 0 s.idn.uid)
        .next (u.markDead n 0 u.self)
      else .next ((s.setNode n { s.node n with missed := (s.node n).missed + 1 }).probe n) :=
  if_pos (by simp [hmap, hsuspect, hdue])

theorem probeInterval_acts_lastMiss (n : Nat) :
    Acts (.probeInterval n)
      (fun s => s.inMap = true ∧ (s.node n).live = .suspect ∧ (s.node n).probedAt + us (s.kv kHeartbeat) ≤ s.now ∧
        (s.node n).missLimit ≤ (s.node n).missed + 1)
      (fun s => ((s.modNode n fun x => { x with downSeen := true }).flood none (.nodeDown n 0 s.idn.uid)).markDead n 0
        ((s.modNode n fun x => { x with downSeen := true }).flood none (.nodeDown n 0 s.idn.uid)).self) :=
  fun _ ⟨hmap, hsuspect, hdue, hlast⟩ => (exec_probeInterval hmap hsuspect hdue).trans (if_pos hlast)

theorem probeInterval_acts_miss (n : Nat) :
    Acts (.probeInterval n)
      (fun s => s.inMap = true ∧ (s.node n).live = .suspect ∧ (s.node n).probedAt + us (s.kv kHeartbeat) ≤ s.now ∧
        (s.node n).missed + 1 < (s.node n).missLimit)
      (fun s => (s.setNode n { s.node n with missed := (s.node n).missed + 1 }).probe n) :=
  fun _ ⟨hmap, hsuspect, hdue, hmore⟩ => (exec_probeInterval hmap hsuspect hdue).trans (if_neg (Nat.not_le.2 hmore))

/-! ## Node down, job faults and teardowns (12 R408, R410, 17 R537, R538) -/

/-- NODE_DOWN of this node isolates it; of a node held ALIVE or SUSPECT, it is held DEAD from now on; of any other, nothing more. -/
theorem nodeDown_acts (l n c r : Nat) (v w : State) :
    Acts (.nodeDown l n c r)
      (fun s => s.linkLive l = true ∧ (s.link l).st.trained = true ∧ s.gotMgmt l (.nodeDown n c r) = v ∧
        (if !(v.node n).downSeen then (v.modNode n fun x => { x with downSeen := true }).flood (some l) (.nodeDown n c r) else v) = w)
      (fun _ => if n = w.self ∧ w.compo.mapped = true then w.isolate
        else if (w.node n).live = .alive ∨ (w.node n).live = .suspect then w.markDead n c (w.nodeOfUid r) else w) := by
  rintro s ⟨hlive, htrained, hv, hw⟩
  change execNodeDown l n c r s = _
  unfold execNodeDown
  rw [if_neg (by simp [hlive, htrained])]
  dsimp only
  rw [hv, hw]
  split_ifs <;> rfl

theorem jobFault_happens (src j g c t : Nat) :
    Happens (.jobFault src j g c t) (fun s => s.inMap = true ∧ s.fwUp = true)
      (fun s => (((s.tookMgmt (.jobFault j g c t)).heardFrom src).mgmtTo src (.jobFaultAck j g)).manageFault j g c t src) :=
  .of_guard (g := fun s => s.inMap && s.fwUp) (by simp) fun _ => rfl

theorem teardown_happens (j g c t r : Nat) :
    Happens (.teardown j g c t r) (fun s => s.inMap = true ∧ s.fwUp = true)
      (fun s => (s.tookMgmt (.teardown j g c t r)).teardownHere j g c t r) :=
  .of_guard (g := fun s => s.inMap && s.fwUp) (by simp) fun _ => rfl

/-! ## Fences and control-core restarts (17 R540 to R544) -/

theorem dieHeartbeatTimeout_happens (d : Nat) :
    Happens (.dieHeartbeatTimeout d) (fun s => s.runs = true) (fun s => (s.adopt kDieHeartbeat).fenceDie d 0) :=
  .of_guard (g := State.runs) (fun _ => Iff.rfl) fun _ => rfl

theorem ctlWatchdogExpiry_happens (c : Nat) :
    Happens (.ctlWatchdogExpiry c) (fun s => s.fwUp = true)
      (fun s =>
        let u := (s.adopt kRestartLimit).adopt kWatchdog
        if u.restartBar then u.fatalStop sCoreFault else u.beginRestart) :=
  .of_guard (g := State.fwUp) (fun _ => Iff.rfl) fun _ => rfl

theorem controlRestartComplete_happens (bc bl : List Nat) :
    Happens (.controlRestartComplete bc bl) (fun s => s.runs = true ∧ s.rcv.ctlRestart = true)
      (fun s =>
        let u := ({ s with rcv := { s.rcv with ctlRestart := false } } : State).checkRecords bc bl
        (u.postEvent 0x0F03 0 (pack [(8, u.recentRestarts.length), (8, 0), (32, u.rcv.retried)])
          (s.lostCtxs bc bl).length).lateMisses.actLatched) :=
  .of_guard (g := fun s => s.runs && s.rcv.ctlRestart) (by simp) fun _ => rfl

/-! ## The module's drain and the refusal pattern (17 R551, R554) -/

/-- At the drain's limit every request ends, then every program, and every port is drained and disabled. -/
theorem moduleDrainTimeout_acts (u v w : State) :
    Acts .moduleDrainTimeout
      (fun s => s.fwUp = true ∧ s.rcv.modSt = .draining ∧ s.rcv.modClosing = false ∧ s.rcv.modAt ≤ s.now ∧
        s.endReqs (fun _ _ => true) sStateLost = u ∧
        { u with rcv := { u.rcv with modEnded := ((s.ctxsThat fun c => !c.st.over).filter fun i => (u.ctx i).st.over).length,
                                     modClosing := true } } = v ∧
        (Tab.keysOf v.pcs fun _ x => x.live).foldl (fun w id => w.endProg id sCancelled) v = w)
      (fun _ => ((List.range 40).foldl State.disablePort (w.flood none (.nodeDown w.self 2 w.idn.uid))).settleModule) := by
  rintro s ⟨hup, hdraining, hopen, hdue, rfl, rfl, rfl⟩
  exact if_pos (by simp [hup, hdraining, hopen, hdue])

theorem drainRefusedPatternEnd_acts (p t : Nat) :
    Acts (.drainRefusedPatternEnd p) (fun s => s.runs = true ∧ Tab.find? s.rcv.refusedPat p = some t ∧ t ≤ s.now)
      (fun s => { s with rcv := { s.rcv with refusedPat := Tab.erase s.rcv.refusedPat p } }) := by
  rintro s ⟨hruns, hshown, hdue⟩
  change execDrainRefusedPatternEnd p s = _
  unfold execDrainRefusedPatternEnd
  rw [hshown]
  exact if_pos (by simp [hruns, hdue])

/-- A port that shows no pattern, and a device that has stopped, pass the event by. -/
theorem drainRefusedPatternEnd_acts_idle (p : Nat) :
    Acts (.drainRefusedPatternEnd p) (fun s => s.runs = false ∨ Tab.find? s.rcv.refusedPat p = none) id := by
  intro s hidle
  change execDrainRefusedPatternEnd p s = _
  unfold execDrainRefusedPatternEnd
  split
  next t hshown => exact if_neg (by simp [hidle.resolve_right (by simp [hshown])])
  next => rfl

/-- Settles O48: each clause is a branch of the event's effect under the test that guards it. -/
theorem recoveryEventsAct : Obligations.RecoveryEventsAct :=
  ⟨heartbeatTimer_acts, heartbeat_acts, probe_happens, probeAnswer_happens, probeInterval_acts_lastMiss, probeInterval_acts_miss,
    nodeDown_acts, jobFault_happens, teardown_happens, dieHeartbeatTimeout_happens, ctlWatchdogExpiry_happens,
    controlRestartComplete_happens, moduleDrainTimeout_acts, drainRefusedPatternEnd_acts, drainRefusedPatternEnd_acts_idle⟩

end Sys2Proof.Machine
end

section
/-! Ports: PORT_CONTROL and PORT_STATUS, and the training, flits, replay, retraining and draining of links; O26 and O37. -/

namespace Sys2Proof.Machine

/-! ## Port actions (13 R429) -/

/-- A row whose effect is a port action begun waits for the port's final state, or completes with it (13 R429). -/
theorem portBegun.of {r : CmdRow} {c : Pkt → Instr} {cond : Pkt → State → Prop} {t : Pkt → State → State}
    (hc : ∀ p s, exec (c p) s = .next (hostCommand r p s))
    (ha : ∀ p u, cond p u → r.act p u.lastCmd u = portWait (p.f 5 0) (t p u)) : portBegun r c cond t := fun p s haccepted hcond => by
  have hact := ha p _ hcond
  rw [State.taken_lastCmd] at hact
  rw [hc]
  dsimp only
  split_ifs with hmoving
  · rw [hostCommand_wait haccepted (hact.trans (if_pos hmoving))]
  · rw [hostCommand_done haccepted (hact.trans (if_neg hmoving))]

theorem portEnable_begins :
    portBegun rowPortEnable .portEnable (fun p u => (u.link (p.f 5 0)).st = .disabled ∨ (u.link (p.f 5 0)).st = .failed)
      (fun p u => u.trainFrom (p.f 5 0)) :=
  .of (fun _ _ => rfl) fun _ _ hoff => if_pos hoff

theorem portEnable_completes_enabled :
    Completes rowPortEnable .portEnable (fun p u => ¬((u.link (p.f 5 0)).st = .disabled ∨ (u.link (p.f 5 0)).st = .failed))
      (fun p u => { status := sOkAlready, r0 := (u.link (p.f 5 0)).st.code }) same :=
  .of (fun _ _ => rfl) fun _ _ hon => if_neg hon

theorem portDisable_begins :
    portBegun rowPortDisable .portDisable (fun p u => (u.link (p.f 5 0)).st ≠ .disabled) (fun p u => u.disablePort (p.f 5 0)) :=
  .of (fun _ _ => rfl) fun _ _ hon => if_neg hon

theorem portDisable_completes_disabled :
    Completes rowPortDisable .portDisable (fun p u => (u.link (p.f 5 0)).st = .disabled)
      (fun _ _ => { status := sOkAlready, r0 := PortSt.disabled.code }) same :=
  .of (fun _ _ => rfl) fun _ _ hoff => if_pos hoff

/-- An UP port is drained before its retrain; one that carries no packets retrains at once. -/
theorem portRetrain_begins :
    portBegun rowPortRetrain .portRetrain always
      (fun p u => if (u.link (p.f 5 0)).st = .up then u.drainPort (p.f 5 0) .training
        else u.retrain (p.f 5 0) (u.link (p.f 5 0)).st) :=
  .of (fun _ _ => rfl) fun _ _ _ => rfl

theorem portDrain_begins :
    portBegun rowPortDrain .portDrain (fun p u => (u.link (p.f 5 0)).st ≠ .out) (fun p u => u.drainPort (p.f 5 0) .out) :=
  .of (fun _ _ => rfl) fun _ _ hin => if_neg hin

theorem portDrain_completes_out :
    Completes rowPortDrain .portDrain (fun p u => (u.link (p.f 5 0)).st = .out)
      (fun _ _ => { status := sOkAlready, r0 := PortSt.out.code }) same :=
  .of (fun _ _ => rfl) fun _ _ hout => if_pos hout

theorem portRestore_begins : portBegun rowPortRestore .portRestore always (fun p u => u.restorePort (p.f 5 0)) :=
  .of (fun _ _ => rfl) fun _ _ _ => rfl

/-! ## PORT_STATUS (13 R430) -/

theorem portStatus_completes :
    Completes rowPortStatus .portStatus always
      (fun p u => { wr := [(p.f 127 64, (List.range (p.f 13 8)).flatMap fun i => u.portRecord (p.f 5 0 + i))] }) same :=
  .of (fun _ _ => rfl) fun _ _ _ => rfl

/-- Settles O26: the cases of each command are the branches of its row's effect. -/
theorem portCommandsComplete : Obligations.PortCommandsComplete :=
  ⟨portEnable_begins, portEnable_completes_enabled, portDisable_begins, portDisable_completes_disabled, portRetrain_begins,
    portDrain_begins, portDrain_completes_out, portRestore_begins, portStatus_completes⟩

/-! ## Training (13 R417, R424, R428) -/

theorem peerDetected_happens (l : Nat) :
    Happens (.peerDetected l) (fun s => s.linkLive l = true ∧ (s.link l).st = .down ∧ s.portUsable l = true) (fun s => s.trainFrom l) :=
  .of_guard (g := fun s => s.linkLive l && (s.link l).st == .down && s.portUsable l) (by simp [and_assoc]) fun _ => rfl

/-- Outside a fabric boot, a link that was down starts afresh with an IDENT, and its port is UNMAPPED. -/
theorem linkTrained_acts (l : Nat) (u : State) :
    Acts (.linkTrained l)
      (fun s => s.linkLive l = true ∧ (s.link l).st = .training ∧ (s.link l).backTo = .down ∧
        ((s.setLink l { s.link l with
          txSeq := 0, kept := [], ackAt := s.now, replayRun := 0, expected := 0, nakSent := false, ackOwed := 0, txStream := [],
          rxStream := [], credits := ({} : Link).credits, creditOwed := ({} : Link).creditOwed, creditPtr := 0, peerNode := 0,
          peerUnnumbered := false, peerIdent := false, peerUid := 0, peerLink := 0, peerEpoch := 0 }).portTo l .unmapped).sendIdent l = u ∧
        u.compo.booting.contains l = false)
      (fun _ => u) := by
  rintro s ⟨hlive, htraining, hback, rfl, hnoBoot⟩
  exact (if_pos (by simp [hlive, htraining, hback])).trans (if_neg (Bool.eq_false_iff.1 hnoBoot))

theorem ident_happens (l : Nat) (m : Ident) :
    Happens (.ident l m) (fun s => s.linkLive l = true ∧ ((s.link l).st.trained = true ∨ (s.link l).st = .training))
      (fun s => s.gotIdent l m) :=
  .of_guard (g := fun s => s.linkLive l && ((s.link l).st.trained || (s.link l).st == .training)) (by simp) fun _ => rfl

/-! ## Flits and replay (13 R419 to R422) -/

/-- The counters of corrected symbols and of uncorrectable codewords after a flit with no symbol error. -/
theorem Link.symbolErrors_none {x : Link} (hcorrected : x.fecCorrected < 2 ^ 64) (huncorrectable : x.fecUncorrectable < 2 ^ 32) :
    { x with fecCorrected := (x.fecCorrected + 0) % 2 ^ 64, fecUncorrectable := (x.fecUncorrectable + 0) % 2 ^ 32 } = x := by
  rw [Nat.add_zero, Nat.add_zero, Nat.mod_eq_of_lt hcorrected, Nat.mod_eq_of_lt huncorrectable]

/-- A flit whose codewords show no symbol error: a wrong CRC is answered with a NAK; with a right one its acknowledgement counts, a NAK
causes a replay, and the body is taken in. -/
theorem exec_flitReceive_noErrors {s : State} {l : Nat} (f : Flit) (hlive : s.linkLive l = true)
    (hreceives : (s.link l).st.trained = true ∨ (s.link l).st = .training)
    (hcorrected : (s.link l).fecCorrected < 2 ^ 64) (huncorrectable : (s.link l).fecUncorrectable < 2 ^ 32) :
    exec (.flitReceive l f []) s =
      if f.crc ≠ flitCrc f then .next (s.setLink l ((s.link l).control true))
      else
        let u := s.setLink l (if f.ackV || f.nak then (s.link l).release f.ackSeq s.now else s.link l)
        .next ((if f.nak then u.replay l else u).flitBody l f) := by
  change execFlitReceive l f [] s = _
  unfold execFlitReceive
  dsimp only [List.filter_nil, List.length_nil, List.foldl_nil]
  rw [if_pos (by simp [hlive, hreceives]), Link.symbolErrors_none hcorrected huncorrectable]
  simp only [ne_eq, not_true_eq_false, false_or]

theorem flitReceive_acts_sound (l : Nat) (f : Flit) :
    Acts (.flitReceive l f [])
      (fun s => s.linkLive l = true ∧ ((s.link l).st.trained = true ∨ (s.link l).st = .training) ∧ f.crc = flitCrc f ∧ f.nak = false ∧
        (s.link l).fecCorrected < 2 ^ 64 ∧ (s.link l).fecUncorrectable < 2 ^ 32)
      (fun s => (s.setLink l (if f.ackV then (s.link l).release f.ackSeq s.now else s.link l)).flitBody l f) :=
  fun s ⟨hlive, hreceives, hcrc, hnak, hcorrected, huncorrectable⟩ => by
    rw [exec_flitReceive_noErrors f hlive hreceives hcorrected huncorrectable, if_neg (not_not.2 hcrc), hnak, Bool.or_false]
    rfl

theorem flitReceive_acts_badCrc (l : Nat) (f : Flit) :
    Acts (.flitReceive l f [])
      (fun s => s.linkLive l = true ∧ ((s.link l).st.trained = true ∨ (s.link l).st = .training) ∧ f.crc ≠ flitCrc f ∧
        (s.link l).fecCorrected < 2 ^ 64 ∧ (s.link l).fecUncorrectable < 2 ^ 32)
      (fun s => s.setLink l ((s.link l).control true)) :=
  fun s ⟨hlive, hreceives, hcrc, hcorrected, huncorrectable⟩ => by
    rw [exec_flitReceive_noErrors f hlive hreceives hcorrected huncorrectable, if_pos hcrc]

theorem flitReceive_acts_notLive (l : Nat) (f : Flit) (es : List Nat) :
    Acts (.flitReceive l f es) (fun s => s.linkLive l = false) id :=
  fun s hnotLive => if_neg (by simp [hnotLive])

theorem replayTimerExpiry_happens (l : Nat) :
    Happens (.replayTimerExpiry l)
      (fun s => s.linkLive l = true ∧ (s.link l).st.trained = true ∧ (s.link l).kept ≠ [] ∧
        (s.link l).ackAt + ns (s.kset kReplayTimer) ≤ s.now)
      (fun s => s.replay l) :=
  .of_guard
    (g := fun s => s.linkLive l && (s.link l).st.trained && !(s.link l).kept.isEmpty &&
      (s.link l).ackAt + ns (s.kset kReplayTimer) ≤ s.now)
    (by simp [and_assoc]) fun _ => rfl

/-! ## Retraining (13 R425) -/

theorem laneSignalLoss_happens (l n : Nat) :
    Happens (.laneSignalLoss l n) (fun s => s.linkLive l = true ∧ n < 4 ∧ (s.link l).st.trained = true)
      (fun s => s.retrain l (s.link l).st) :=
  .of_guard (g := fun s => s.linkLive l && n < 4 && (s.link l).st.trained) (by simp [and_assoc]) fun _ => rfl

/-- The port is back in its state, with an IDENT and its kept flits sent; one that is UP takes packets again. -/
theorem retrainComplete_acts (l : Nat) (u : State) :
    Acts (.retrainComplete l)
      (fun s => s.linkLive l = true ∧ (s.link l).st = .training ∧ (s.link l).backTo ≠ .down ∧
        (((s.setLink l { s.link l with retrainFails := 0, ackAt := s.now, replayRun := 0 }).portTo l (s.link l).backTo).sendIdent l).modLink l
          (fun y => { y with sent := y.sent ++ y.kept }) = u)
      (fun s => if (s.link l).backTo = .up then u.reroute l else u) := by
  rintro s ⟨hlive, htraining, hback, rfl⟩
  exact if_pos (by simp [hlive, htraining, hback])

/-- A retrain out of time is one failure more: at the limit the port is FAILED, below it the port tries again. -/
theorem retrainTimeout_acts (l : Nat) :
    Acts (.retrainTimeout l)
      (fun s => s.linkLive l = true ∧ (s.link l).st = .training ∧ (s.link l).backTo ≠ .down ∧ (s.link l).trainAt + ms 50 ≤ s.now)
      (fun s =>
        let u := (s.adopt kRetrainLimit).setLink l { s.link l with retrainFails := (s.link l).retrainFails + 1 }
        if u.kv kRetrainLimit ≤ (s.link l).retrainFails + 1 then u.failPort l else u.retrain l (s.link l).backTo) :=
  fun s ⟨hlive, htraining, hback, hlate⟩ =>
    (if_pos (by simp [hlive, htraining, hback, hlate])).trans (apply_ite Host.Outcome.next _ _ _).symm

/-! ## Draining (13 R429) -/

theorem portDrainEnd_happens (l : Nat) :
    Happens (.portDrainEnd l)
      (fun s => s.linkLive l = true ∧ ((s.link l).st = .draining ∨ ((s.link l).st = .training ∧ (s.link l).backTo = .draining)) ∧
        (((s.link l).idle = true ∧ (s.link l).held.all floods = true) ∨ (s.link l).drainBy ≤ s.now))
      (fun s => s.endDrain l) :=
  .of_guard
    (g := fun s => s.linkLive l && ((s.link l).st == .draining || ((s.link l).st == .training && (s.link l).backTo == .draining)) &&
      (((s.link l).idle && (s.link l).held.all floods) || (s.link l).drainBy ≤ s.now))
    (by simp [and_assoc]) fun _ => rfl

/-- Settles O37: each clause is a branch of the event's effect under the test that guards it. -/
theorem linkEventsAct : Obligations.LinkEventsAct :=
  ⟨linkTrained_acts, ident_happens, flitReceive_acts_sound, flitReceive_acts_badCrc, flitReceive_acts_notLive,
    replayTimerExpiry_happens, laneSignalLoss_happens, retrainComplete_acts, retrainTimeout_acts, portDrainEnd_happens,
    peerDetected_happens⟩

end Sys2Proof.Machine
end

section
/-! Collectives: OPEN_REDUCE, CLOSE, RUN_GATHER and RUN_FILTER of CONFIGURE_COLLECTIVE; O27. -/

namespace Sys2Proof.Machine

/-! ## Reduce sessions (13 R442, R443) -/

theorem openReduce_completes :
    Completes rowOpenReduce .openReduce always (fun _ _ => {})
      (fun p u => u.setSess (collKey p)
        { st := .open_, job := p.f 27 16, rangeOff := p.xf 63 0, rangeLines := p.xf 83 64, elem := p.xf 97 96, isMax := p.xf 98 98 == 1,
          det := p.xf 99 99 == 1, fwd := p.xf 100 100 == 1, fwdAddr := p.xf 191 128, cls := p.xf 105 104, contrib := contribs p }) :=
  .of (fun _ _ => rfl) fun _ _ _ => rfl

theorem collectiveClose_completes_free :
    Completes rowCollectiveClose .collectiveClose (fun p u => (u.sess (collKey p)).st = .free) (fun _ _ => { status := sOkAlready }) same :=
  .of (fun _ _ => rfl) fun _ _ hfree => if_pos hfree

/-- CLOSE of a session in use drops its forwards that are still outstanding and frees it. -/
theorem collectiveClose_completes_used :
    Completes rowCollectiveClose .collectiveClose (fun p u => (u.sess (collKey p)).st ≠ .free) (fun _ _ => {})
      (fun p u =>
        (u.dropTxns fun t => match t.who with | .collFwd e n _ => e * 16 + n == collKey p | _ => false).setSess (collKey p) {}) :=
  .of (fun _ _ => rfl) fun _ _ hused => if_neg hused

/-! ## Runs (13 R441) -/

/-- A run, of either kind, sets up its session, reads every source line, and waits with a bound that grows with the sources. -/
theorem actRun_waits (filter : Bool) (p : Pkt) (u : State) :
    actRun filter p u.lastCmd u =
      .wait (.collRun (collKey p / 16) (collKey p % 16)) true (some (ms 250 + us (u.runSrcs p).length))
        ((u.runSrcs p).zipIdx.foldl (fun v x => v.runRead (collKey p) x.2 x.1) (u.setSess (collKey p) (runSess filter p u))) := rfl

/-- Settles O27: the cases of OPEN_REDUCE and CLOSE are the branches of their rows' effects; both runs begin as `actRun_waits` says. -/
theorem collectiveCommandsComplete : Obligations.CollectiveCommandsComplete :=
  ⟨openReduce_completes, collectiveClose_completes_free, collectiveClose_completes_used,
    .of (fun _ _ => rfl) fun p u _ => actRun_waits false p u, .of (fun _ _ => rfl) fun p u _ => actRun_waits true p u⟩

end Sys2Proof.Machine
end

section
/-! The queue's front and an idle step, the loss of power, and what every step keeps of the signing subtree, the event log, stops and
fences; O1, O2, O6, O8, O10, O12. -/

namespace Sys2Proof.Machine

/-! ## A step runs the front command, or lets time pass (log entry 3) -/

/-- Settles O1: `step` of a queue with a front command is `exec` of it. -/
theorem frontCommandRuns : Obligations.FrontCommandRuns := by
  intro c rest s hfront
  unfold step
  rw [hfront]

/-- Settles O2: the idle state keeps the queue empty; while the device runs its clock is `clock40`'s (`idle_evolves`). -/
theorem emptyQueuePassesTime : Obligations.EmptyQueuePassesTime := by
  intro s hempty
  have hstep : step s = .next s.idle := by
    unfold step
    rw [hempty]
  refine ⟨s.idle, hstep, ?_, fun hruns => (State.idle_evolves hruns).clock, fun hstopped => State.idle_stopped hstopped⟩
  cases hruns : s.runs with
  | true => exact (State.idle_evolves hruns).queue.trans hempty
  | false => rwa [State.idle_stopped hruns]

/-! ## The loss of power (18 R567) -/

/-- Settles O6: the fall is `powerOff`, which starts from the reset state and takes over the fuses and the flash. -/
theorem powerLossClearsTheDevice : Obligations.PowerLossClearsTheDevice := by
  intro s hpower
  refine ⟨s.powerOff, sysPwrokFall_happens.1 s hpower, ?_⟩
  and_intros <;> rfl

/-! ## What every step keeps -/

/-- Settles O10: every operation keeps a signing subtree below the thermometer (`Evolves`), and after a loss of power nothing signs. -/
theorem signingSubtreeIsBurnt : Obligations.SigningSubtreeIsBurnt := by
  intro s t hstep hburnt
  rcases step_cases hstep with ⟨-, -, rfl⟩ | ⟨-, -, htime⟩ | ⟨rest, ⟨-, -, rfl⟩ | ⟨-, -, rfl⟩⟩ | ⟨c, rest, -, hkept⟩
  · exact hburnt
  · exact htime.leaf hburnt
  · exact Ident16.leafOk_of_not_signing rfl
  · exact hburnt
  · exact hkept.leaf hburnt

/-- Settles O8: every operation keeps the log numbered (`Evolves`), and a loss of power empties it. -/
theorem eventLogStaysNumbered : Obligations.EventLogStaysNumbered := by
  intro s t hstep hlog
  rcases step_cases hstep with ⟨-, -, rfl⟩ | ⟨-, -, htime⟩ | ⟨rest, ⟨-, -, rfl⟩ | ⟨-, -, rfl⟩⟩ | ⟨c, rest, -, hkept⟩
  · exact hlog
  · exact htime.log hlog
  · exact Recov.logOk_of_empty rfl (Nat.two_pow_pos 32)
  · exact hlog
  · exact hkept.log hlog

/-- Settles O12: every operation keeps a stop and each fence (`Evolves`); the fall of SYS_PWROK changes its level, and the rise touches
neither. -/
theorem stopsAndFencesLast : Obligations.StopsAndFencesLast := by
  intro s t hstep hlevel
  rcases step_cases hstep with ⟨-, -, rfl⟩ | ⟨-, -, htime⟩ | ⟨rest, ⟨-, hpower, rfl⟩ | ⟨-, -, rfl⟩⟩ | ⟨c, rest, -, hkept⟩
  · exact ⟨id, fun _ => id⟩
  · exact ⟨htime.fatal, htime.fenced⟩
  · exact absurd (hlevel.trans hpower) Bool.false_ne_true
  · exact ⟨id, fun _ => id⟩
  · exact ⟨hkept.fatal, hkept.fenced⟩

end Sys2Proof.Machine
end

section
/-! A stopped device; O13. -/

namespace Sys2Proof.Machine

/-! ## What a stopped device does not take part in (17 R543) -/

/-- The outcome, where it is a next state, is the state as it was. -/
def Still (s : State) (r : Res) : Prop := ∀ t, r = .next t → t = s

theorem Still.of_eq {s : State} {r : Res} (h : r = .next s) : Still s r := fun _ ht => Host.Outcome.next.inj (ht.symm.trans h)

/-- A register word written with the state as it was: a whole word changes nothing, and a split one stops. -/
theorem regWrite_still {s t : State} (w : Nat) (h : t = s) : Still s (regWrite w t) := by
  unfold regWrite
  split
  · exact .of_eq (congrArg _ h)
  · exact fun _ hnext => nomatch hnext

/-- A row whose effect on packets of its type is the state as it was changes nothing. -/
theorem onType_of_eq {n : Nat} {p : FPkt} {s t : State} (h : t = s) : onType n p s t = .next s := by
  rw [h]
  exact ite_self _

section
variable {s : State} (hstop : s.runs = false)
include hstop

theorem State.fwUp_stopped : s.fwUp = false := by simp [State.fwUp, hstop]
theorem State.inMap_stopped : s.inMap = false := by simp [State.inMap, hstop]
theorem State.linkLive_stopped (l : Nat) : s.linkLive l = false := by simp [State.linkLive, hstop]
theorem State.mapOn_stopped (l : Nat) : s.mapOn l = false := by simp [State.mapOn, State.linkLive_stopped hstop]
theorem State.spdmUp_stopped (t : Transport) : s.spdmUp t = false := by simp [State.spdmUp, hstop]
theorem State.mayTake_stopped (p : Pkt) : s.mayTake p = false := by simp [State.mayTake, hstop]
theorem State.switchOf_stopped (k : Nat) (d : Bool) : s.switchOf k d = none := by simp [State.switchOf, hstop]

theorem State.requestIn_stopped (l : Nat) (p : FPkt) (tw : List TwinCopy) : s.requestIn l p tw = s :=
  if_pos (by simp [State.inMap_stopped hstop])

theorem State.responseIn_stopped (l : Nat) (p : FPkt) (f : State → Txn → State) : s.responseIn l p f = s :=
  if_pos (by simp [State.inMap_stopped hstop])

theorem State.hingeIn_stopped (h : HHdr) (m : HMsg) (tw : List TwinCopy) : s.hingeIn h m tw = s := State.requestIn_stopped hstop ..

theorem State.doorbell_stopped (ty n w : Nat) (v : W64) : s.doorbell ty n w v = s := if_pos (by simp [hstop])

theorem State.hostIfCtrl_stopped (v : Nat) : s.hostIfCtrl v = s := if_pos (by simp [hstop])

theorem State.startAt_stopped (e : EngAt) (d : Desc) (ok : Nat → Bool) : s.startAt e d ok = none := by
  unfold State.startAt
  dsimp only
  split
  · rfl
  · exact if_neg (by simp [hstop])

theorem onEngine_stopped (e : EngAt) (d : Desc) (ok : Nat → Bool) (f : At → State → State) : onEngine e d ok f s = .next s := by
  unfold onEngine
  rw [State.startAt_stopped hstop]

end

/-- 17 R543: while the device does not run, each command but those its hardware still answers changes nothing; the tests that guard the
commands' effects all ask that it runs. -/
theorem exec_still {s : State} (hpower : s.board.pwrok = true) (hstop : s.runs = false) (c : Instr)
    (hseen : c ≠ .sysPwrokFall ∧ c ≠ .flashReq ∧ c ≠ .flashRelease ∧ (∀ a, c ≠ .entdaa a) ∧ c ≠ .rstdaa ∧ c ≠ .i3cBusReset ∧
      (∀ b, c ≠ .mctpControlMessage b) ∧ ∀ o w v, c ≠ .registerWrite .bar4 o w v) : Still s (exec c s) := by
  obtain ⟨hfall, hreq, hrelease, hentdaa, hrstdaa, hreset, hmctp, hbar4⟩ := hseen
  cases c with
  -- the commands the hardware answers
  | sysPwrokFall => exact absurd rfl hfall
  | flashReq => exact absurd rfl hreq
  | flashRelease => exact absurd rfl hrelease
  | entdaa a => exact absurd rfl (hentdaa a)
  | rstdaa => exact absurd rfl hrstdaa
  | i3cBusReset => exact absurd rfl hreset
  | mctpControlMessage b => exact absurd rfl (hmctp b)
  | registerWrite bar o w v =>
    cases bar with
    | bar0 => exact .of_eq (if_pos (by simp [hstop]))
    | bar4 => exact absurd rfl (hbar4 o w v)
  | sysPwrokRise => exact .of_eq (if_pos hpower)
  -- host commands stay in their rings
  | nop p | createRing p | deleteRing p | configGet p | configSet p | setPowerMode p | getCapabilities p | sampleCounters p
  | admitRequest p | cancel p | pause p | resume p | queryRequest p | releaseContext p | moveState p | fetchPrefix p | sealPrefix p
  | queryLatch p | setMirror p | loadImage p | unloadImage p | launchProgram p | readCoreStats p | loadModel p | unloadModel p
  | readAttnCounters p | loadDelta p | replaceDelta p | unloadDelta p | readExpanderStats p | loadGrammar p | unloadGrammar p
  | createPartition p | destroyPartition p | bindImage p | unbindImage p | grantExtent p | revokeExtent p | setQuota p | queryQuota p
  | flushRange p | acquireRange p | publish p | queryNode p | portEnable p | portDisable p | portRetrain p | portDrain p
  | portRestore p | portStatus p | openReduce p | collectiveClose p | runGather p | runFilter p | setShaper p | stageGateList p
  | gateListCancel p | readGateList p | samplingQueue p | samplingRing p | createTable p | destroyTable p | insertEntry p
  | updateEntry p | deleteEntry p | search p | swapShadow p | getEvidence p | getCertificates p | stageManifest p | readEventLog p
  | serviceDrain p | fabricBoot p | enterLowPower p =>
    exact .of_eq (congrArg _ (hostCommand_waiting (State.mayTake_stopped hstop p)))
  -- the host interface
  | hostIfEnable w v | hostIfDisable w v => exact regWrite_still w (State.hostIfCtrl_stopped hstop _)
  | submissionDoorbell _ _ _ | completionDoorbell _ _ _ | outputDoorbell _ _ _ =>
    exact .of_eq (congrArg _ (State.doorbell_stopped hstop ..))
  -- descriptors start on no engine
  | descNop _ _ | set _ _ | add _ _ | mul _ _ | ldreg _ _ | loop _ _ | halt _ _ | load _ _ | gather _ _ | store _ _ | scatter _ _
  | descAtomic _ _ | matmul _ _ | vopAdd _ _ | vopSub _ _ | vopMul _ _ | vopFma _ _ | vopMax _ _ | vopMin _ _ | cmpgt _ _
  | select _ _ | convert _ _ | exp _ _ | recip _ _ | rsqrt _ _ | rowsum _ _ | rowmax _ _ | drain _ _ | ward _ _ =>
    simp only [exec, execDescNop, execSet, execAdd, execMul, execLdreg, execLoop, execHalt, execLoad, execGather, execStore,
      execScatter, execDescAtomic, execMatmul, execVopAdd, execVopSub, execVopMul, execVopFma, execVopMax, execVopMin, execCmpgt,
      execSelect, execConvert, execExp, execRecip, execRsqrt, execRowsum, execRowmax, execDrain, execWard, onEngine_stopped hstop]
    exact .of_eq rfl
  -- fabric packets and hinge messages are not taken in
  | read _ _ | write _ _ | atomic _ _ | publishPacket _ _ | versionRead _ _ =>
    exact .of_eq (onType_of_eq (State.requestIn_stopped hstop ..))
  | readData _ _ | ack _ _ | nack _ _ | atomicData _ _ | pendingRsp _ _ | publishResp _ _ | versionData _ _ =>
    exact .of_eq (onType_of_eq (State.responseIn_stopped hstop ..))
  | regionOpening _ _ _ _ _ _ _ _ _ _ _ | prepare _ _ _ _ _ | ready _ _ | commit _ _ | commitAck _ | refuse _ _ | abandon _ _
  | abandonAck _ | withdraw _ | redirect _ _ _ | sourceQuery _ _ =>
    exact .of_eq (congrArg _ (State.hingeIn_stopped hstop ..))
  | openingResponse _ ok _ _ _ _ => cases ok <;> exact .of_eq (congrArg _ (State.hingeIn_stopped hstop ..))
  -- events whose test asks that the device runs
  | hostIfReady | teardownComplete | hostLinkDown | hotReset | d3hotEntry | heldTokenWrite _ | powerWindow _ | dieOvertempTrip _ _
  | prochotAssert | prochotDeassert | stage1Start | firmwareImagesChecked | hbmTrainingComplete _ | subtreeGenerated | driveFailure _
  | driveDrainComplete _ | twinInvalidate _ | recallTimeout _ | twinLinkReturn _ | extentDrainEnd _ _ | extentDrainTimeout _ _
  | scrubComplete _ _ | sliceEnd _ _ | cascadeProbeTimer | dieHeartbeatTimeout _ | controlRestartComplete _ _ | driveTrained _ _
  | flashWriteComplete =>
    exact .of_eq (if_neg (by simp [hstop]))
  | bar2Access _ _ _ _ | pmbusPoll _ _ _ | pmbAlert _ _ | timingMonitorReport _ _ | buttonPress _ | prefixFetchComplete _ _ _
  | layerPushStart _ _ | recallCommit _ | twinLinkFail | engineQueueTimeout _ | tumblerIdleCycle _ | cascadeToken _ _ =>
    exact .of_eq (if_pos (by simp [hstop]))
  -- or that the control firmware acts
  | deadlinePass _ | ctxRetainExpiry _ | linkPhaseEnd | agreeAck _ _ _ _ _ | jobFault _ _ _ _ _ | teardown _ _ _ _ _
  | ctlWatchdogExpiry _ | moduleDrainTimeout =>
    exact .of_eq (if_neg (by simp [State.fwUp_stopped hstop]))
  | prefixLookup _ | workItemWrite _ _ _ _ _ | demoteCheck | fwdRecordCheck | mirrorScrub _ =>
    exact .of_eq (if_pos (by simp [State.fwUp_stopped hstop]))
  -- or that the link is live
  | linkTrained _ | ident _ _ | flitReceive _ _ _ | replayTimerExpiry _ | laneSignalLoss _ _ | retrainComplete _ | retrainTimeout _
  | portDrainEnd _ | packetStart _ | shaperRefill _ _ | gateEntryAdvance _ | packetForward _ _ | probe _ _ _ _ _
  | probeAnswer _ _ _ _ _ | peerDetected _ =>
    exact .of_eq (if_neg (by simp [State.linkLive_stopped hstop]))
  | heartbeat _ _ _ _ | nodeDown _ _ _ _ =>
    exact .of_eq (if_pos (by simp [State.linkLive_stopped hstop]))
  -- or that the map is agreed on here
  | boot _ _ _ _ | claim _ _ _ _ | sliceTable _ _ | propose _ _ _ _ _ _ | mapCommit _ _ _ =>
    exact .of_eq (if_neg (by simp [State.mapOn_stopped hstop]))
  -- or that the node is in the map
  | probeInterval _ =>
    exact .of_eq (if_neg (by simp [State.inMap_stopped hstop]))
  | heartbeatTimer =>
    exact .of_eq (if_pos (by simp [State.inMap_stopped hstop]))
  -- or that SPDM answers
  | spdmRequest _ _ | vendorDefinedRequest _ _ =>
    exact .of_eq (if_pos (by simp [State.spdmUp_stopped hstop]))
  | drivePresenceChange _ _ _ => exact .of_eq ((if_neg (by simp [hpower])).trans (if_pos (by simp [hstop])))
  | floodQuietExpiry | agreeTimeout =>
    exact .of_eq ((if_neg (by simp [State.fwUp_stopped hstop])).trans (if_neg (by simp [State.fwUp_stopped hstop])))
  | abortWindowExpiry b =>
    cases b with
    | port _ => exact .of_eq rfl
    | drive d =>
      apply Still.of_eq
      simp only [exec, execAbortWindowExpiry]
      split <;> simp [State.fwUp_stopped hstop]
    | module => exact .of_eq (if_neg (by simp [State.fwUp_stopped hstop]))
  -- events that first look for what they are about, and then ask it
  | commandTimeout _ | irqDelayExpiry _ _ | driveIoComplete _ _ _ | tierTimeout _ | gateAdopt _ | fabricTxnTimeout _
  | collLineTimeout _ _ _ | moveStateBoundExpiry _ | prefillLayerDone _ | demotionCommit _ | insertTimeout _ | cascadeTimeout _
  | objectCopyComplete _ _ | selfRefreshExit | drainRefusedPatternEnd _ =>
    apply Still.of_eq
    simp only [exec, execCommandTimeout, execIrqDelayExpiry, execDriveIoComplete, execTierTimeout, execGateAdopt,
      execFabricTxnTimeout, execCollLineTimeout, execMoveStateBoundExpiry, execPrefillLayerDone, execDemotionCommit,
      execInsertTimeout, execCascadeTimeout, execObjectCopyComplete, execSelfRefreshExit, execDrainRefusedPatternEnd]
    split <;> simp [hstop, State.fwUp_stopped, State.inMap_stopped, State.linkLive_stopped]
  | stepCommit k =>
    apply Still.of_eq
    simp only [exec, execStepCommit]
    split
    · rfl
    · split
      · exact if_pos (by simp [State.fwUp_stopped hstop])
      · rfl
  | yieldRequest _ _ | contextStopped _ _ | preemptBoundExpiry _ _ | saveComplete _ _ | restoreComplete _ _ =>
    apply Still.of_eq
    simp only [exec, execYieldRequest, execContextStopped, execPreemptBoundExpiry, execSaveComplete, execRestoreComplete,
      State.switchOf_stopped hstop]

/-- Settles O13: a stopped device does not run (`exec_still`). -/
theorem stoppedDeviceDoesNothing : Obligations.StoppedDeviceDoesNothing := fun c s t hfatal hpower hexec hseen =>
  exec_still hpower (by simp [State.runs, hfatal]) c hseen t hexec

end Sys2Proof.Machine
end

section
/-! The event log's entries and reads, and the service button of a port; O55, O56, O58. -/

namespace Sys2Proof.Machine

/-! ## Structures of fields as bytes (00 R4, 02 R56) -/

/-- The number that `n` little-endian bytes hold. -/
theorem leNat_toLE_mod (n v : Nat) : leNat (toLE n v) = v % 256 ^ n := by
  induction n generalizing v with
  | zero => rw [pow_zero, Nat.mod_one]; rfl
  | succ n ih =>
    calc leNat (toLE (n + 1) v) = v % 256 + 256 * (v / 256 % 256 ^ n) := by rw [toLE, leNat, ih, BitVec.toNat_ofNat]
      _ = v % 256 ^ (n + 1) := by rw [Nat.pow_succ', Nat.mod_mul]

theorem toLE_take {n k : Nat} (v : Nat) (hfits : k ≤ n) : (toLE n v).take k = toLE k v := by
  induction n generalizing k v with
  | zero => rw [Nat.le_zero.1 hfits]; rfl
  | succ n ih =>
    cases k with
    | zero => rfl
    | succ k => rw [toLE, List.take_succ_cons, ih _ (Nat.le_of_succ_le_succ hfits), toLE]

theorem toLE_drop (n k v : Nat) : (toLE n v).drop k = toLE (n - k) (v / 256 ^ k) := by
  induction k generalizing n v with
  | zero => simp
  | succ k ih =>
    cases n with
    | zero => simp [toLE]
    | succ n => rw [toLE, List.drop_succ_cons, ih, Nat.div_div_eq_div_mul, ← Nat.pow_succ', Nat.add_sub_add_right]

/-- Bytes of a number's bytes are a field of the number. -/
theorem bytesAt_toLE {n off k : Nat} (v : Nat) (hfits : off + k ≤ n) : bytesAt (toLE n v) off k = v / 256 ^ off % 256 ^ k := by
  unfold bytesAt
  rw [toLE_drop, toLE_take _ (by omega), leNat_toLE_mod]

/-- Bits of a structure's fields. -/
def packBits (fs : List (Nat × Nat)) : Nat := (fs.map Prod.fst).sum

/-- Past its first fields a structure holds the fields after them. -/
theorem pack_append_div (before after : List (Nat × Nat)) : pack (before ++ after) / 2 ^ packBits before = pack after := by
  induction before with
  | nil => simp [packBits]
  | cons f before ih =>
    obtain ⟨w, v⟩ := f
    have hfirst : pack ((w, v) :: before ++ after) / 2 ^ w = pack (before ++ after) := by
      rw [List.cons_append, pack, Nat.add_mul_div_left _ _ (Nat.two_pow_pos w), Nat.div_eq_of_lt (Nat.mod_lt _ (Nat.two_pow_pos w)), Nat.zero_add]
    rw [show packBits ((w, v) :: before) = w + packBits before from List.sum_cons, Nat.pow_add, ← Nat.div_div_eq_div_mul, hfirst, ih]

/-- The bytes of a field that starts and ends on a byte hold its value, cut to its width. -/
theorem bytesAt_pack {n off k w v : Nat} {fs : List (Nat × Nat)} (i : Nat) (hfield : fs[i]? = some (w, v)) (hwidth : w = 8 * k)
    (hplace : packBits (fs.take i) = 8 * off) (hfits : off + k ≤ n) : bytesAt (toLE n (pack fs)) off k = v % 2 ^ w := by
  have hbyte : ∀ m, 256 ^ m = 2 ^ (8 * m) := fun m => (Nat.pow_mul 2 8 m).symm
  obtain ⟨hi, hget⟩ := List.getElem?_eq_some_iff.1 hfield
  have hafter : fs.drop i = (w, v) :: fs.drop (i + 1) := by rw [List.drop_eq_getElem_cons hi, hget]
  have hsplit : pack fs / 2 ^ packBits (fs.take i) = pack (fs.drop i) := by
    simpa only [List.take_append_drop] using pack_append_div (fs.take i) (fs.drop i)
  rw [bytesAt_toLE _ hfits, hbyte, hbyte, ← hplace, ← hwidth, hsplit, hafter, pack, Nat.add_mul_mod_self_left, Nat.mod_mod]

/-- The bytes past the last field of a structure are 0. -/
theorem bytesAt_pack_past {n off k : Nat} (fs : List (Nat × Nat)) (hplace : packBits fs = 8 * off) (hfits : off + k ≤ n) :
    bytesAt (toLE n (pack fs)) off k = 0 := by
  have hpast : pack fs / 2 ^ packBits fs = 0 := by simpa [pack] using pack_append_div fs []
  rw [bytesAt_toLE _ hfits, show 256 ^ off = 2 ^ packBits fs by rw [hplace, Nat.pow_mul], hpast, Nat.zero_mod]

/-! ## Entries of the event log (17 R546) -/

/-- Settles O55: a posted event is logged (`postEvent_logged`), and each field of an entry stands where `bytesAt_pack` puts it. -/
theorem logEntriesAreLaidOut : Obligations.LogEntriesAreLaidOut := by
  refine ⟨fun s code handle r0 r1 hr0 hr1 => ?_, fun e => ⟨toLE_length _ _, ?_⟩⟩
  · obtain ⟨e, hlogged, rfl, rfl, hres0, hres1, htime⟩ := s.postEvent_logged code handle r0 r1
    rw [Nat.mod_eq_of_lt hr0] at hres0
    rw [Nat.mod_eq_of_lt hr1] at hres1
    exact ⟨e, hlogged, by rw [← hres0, ← hres1, ← htime]⟩
  · exact ⟨bytesAt_pack 0 rfl rfl (by simp [packBits]) (by decide), (bytesAt_pack 1 rfl rfl (by simp [packBits]) (by decide)).trans (Nat.zero_mod _),
      bytesAt_pack 2 rfl rfl (by simp [packBits]) (by decide), bytesAt_pack 3 rfl rfl (by simp [packBits]) (by decide),
      bytesAt_pack 4 rfl rfl (by simp [packBits]) (by decide), (bytesAt_pack 5 rfl rfl (by simp [packBits]) (by decide)).trans (Nat.zero_mod _),
      bytesAt_pack 6 rfl rfl (by simp [packBits]) (by decide), bytesAt_pack 7 rfl rfl (by simp [packBits]) (by decide),
      bytesAt_pack_past _ (by simp [packBits]) (by decide)⟩

/-! ## READ_EVENT_LOG's first entry (17 R547) -/

/-- The first entry of a log that is not empty has the oldest sequence number, and entry `i` the `i`-th one after it. -/
theorem Recov.logOk_seq {r : Recov} (hlog : r.logOk) {i : Nat} {e : LogEntry} (hentry : r.log[i]? = some e) :
    e.seq = ((r.logSeq + 2 ^ 32 - r.log.length) % 2 ^ 32 + i) % 2 ^ 32 := by
  obtain ⟨hlength, -, hnumbered⟩ := hlog
  rw [hnumbered i e hentry, Nat.mod_add_mod]

/-- In a log numbered in a row, the entries before a sequence number are as many as its distance from the oldest one. -/
theorem Recov.logOk_dropWhile {r : Recov} (hlog : r.logOk) {first : Nat} (hfirst : first < 2 ^ 32) :
    (r.log.dropWhile fun e => e.seq != first) =
      r.log.drop ((first + 2 ^ 32 - (r.logSeq + 2 ^ 32 - r.log.length) % 2 ^ 32) % 2 ^ 32) := by
  have hseq : ∀ i (hi : i < r.log.length), (r.log[i]).seq = ((r.logSeq + 2 ^ 32 - r.log.length) % 2 ^ 32 + i) % 2 ^ 32 :=
    fun i hi => Recov.logOk_seq hlog (List.getElem?_eq_getElem hi)
  have hlength : r.log.length ≤ 4096 := hlog.1
  rw [List.dropWhile_eq_drop_findIdx_not]
  have hold : (r.logSeq + 2 ^ 32 - r.log.length) % 2 ^ 32 < 2 ^ 32 := Nat.mod_lt _ (Nat.two_pow_pos 32)
  generalize (r.logSeq + 2 ^ 32 - r.log.length) % 2 ^ 32 = oldest at hseq hold ⊢
  have hhit : ∀ i (hi : i < r.log.length), (r.log[i]).seq = first ↔ i = (first + 2 ^ 32 - oldest) % 2 ^ 32 := fun i hi => by
    rw [hseq i hi]
    omega
  by_cases hheld : (first + 2 ^ 32 - oldest) % 2 ^ 32 < r.log.length
  · rw [(List.findIdx_eq hheld).2 ⟨by simp [hhit], fun j hj => by simp [hhit]; omega⟩]
  · have hnone : (r.log.findIdx fun e => !(e.seq != first)) = r.log.length := by
      refine List.findIdx_eq_length.2 fun e he => ?_
      obtain ⟨j, hj, rfl⟩ := List.getElem_of_mem he
      simp [hhit]
      omega
    rw [hnone, List.drop_length, List.drop_eq_nil_of_le (Nat.not_lt.1 hheld)]

/-- Settles O56: where a number lies before the oldest one the whole log is read, and else `logOk_dropWhile` says how many entries are
passed over. -/
theorem logReadsStartWhereAsked : Obligations.LogReadsStartWhereAsked := by
  intro s first hlog hfirst
  dsimp only
  cases hentries : s.rcv.log with
  | nil => simp [State.logFrom, hentries]
  | cons e es =>
    have holdest : e.seq = (s.rcv.logSeq + 2 ^ 32 - (e :: es).length) % 2 ^ 32 := by
      rw [Recov.logOk_seq hlog (i := 0) (by rw [hentries]; rfl), hentries, Nat.add_zero, Nat.mod_mod]
    have hread : s.logFrom first = if 1 ≤ (e.seq + 2 ^ 32 - first) % 2 ^ 32 ∧ (e.seq + 2 ^ 32 - first) % 2 ^ 32 < 2 ^ 31 then s.rcv.log
        else s.rcv.log.dropWhile fun x => x.seq != first := by
      unfold State.logFrom
      rw [hentries]
    rw [← holdest, hread, Recov.logOk_dropWhile hlog hfirst, hentries, ← holdest]
    exact ⟨fun hbefore => if_pos hbefore, fun hfrom => if_neg hfrom⟩

/-! ## The service button of a port (17 R551) -/

/-- What an event cannot change of the ports: the links, and the refusal patterns shown. -/
def State.portView (s : State) : Net × Tab Nat := (s.net, s.rcv.refusedPat)

theorem Posts.portView {s t : State} (h : Posts s t) : t.portView = s.portView := by
  unfold State.portView
  rw [h.net, h.rcv]

theorem Recov.withLog_refusedPat (r : Recov) (l : List LogEntry) (n : Nat) :
    ({ r with log := l, logSeq := n } : Recov).refusedPat = r.refusedPat := rfl

theorem State.logEvent_portView (s : State) (c h a b : Nat) : (s.logEvent c h a b).portView = s.portView := by
  unfold State.portView
  rw [State.logEvent_net]
  unfold State.logEvent
  exact congrArg (Prod.mk s.net) (s.rcv.withLog_refusedPat _ _)

theorem State.adopt_portView (s : State) (k ix : Nat) : (s.adopt k ix).portView = s.portView := by
  unfold State.portView State.adopt
  rfl

theorem State.bump_portView (s : State) (k n ix : Nat) : (s.bump k n ix).portView = s.portView := by
  unfold State.portView State.bump
  rfl

/-- The interface's own state is no part of it. -/
theorem State.host_portView (s : State) (x : HostIf) : ({ s with host := x } : State).portView = s.portView := rfl

theorem State.putEvent_portView (s : State) (c h a b : Nat) : (s.putEvent c h a b).portView = s.portView := by
  unfold State.putEvent
  dsimp only
  rw [(State.cqPost_posts ..).portView]
  exact s.host_portView _

theorem State.flushLost_portView (s : State) : s.flushLost.portView = s.portView := by
  unfold State.flushLost
  split
  · dsimp only
    rw [State.putEvent_portView, State.logEvent_portView]
    exact s.host_portView _
  · rfl

/-- Posting an event is recorded in the log and the rings, and changes no link and no pattern. -/
theorem State.postEvent_portView (s : State) (c h a b : Nat) : (s.postEvent c h a b).portView = s.portView := by
  unfold State.postEvent
  dsimp only
  repeat' split
  · rw [State.putEvent_portView, State.logEvent_portView, State.flushLost_portView, State.adopt_portView]
  · rw [State.bump_portView, State.host_portView, State.logEvent_portView, State.flushLost_portView, State.adopt_portView]
  · exact (State.host_portView _ _).trans ((State.logEvent_portView ..).trans (State.adopt_portView ..))
  · exact State.logEvent_portView ..

/-- A drain refused leaves every link as it is and shows the pattern for 3 s. -/
theorem State.refuseDrain_portView (s : State) (l n : Nat) :
    (s.refuseDrain l n).portView = (s.net, Tab.set s.rcv.refusedPat l (s.now + ms 3000)) := State.postEvent_portView ..

theorem State.refuseDrain_link (s : State) (l n k : Nat) : (s.refuseDrain l n).link k = s.link k :=
  congrArg (fun v : Net × Tab Nat => Tab.getD ({} : Link) v.1.links k) (s.refuseDrain_portView l n)

theorem State.refuseDrain_pattern (s : State) (l n : Nat) :
    Tab.find? (s.refuseDrain l n).rcv.refusedPat l = some (s.now + ms 3000) := by
  have hshown : (s.refuseDrain l n).rcv.refusedPat = Tab.set s.rcv.refusedPat l (s.now + ms 3000) :=
    congrArg Prod.snd (s.refuseDrain_portView l n)
  rw [hshown, Tab.find?_set, if_pos rfl]

/-- Settles O58: the press of a port's button is `portButton`, whose branches are the port's states. -/
theorem portButtonsFollowTheState : Obligations.PortButtonsFollowTheState := by
  intro l s hport hup hlive hsafe
  refine ⟨?_, fun hst _ => ⟨by rw [State.refuseDrain_link, hst], s.refuseDrain_pattern l _⟩⟩
  have hpress : s.press (buttonCode (.port l)) = s.portButton l := if_pos (show l < 64 by omega)
  refine (buttonPress_acts_pressed (.port l) s hup).trans (congrArg Host.Outcome.next (hpress.trans ?_))
  unfold State.portButton
  rw [if_neg (by simp [hlive, hsafe]; omega)]
  cases (s.link l).st <;> rfl

end Sys2Proof.Machine
end

section
/-! Traffic: shapers, gate lists, sampling, and the starting and forwarding of packets; O28, O38, O57. -/

namespace Sys2Proof.Machine

/-! ## SET_SHAPER (14 R452, R454) -/

/-- The queue a SET_SHAPER names. -/
def State.shaped (u : State) (p : Pkt) : Queue := (u.link (p.f 5 0)).queue (p.f 12 8)

/-- The values a SET_SHAPER asks for: rate, depth in bytes, interval. -/
def shaperAsked (p : Pkt) : Nat × Nat × Nat := (p.f 63 32, 64 * p.f 82 64, p.f 112 96)

/-- The device with another shaper on that queue. -/
def State.putShaper (u : State) (p : Pkt) (h : Shaper) : State :=
  u.modLink (p.f 5 0) fun x => x.setQueue (p.f 12 8) { u.shaped p with sh := h }

/-- An enabled shaper starts full; new values of one that runs wait for its next refill. -/
theorem rowSetShaper_act_enable {p : Pkt} (id : Nat) (u : State) (hon : p.b 16 = true) :
    rowSetShaper.act p id u =
      if (u.shaped p).sh.on = false then
        .done { r0 := 64 * p.f 82 64 } (u.putShaper p
          { on := true, rate := p.f 63 32, depth := 64 * p.f 82 64, interval := p.f 112 96, tokens := 64 * p.f 82 64,
            nextAt := u.portCycles (p.f 5 0) + p.f 112 96 })
      else if (u.shaped p).sh.wanted = shaperAsked p then .done { status := sOkAlready, r0 := (u.shaped p).sh.tokens } u
      else .done { r0 := (u.shaped p).sh.tokens } (u.putShaper p { (u.shaped p).sh with pend := some (shaperAsked p) }) :=
  (if_pos hon).trans (if_congr (by simp [State.shaped]) rfl rfl)

theorem rowSetShaper_act_disable {p : Pkt} (id : Nat) (u : State) (hoff : p.b 16 = false) :
    rowSetShaper.act p id u =
      if (u.shaped p).sh.on = true then .done { r0 := (u.shaped p).sh.tokens } (u.putShaper p {})
      else .done { status := sOkAlready, r0 := (u.shaped p).sh.tokens } u :=
  if_neg (by simp [hoff])

theorem setShaper_completes_enable :
    Completes rowSetShaper .setShaper (fun p u => p.b 16 = true ∧ (u.shaped p).sh.on = false) (fun p _ => { r0 := 64 * p.f 82 64 })
      (fun p u => u.putShaper p
        { on := true, rate := p.f 63 32, depth := 64 * p.f 82 64, interval := p.f 112 96, tokens := 64 * p.f 82 64,
          nextAt := u.portCycles (p.f 5 0) + p.f 112 96 }) :=
  .of (fun _ _ => rfl) fun _ u ⟨hon, hidle⟩ => (rowSetShaper_act_enable _ u hon).trans (if_pos hidle)

theorem setShaper_completes_asked :
    Completes rowSetShaper .setShaper
      (fun p u => p.b 16 = true ∧ (u.shaped p).sh.on = true ∧ (u.shaped p).sh.wanted = shaperAsked p)
      (fun p u => { status := sOkAlready, r0 := (u.shaped p).sh.tokens }) same :=
  .of (fun _ _ => rfl) fun _ u ⟨hon, hruns, hasked⟩ =>
    (rowSetShaper_act_enable _ u hon).trans ((if_neg (by simp [hruns])).trans (if_pos hasked))

theorem setShaper_completes_new :
    Completes rowSetShaper .setShaper
      (fun p u => p.b 16 = true ∧ (u.shaped p).sh.on = true ∧ (u.shaped p).sh.wanted ≠ shaperAsked p)
      (fun p u => { r0 := (u.shaped p).sh.tokens })
      (fun p u => u.putShaper p { (u.shaped p).sh with pend := some (shaperAsked p) }) :=
  .of (fun _ _ => rfl) fun _ u ⟨hon, hruns, hnew⟩ =>
    (rowSetShaper_act_enable _ u hon).trans ((if_neg (by simp [hruns])).trans (if_neg hnew))

theorem setShaper_completes_disable :
    Completes rowSetShaper .setShaper (fun p u => p.b 16 = false ∧ (u.shaped p).sh.on = true)
      (fun p u => { r0 := (u.shaped p).sh.tokens }) (fun p u => u.putShaper p {}) :=
  .of (fun _ _ => rfl) fun _ u ⟨hoff, hruns⟩ => (rowSetShaper_act_disable _ u hoff).trans (if_pos hruns)

theorem setShaper_completes_disabled :
    Completes rowSetShaper .setShaper (fun p u => p.b 16 = false ∧ (u.shaped p).sh.on = false)
      (fun p u => { status := sOkAlready, r0 := (u.shaped p).sh.tokens }) same :=
  .of (fun _ _ => rfl) fun _ u ⟨hoff, hidle⟩ => (rowSetShaper_act_disable _ u hoff).trans (if_neg (by simp [hidle]))

/-! ## Gate lists (14 R457 to R461) -/

theorem stageGateList_completes (v : State) :
    Completes rowStageGateList .stageGateList (fun p u => u.dueGate (p.f 5 0) = v)
      (fun p _ => { r0 := v.portCycles (p.f 5 0), r1 := b2n (v.link (p.f 5 0)).staged.isSome })
      (fun p _ => v.modLink (p.f 5 0) fun x => { x with staged := some { entries := gateEntries p, adoptAt := p.f 127 64 } }) :=
  .of (fun _ _ => rfl) fun _ _ hdue => by rw [← hdue]; rfl

/-- A cancellation follows an adoption that is due (14 R460). -/
theorem rowGateListCancel_act {p : Pkt} {u v : State} (id : Nat) (hdue : u.dueGate (p.f 5 0) = v) :
    rowGateListCancel.act p id u =
      if (v.link (p.f 5 0)).staged.isSome then
        .done { r0 := v.portCycles (p.f 5 0), r1 := 1 } (v.modLink (p.f 5 0) fun x => { x with staged := none })
      else .done { status := sOkAlready, r0 := v.portCycles (p.f 5 0) } v := by
  rw [← hdue]
  rfl

theorem gateListCancel_completes_staged (v : State) :
    Completes rowGateListCancel .gateListCancel (fun p u => u.dueGate (p.f 5 0) = v ∧ (v.link (p.f 5 0)).staged ≠ none)
      (fun p _ => { r0 := v.portCycles (p.f 5 0), r1 := 1 }) (fun p _ => v.modLink (p.f 5 0) fun x => { x with staged := none }) :=
  .of (fun _ _ => rfl) fun _ _ ⟨hdue, hstaged⟩ =>
    (rowGateListCancel_act _ hdue).trans (if_pos (Option.isSome_iff_ne_none.2 hstaged))

theorem gateListCancel_completes_nothing (v : State) :
    Completes rowGateListCancel .gateListCancel (fun p u => u.dueGate (p.f 5 0) = v ∧ (v.link (p.f 5 0)).staged = none)
      (fun p _ => { status := sOkAlready, r0 := v.portCycles (p.f 5 0) }) (fun _ _ => v) :=
  .of (fun _ _ => rfl) fun _ _ ⟨hdue, hnone⟩ => (rowGateListCancel_act _ hdue).trans (if_neg (by simp [hnone]))

theorem readGateList_completes (g : GateList × Nat) :
    Completes rowReadGateList .readGateList (fun p u => u.gateRead p = g)
      (fun p u => { wr := [(p.f 127 64,
        toLE 64 (pack [(9, g.1.entries.length), (7, 0), (8, g.2), (40, 0), (64, g.1.adoptAt), (64, u.portCycles (p.f 5 0)),
          (64, (g.1.entries.map (·.2)).foldl (· + ·) 0), (256, 0)]) ++
        g.1.entries.flatMap fun e => toLE 8 (pack [(32, e.1), (24, e.2), (8, 0)]))] }) same :=
  .of (fun _ _ => rfl) fun _ _ hlist => by rw [← hlist]; rfl

/-! ## SET_SAMPLING (14 R462 to R464) -/

/-- The device with the queue's sampling set and its count started anew. -/
def State.putSampling (u : State) (p : Pkt) (q : Queue) : State :=
  u.modLink (p.f 13 8) fun x => x.setQueue (p.f 20 16) { q with smpOn := p.b 21, smpLog2 := p.f 28 24, smpCount := 0 }

/-- The device with the histograms of the queue named cleared. -/
def State.clearHistograms (u : State) (p : Pkt) : State :=
  (List.range 16).foldl (fun w b => (w.setCtr kHistDepth 0 (qix (p.f 13 8) (p.f 20 16) * 16 + b)).setCtr kHistDelay 0
    (qix (p.f 13 8) (p.f 20 16) * 16 + b)) u

theorem rowSamplingQueue_act {p : Pkt} {u : State} {q : Queue} (id : Nat) (hqueue : (u.link (p.f 13 8)).queue (p.f 20 16) = q) :
    rowSamplingQueue.act p id u =
      if q.smpOn == p.b 21 && q.smpLog2 == p.f 28 24 && !p.b 22 then .done { status := sOkAlready } u
      else .done {} ((if p.b 22 then u.clearHistograms p else u).putSampling p q) := by
  rw [← hqueue]
  rfl

theorem samplingQueue_completes_same (q : Queue) :
    Completes rowSamplingQueue .samplingQueue
      (fun p u => (u.link (p.f 13 8)).queue (p.f 20 16) = q ∧ q.smpOn = p.b 21 ∧ q.smpLog2 = p.f 28 24 ∧ p.b 22 = false)
      (fun _ _ => { status := sOkAlready }) same :=
  .of (fun _ _ => rfl) fun _ _ ⟨hqueue, hon, hlog2, hkeep⟩ =>
    (rowSamplingQueue_act _ hqueue).trans (if_pos (by simp [hon, hlog2, hkeep]))

theorem samplingQueue_completes_new (q : Queue) :
    Completes rowSamplingQueue .samplingQueue
      (fun p u => (u.link (p.f 13 8)).queue (p.f 20 16) = q ∧ ¬(q.smpOn = p.b 21 ∧ q.smpLog2 = p.f 28 24) ∧ p.b 22 = false)
      (fun _ _ => {}) (fun p u => u.putSampling p q) :=
  .of (fun _ _ => rfl) fun p _ ⟨hqueue, hnew, hkeep⟩ => by
    rw [rowSamplingQueue_act _ hqueue, if_neg (by simpa [hkeep] using hnew), hkeep]
    rfl

theorem samplingQueue_completes_cleared (q : Queue) :
    Completes rowSamplingQueue .samplingQueue (fun p u => (u.link (p.f 13 8)).queue (p.f 20 16) = q ∧ p.b 22 = true)
      (fun _ _ => {}) (fun p u => (u.clearHistograms p).putSampling p q) :=
  .of (fun _ _ => rfl) fun p _ ⟨hqueue, hclear⟩ => by
    rw [rowSamplingQueue_act _ hqueue, if_neg (by simp [hclear]), hclear]
    rfl

/-- The sample ring stands as a SET_SAMPLING asks. -/
def Net.ringAsked (n : Net) (p : Pkt) : Prop :=
  if p.b 21 then n.ringOn = true ∧ n.ringOff = p.f 127 64 ∧ n.ringExt = p.f 134 128 else n.ringOn = false

theorem Net.ringAsked_iff (n : Net) (p : Pkt) :
    n.ringAsked p ↔
      (if p.b 21 then n.ringOn && n.ringOff == p.f 127 64 && n.ringExt == p.f 134 128 else !n.ringOn) = true := by
  unfold Net.ringAsked
  split <;> simp [and_assoc]

theorem samplingRing_completes_same :
    Completes rowSamplingRing .samplingRing (fun p u => u.net.ringAsked p) (fun _ _ => { status := sOkAlready }) same :=
  .of (fun _ _ => rfl) fun p u hasked => if_pos ((u.net.ringAsked_iff p).1 hasked)

theorem samplingRing_completes_new :
    Completes rowSamplingRing .samplingRing (fun p u => ¬u.net.ringAsked p) (fun _ _ => {})
      (fun p u => { u with net := { u.net with ringOn := p.b 21, ringOff := p.f 127 64, ringExt := p.f 134 128 } }.setCtr kSampleWrites 0) :=
  .of (fun _ _ => rfl) fun p u hnew => if_neg (mt (u.net.ringAsked_iff p).2 hnew)

/-- Settles O28: the cases of each command are the branches of its row's effect. -/
theorem trafficCommandsComplete : Obligations.TrafficCommandsComplete :=
  ⟨setShaper_completes_enable, setShaper_completes_asked, setShaper_completes_new, setShaper_completes_disable,
    setShaper_completes_disabled, stageGateList_completes, gateListCancel_completes_staged, gateListCancel_completes_nothing,
    readGateList_completes, samplingQueue_completes_same, samplingQueue_completes_new, samplingQueue_completes_cleared,
    samplingRing_completes_same, samplingRing_completes_new⟩

/-! ## Packets started and forwarded (13 R433, 14 R451) -/

theorem packetStart_acts_unpaced (l : Nat) :
    Acts (.packetStart l)
      (fun s => s.linkLive l = true ∧ (s.link l).st.trained = true ∧ (s.link l).kept.length < 256 ∧ s.paceOf l < 2)
      (fun s => State.drr l false 32 s) :=
  fun _ ⟨hlive, htrained, hroom, hpace⟩ => (if_pos (by simp [hlive, htrained, hroom])).trans (if_neg (Nat.not_le.2 hpace))

theorem packetStart_acts_paced (l : Nat) :
    Acts (.packetStart l)
      (fun s => s.linkLive l = true ∧ (s.link l).st.trained = true ∧ (s.link l).kept.length < 256 ∧ 2 ≤ s.paceOf l)
      (fun s => State.drr l (s.freeVal % 2 == 1) 32 s.nextFree) :=
  fun _ ⟨hlive, htrained, hroom, hpace⟩ => (if_pos (by simp [hlive, htrained, hroom])).trans (if_pos hpace)

/-- A packet that is forwarded: one for another node that is no map message, at a device with a number and in touch with its map. -/
def State.forwards (s : State) (l : Nat) (p : FPkt) : Prop :=
  s.linkLive l = true ∧ p.dst ≠ s.self ∧ floods p = false ∧ s.rcv.isolated = false ∧ s.compo.unnumbered = false

theorem exec_packetForward {s : State} {l : Nat} {p : FPkt} (hforward : s.forwards l p) :
    exec (.packetForward l p) s =
      match s.routeLink p.dst p.cls with
      | some o => if (s.link o).held.isEmpty && (s.link o).bufBytes + p.bytes ≤ extBytes then .next ((s.takeRx l (· == p)).joinQueue o p)
          else .next s
      | none => .next ((s.takeRx l (· == p)).bump kNoRoute) := by
  obtain ⟨hlive, hother, hplain, hmember, hnumbered⟩ := hforward
  exact if_pos (by simp [hlive, hother, hplain, hmember, hnumbered])

theorem packetForward_acts_route (l : Nat) (p : FPkt) (o : Nat) :
    Acts (.packetForward l p)
      (fun s => s.linkLive l = true ∧ p.dst ≠ s.self ∧ floods p = false ∧ s.rcv.isolated = false ∧ s.compo.unnumbered = false ∧
        s.routeLink p.dst p.cls = some o ∧ (s.link o).held = [] ∧ (s.link o).bufBytes + p.bytes ≤ extBytes)
      (fun s => (s.takeRx l (· == p)).joinQueue o p) := by
  intro s ⟨hlive, hother, hplain, hmember, hnumbered, hroute, hheld, hroom⟩
  rw [exec_packetForward ⟨hlive, hother, hplain, hmember, hnumbered⟩, hroute]
  exact if_pos (by simp [hheld, hroom])

theorem packetForward_acts_noRoute (l : Nat) (p : FPkt) :
    Acts (.packetForward l p)
      (fun s => s.linkLive l = true ∧ p.dst ≠ s.self ∧ floods p = false ∧ s.rcv.isolated = false ∧ s.compo.unnumbered = false ∧
        s.routeLink p.dst p.cls = none)
      (fun s => (s.takeRx l (· == p)).bump kNoRoute) := by
  intro s ⟨hlive, hother, hplain, hmember, hnumbered, hroute⟩
  rw [exec_packetForward ⟨hlive, hother, hplain, hmember, hnumbered⟩, hroute]

/-! ## Refills and gates (14 R453, R455, R456) -/

theorem shaperRefill_happens (l q : Nat) :
    Happens (.shaperRefill l q)
      (fun s => s.linkLive l = true ∧ ((s.link l).queue q).sh.on = true ∧ ((s.link l).queue q).sh.nextAt ≤ s.portCycles l)
      (fun s => s.modLink l fun x => x.setQueue q { (s.link l).queue q with sh := ((s.link l).queue q).sh.refill }) :=
  .of_guard (g := fun s => s.linkLive l && ((s.link l).queue q).sh.on && ((s.link l).queue q).sh.nextAt ≤ s.portCycles l)
    (by simp [and_assoc]) fun _ => rfl

theorem gateEntryAdvance_happens (l : Nat) :
    Happens (.gateEntryAdvance l) (fun s => s.linkLive l = true ∧ (s.link l).gateEnd ≤ s.portCycles l)
      (fun s => s.modLink l fun x => x.enter (x.gateIx + 1) x.gateEnd) :=
  .of_guard (g := fun s => s.linkLive l && (s.link l).gateEnd ≤ s.portCycles l) (by simp) fun _ => rfl

theorem gateAdopt_acts (l : Nat) (g : GateList) :
    Acts (.gateAdopt l) (fun s => s.linkLive l = true ∧ (s.link l).staged = some g ∧ g.adoptAt ≤ s.portCycles l)
      (fun s => s.adoptGate l g) := by
  intro s ⟨hlive, hstaged, hdue⟩
  change execGateAdopt l s = _
  unfold execGateAdopt
  rw [hstaged]
  exact if_pos (by simp [hlive, hdue])

/-- Settles O38: each clause is a branch of the event's effect under the test that guards it. -/
theorem trafficEventsAct : Obligations.TrafficEventsAct :=
  ⟨packetStart_acts_unpaced, packetStart_acts_paced, shaperRefill_happens, gateEntryAdvance_happens, gateAdopt_acts,
    packetForward_acts_route, packetForward_acts_noRoute⟩

/-! ## What a refill leaves (14 R453) -/

theorem Shaper.refill_eq (h : Shaper) :
    h.refill =
      (let new := h.pend.getD (h.rate, h.depth, h.interval)
       let acc := h.rem + new.1 * new.2.2
       { h with rate := new.1, depth := new.2.1, interval := new.2.2, pend := none,
                tokens := min (min h.tokens new.2.1 + acc / 1000) new.2.1, rem := acc % 1000, nextAt := h.nextAt + new.2.2 }) := by
  unfold Shaper.refill
  cases hpend : h.pend with
  | none => simp [hpend]
  | some new => rfl

theorem Link.setQueue_queue (x : Link) (q k : Nat) (v : Queue) : (x.setQueue q v).queue k = if k = q then v else x.queue k :=
  Tab.getD_put ..

theorem State.modLink_link (s : State) (l k : Nat) (f : Link → Link) : (s.modLink l f).link k = if k = l then f (s.link l) else s.link k :=
  State.setLink_link ..

/-- Settles O57: a refill replaces the shaper of its queue of its link, by `Shaper.refill`. -/
theorem shapersRefill : Obligations.ShapersRefill := by
  intro l q s h hlive hshaper hon hdue
  subst hshaper
  refine ⟨_, (shaperRefill_happens l q).1 s ⟨hlive, hon, hdue⟩, ?_, fun k hk => ?_, fun k hk => ?_, rfl⟩
  · rw [State.modLink_link, if_pos rfl, Link.setQueue_queue, if_pos rfl]
    exact Shaper.refill_eq _
  · rw [State.modLink_link, if_pos rfl, Link.setQueue_queue, if_neg hk]
  · rw [State.modLink_link, if_neg hk]

end Sys2Proof.Machine
end

section
/-! The Tumbler: its tables' commands and searches, its idle cycles, and the cascade; O29, O46. -/

namespace Sys2Proof.Machine

/-! ## Tables (15 R486, R487, R494) -/

/-- The place CREATE_TABLE chooses among the gaps of the die it names, and the device once it is chosen. -/
def State.tablePlace (u : State) (p : Pkt) : Nat × State := u.choose (runPlaces (u.rowGaps (b2n (p.b 8))) (newRows p))

theorem createTable_completes (n : Nat) :
    Completes rowCreateTable .createTable
      (fun p u => runPlace (newRows p) (u.rowGaps (b2n (p.b 8))) (u.tablePlace p).1 = some n) (fun _ _ => { r0 := n })
      (fun p u => (u.tablePlace p).2.setTable (p.f 3 0)
        { active := true, width := newWidth p, shadow := p.b 6, cascade := p.b 7, die := b2n (p.b 8), first := n, depth := p.f 49 32,
          job := p.f 27 16 }) :=
  .of (fun _ _ => rfl) fun p u hplace => by
    unfold State.tablePlace at hplace
    dsimp only [rowCreateTable]
    rw [hplace]
    rfl

theorem destroyTable_completes_absent :
    Completes rowDestroyTable .destroyTable (fun p u => (u.table (p.f 3 0)).active = false) (fun _ _ => { status := sOkAlready }) same :=
  .of (fun _ _ => rfl) fun _ _ habsent => if_pos (by simp [habsent])

theorem destroyTable_begins :
    Begins rowDestroyTable .destroyTable (fun p u => (u.table (p.f 3 0)).active = true) (fun p _ => .tumbler (p.f 3 0)) false noBound
      (fun p u => (u.adopt kInsertBound).queueJob u.lastCmd (p.f 3 0) false .destroy) :=
  .of (fun _ _ => rfl) fun _ _ hactive => if_neg (by simp [hactive])

theorem swapShadow_begins :
    Begins rowSwapShadow .swapShadow always (fun p _ => .tumbler (p.f 3 0)) false noBound
      (fun p u => (u.adopt kInsertBound).queueJob u.lastCmd (p.f 3 0) false .swap) :=
  .of (fun _ _ => rfl) fun _ _ _ => rfl

/-! ## Entries: each write is queued for idle cycles (15 R488 to R491) -/

theorem insertEntry_begins :
    Begins rowInsertEntry .insertEntry always (fun p _ => .tumbler (p.f 3 0)) false
      (fun _ u => some (us ((u.adopt kInsertBound).kv kInsertBound) + ms 250))
      (fun p u => (u.adopt kInsertBound).queueJob u.lastCmd (p.f 3 0) (p.b 4) (.insert (insEntry p (u.adopt kInsertBound)) 0)) :=
  .of (fun _ _ => rfl) fun _ _ _ => rfl

theorem updateEntry_begins :
    Begins rowUpdateEntry .updateEntry always (fun p _ => .tumbler (p.f 3 0)) false noBound
      (fun p u => (u.adopt kInsertBound).queueJob u.lastCmd (p.f 3 0) (p.b 4)
        (.update 0 (updKeys p u).1 { key := (updKeys p u).2, result := p.f 47 16, flags := p.f 11 8 } 0)) :=
  .of (fun _ _ => rfl) fun _ _ _ => rfl

theorem deleteEntry_begins :
    Begins rowDeleteEntry .deleteEntry always (fun p _ => .tumbler (p.f 3 0)) false noBound
      (fun p u => (u.adopt kInsertBound).queueJob u.lastCmd (p.f 3 0) (p.b 4) (if p.b 5 then .clearAll else .delete (insKey p u))) :=
  .of (fun _ _ => rfl) fun _ _ _ => rfl

/-! ## SEARCH (15 R492, R493) -/

/-- The records of a search of this device alone, and the device after it. -/
def State.searchAll (u : State) (p : Pkt) : List Byte × State :=
  (List.range (p.f 28 16)).foldl (fun (x : List Byte × State) i =>
    let h := x.2.searchOne (p.f 3 0) (p.b 4) (keyRec p (u.table (p.f 3 0)).width i) (p.f 351 192)
    (x.1 ++ searchRec h.1 0 sOK, h.2)) ([], u)

theorem search_completes_here (x : List Byte × State) :
    Completes rowSearch .search (fun p u => p.b 5 = false ∧ u.searchAll p = x)
      (fun p _ => { wr := [(p.f 191 128, x.1)] }) (fun _ _ => x.2) :=
  .of (fun _ _ => rfl) fun p _ ⟨hhere, hall⟩ => by
    rw [← hall]
    exact if_neg (by simp [hhere])

theorem search_completes_ringDown :
    Completes rowSearch .search (fun p u => p.b 5 = true ∧ u.tum.ringDown = true)
      (fun p _ => { wr := [(p.f 191 128, (List.range (p.f 28 16)).flatMap fun _ => searchRec none 0 sTimeout)] }) same :=
  .of (fun _ _ => rfl) fun _ _ ⟨hcascade, hdown⟩ => (if_pos hcascade).trans (if_pos hdown)

theorem search_begins_cascade :
    Begins rowSearch .search (fun p u => p.b 5 = true ∧ u.tum.ringDown = false)
      (fun p _ => .search (p.f 3 0) (p.f 28 16) (p.f 191 128) []) true noBound
      (fun p u => (List.range (p.f 28 16)).foldl
        (fun v i => v.cascSearch (p.f 3 0) (u.lastCmd + 1) 0 i (keyRec p (u.table (p.f 3 0)).width i) (p.f 351 192)) u) :=
  .of (fun _ _ => rfl) fun _ _ ⟨hcascade, hup⟩ => (if_pos hcascade).trans (if_neg (by simp [hup]))

/-- Settles O29: the cases of each command are the branches of its row's effect. -/
theorem tumblerCommandsComplete : Obligations.TumblerCommandsComplete :=
  ⟨createTable_completes, destroyTable_completes_absent, destroyTable_begins, insertEntry_begins, updateEntry_begins,
    deleteEntry_begins, search_completes_here, search_completes_ringDown, search_begins_cascade, swapShadow_begins⟩

/-! ## Idle cycles and bounds (15 R475, R477) -/

theorem exec_tumblerIdleCycle {s : State} {d : Nat} (hruns : s.runs = true) (hup : s.isFenced (14 + d) = false) :
    exec (.tumblerIdleCycle d) s =
      match (s.bump kIdleCycles 1 d).dieJobs d with
      | j :: _ => .next ((s.bump kIdleCycles 1 d).writeCycle j)
      | [] => .next (s.bump kIdleCycles 1 d) :=
  if_neg (by simp [hruns, hup])

theorem tumblerIdleCycle_acts_write (d : Nat) (j : TJob) (js : List TJob) :
    Acts (.tumblerIdleCycle d)
      (fun s => s.runs = true ∧ s.isFenced (14 + d) = false ∧ (s.bump kIdleCycles 1 d).dieJobs d = j :: js)
      (fun s => (s.bump kIdleCycles 1 d).writeCycle j) :=
  fun _ ⟨hruns, hup, hjobs⟩ => by rw [exec_tumblerIdleCycle hruns hup, hjobs]

theorem tumblerIdleCycle_acts_idle (d : Nat) :
    Acts (.tumblerIdleCycle d)
      (fun s => s.runs = true ∧ s.isFenced (14 + d) = false ∧ (s.bump kIdleCycles 1 d).dieJobs d = [])
      (fun s => s.bump kIdleCycles 1 d) :=
  fun _ ⟨hruns, hup, hjobs⟩ => by rw [exec_tumblerIdleCycle hruns hup, hjobs]

/-- The queued write of a command, or of a SEAL_PREFIX, whose bound has passed. -/
def State.lateJob (s : State) (c : Nat) : Option TJob :=
  s.tum.jobs.find? fun j => (j.cmd == c + 1 || j.sealCmd == c + 1) && decide (j.due ≤ s.now)

/-- A write whose bound has passed is given up before its commit point, and goes on after it. -/
theorem exec_insertTimeout {s : State} {c : Nat} {j : TJob} (hruns : s.runs = true) (hlate : s.lateJob c = some j) :
    exec (.insertTimeout c) s =
      match j.op with
      | .insert _ m => .next ((s.bump kInsertTimeouts).failJob j { refuse sInsertTimeout with r1 := m })
      | .update st _ _ _ => if st = 0 then .next (s.failJob j (refuse sTimeout)) else .next s
      | .delete _ => .next (s.failJob j (refuse sTimeout))
      | .clearAll => .next (s.failJob j (refuse sTimeout))
      | .swap => .next s
      | .destroy => .next s := by
  unfold State.lateJob at hlate
  change execInsertTimeout c s = _
  unfold execInsertTimeout
  rw [hlate]
  exact if_neg (by simp [hruns])

theorem insertTimeout_acts_insert (c : Nat) (j : TJob) (e : TEntry) (m : Nat) :
    Acts (.insertTimeout c) (fun s => s.runs = true ∧ s.lateJob c = some j ∧ j.op = .insert e m)
      (fun s => (s.bump kInsertTimeouts).failJob j { refuse sInsertTimeout with r1 := m }) :=
  fun _ ⟨hruns, hlate, hop⟩ => by rw [exec_insertTimeout hruns hlate, hop]

theorem insertTimeout_acts_other (c : Nat) (j : TJob) :
    Acts (.insertTimeout c)
      (fun s => s.runs = true ∧ s.lateJob c = some j ∧
        ((∃ o e n, j.op = .update 0 o e n) ∨ (∃ k, j.op = .delete k) ∨ j.op = .clearAll))
      (fun s => s.failJob j (refuse sTimeout)) := by
  intro s ⟨hruns, hlate, hop⟩
  rw [exec_insertTimeout hruns hlate]
  rcases hop with ⟨o, e, n, hop⟩ | ⟨k, hop⟩ | hop
  · rw [hop]
    exact if_pos rfl
  · rw [hop]
  · rw [hop]

/-! ## The cascade (15 R482 to R485) -/

theorem cascadeToken_acts_badCrc (tok : BitVec 512) : Acts (.cascadeToken tok false) (fun _ => True) id :=
  fun _ _ => if_pos (by simp)

/-- A device's own token is answered; one of a search has no part in whether the ring is down. -/
theorem cascadeToken_acts_own (tok : BitVec 512) (o : CascOut) :
    Acts (.cascadeToken tok true)
      (fun s => s.runs = true ∧ tok ≠ 0 ∧ s.cascSize ≠ 0 ∧ tokF tok 6 4 = s.cascPos ∧
        (s.tum.casOut.find? fun o => o.seq == tokF tok 31 16) = some o ∧ (o.cmd ≠ 0 ∨ o.ctx ≠ 0))
      (fun s => { s with tum := { s.tum with casRun := 0 } }.cascDone o (tokHit tok) (tokF tok 10 8) false) := by
  intro s ⟨hruns, htoken, hcascade, hown, hfind, hsearch⟩
  have hprobe : ¬(o.cmd == 0 && o.ctx == 0) = true := by simpa [imp_iff_not_or] using hsearch
  change execCascadeToken tok true s = _
  unfold execCascadeToken
  rw [if_neg (by simpa [hruns, hcascade] using htoken), if_pos hown, hfind]
  dsimp only
  rw [if_neg hprobe]

/-- Another device's token is passed on as it came where this device has no cascaded table of its number. -/
theorem cascadeToken_acts_passed (tok : BitVec 512) :
    Acts (.cascadeToken tok true)
      (fun s => s.runs = true ∧ tok ≠ 0 ∧ s.cascSize ≠ 0 ∧ tokF tok 6 4 ≠ s.cascPos ∧
        ((s.table (tokF tok 3 0)).active = false ∨ (s.table (tokF tok 3 0)).cascade = false))
      (fun s => { s with tum := { s.tum with sent := s.tum.sent ++ [tok] } }) := by
  intro s ⟨hruns, htoken, hcascade, hother, hnoTable⟩
  have hnone : ¬((s.table (tokF tok 3 0)).active && (s.table (tokF tok 3 0)).cascade) = true := by
    simpa [imp_iff_not_or] using hnoTable
  change execCascadeToken tok true s = _
  unfold execCascadeToken
  rw [if_neg (by simpa [hruns, hcascade] using htoken), if_neg hother]
  dsimp only
  rw [if_neg hnone]
  rfl

/-- The outstanding token of a number whose time has passed. -/
def State.lateToken (s : State) (n : Nat) : Option CascOut := s.tum.casOut.find? fun o => o.seq == n && decide (o.due ≤ s.now)

/-- A probe that does not return is answered as late, and is not counted. -/
theorem cascadeTimeout_acts_probe (n : Nat) (o : CascOut) :
    Acts (.cascadeTimeout n) (fun s => s.runs = true ∧ s.lateToken n = some o ∧ o.cmd = 0 ∧ o.ctx = 0)
      (fun s => s.cascDone o none 0 true) := by
  intro s ⟨hruns, hlate, hprobe⟩
  unfold State.lateToken at hlate
  change execCascadeTimeout n s = _
  unfold execCascadeTimeout
  rw [hlate]
  exact (if_neg (by simp [hruns])).trans (if_pos hprobe)

/-- A search's token that does not return is counted; short of three in a row the ring stays as it was. -/
theorem cascadeTimeout_acts_search (n : Nat) (o : CascOut) :
    Acts (.cascadeTimeout n)
      (fun s => s.runs = true ∧ s.lateToken n = some o ∧ (o.cmd ≠ 0 ∨ o.ctx ≠ 0) ∧ (s.bump kCascTimeouts).tum.casRun ≠ 2)
      (fun s =>
        let u := s.bump kCascTimeouts
        { u with tum := { u.tum with casRun := u.tum.casRun + 1 } }.cascDone o none 0 true) := by
  intro s ⟨hruns, hlate, hsearch, hrun⟩
  have hthird : ¬((s.bump kCascTimeouts).tum.casRun + 1 = 3 ∧
      (!{ s.bump kCascTimeouts with tum := { (s.bump kCascTimeouts).tum with
        casRun := (s.bump kCascTimeouts).tum.casRun + 1 } }.tum.ringDown) = true) := fun h => hrun (Nat.succ.inj h.1)
  unfold State.lateToken at hlate
  change execCascadeTimeout n s = _
  unfold execCascadeTimeout
  rw [hlate]
  dsimp only
  rw [if_neg (by simp [hruns]), if_neg (by tauto), if_neg hthird]

theorem cascadeProbeTimer_happens :
    Happens .cascadeProbeTimer (fun s => s.runs = true ∧ s.tum.ringDown = true ∧ s.tum.probeAt + ms 1 ≤ s.now)
      (fun s =>
        let u := ({ s with tum := { s.tum with probeAt := s.now } } : State).adopt kCascTimeout
        { u with tum := { u.tum with
          casSeq := (u.tum.casSeq + 1) % 65536
          casOut := u.tum.casOut ++ [{ seq := u.tum.casSeq, due := u.now + us (u.kv kCascTimeout) }]
          sent := u.tum.sent ++ [cascToken 0 u.cascPos u.tum.casSeq none 0 0 allOnes] } }) :=
  .of_guard (g := fun s => s.runs && s.tum.ringDown && s.tum.probeAt + ms 1 ≤ s.now) (by simp [and_assoc]) fun _ => rfl

/-- Settles O46: each clause is a branch of the event's effect under the test that guards it. -/
theorem tumblerEventsAct : Obligations.TumblerEventsAct :=
  ⟨tumblerIdleCycle_acts_write, tumblerIdleCycle_acts_idle, insertTimeout_acts_insert, insertTimeout_acts_other,
    cascadeToken_acts_own, cascadeToken_acts_passed, cascadeToken_acts_badCrc, cascadeTimeout_acts_probe, cascadeTimeout_acts_search,
    cascadeProbeTimer_happens⟩

end Sys2Proof.Machine
end

section
/-! Identity, service and boot commands: evidence, certificates, manifests, the event log, drains and FABRIC_BOOT; O30. -/

namespace Sys2Proof.Machine

/-! ## Evidence and certificates (16 R511, R512) -/

theorem getEvidence_completes_signed (v : State) :
    Completes rowGetEvidence .getEvidence (fun _ u => u.signWay = (.now, v)) (fun p _ => v.evidenceAns (p.f 255 0) (p.f 319 256))
      (fun _ _ => v.useLeaf) :=
  .of (fun _ _ => rfl) fun _ _ hway => by
    dsimp only [rowGetEvidence]
    rw [hway]

theorem getEvidence_begins_waiting (v : State) :
    Begins rowGetEvidence .getEvidence (fun _ u => u.signWay = (.later, v)) (fun p _ => .evidence (p.f 255 0) (p.f 319 256)) false
      (fun _ _ => some (ms 5000)) (fun _ _ => v) :=
  .of (fun _ _ => rfl) fun _ _ hway => by
    dsimp only [rowGetEvidence]
    rw [hway]

theorem getCertificates_completes :
    Completes rowGetCertificates .getCertificates always
      (fun p u => { r0 := (u.certObject (p.b 0)).length, wr := [(p.f 127 64, u.certObject (p.b 0))] }) same :=
  .of (fun _ _ => rfl) fun _ _ _ => rfl

/-! ## STAGE_MANIFEST (16 R520, R521) -/

/-- The manifest a STAGE_MANIFEST brings. -/
def manifestBrought (p : Pkt) : Manifest := manifestOf (manifestBytes p)

theorem rowStageManifest_act_staged {p : Pkt} {u : State} (id : Nat)
    (hstaged : ∃ m, u.compo.staged = some m ∧ m.digest = (manifestBrought p).digest) :
    rowStageManifest.act p id u = .done { status := sOkAlready } u := by
  obtain ⟨m, hm, hdigest⟩ := hstaged
  unfold manifestBrought at hdigest
  dsimp only [rowStageManifest]
  rw [hm]
  exact if_pos (by simp [hdigest])

/-- A new manifest is staged at once, or written to the flash when the flash is free. -/
theorem rowStageManifest_act_new {p : Pkt} {u : State} (id : Nat)
    (hnew : ∀ m, u.compo.staged = some m → m.digest ≠ (manifestBrought p).digest) :
    rowStageManifest.act p id u =
      if !p.b 96 then .done {} (u.stage (manifestBytes p) (p.b 97))
      else if u.flashFree then
        .wait (.persist (manifestBrought p).body (manifestBytes p) (p.b 97)) true none (u.beginPersist id (manifestBytes p) (p.b 97))
      else .wait (.persist (manifestBrought p).body (manifestBytes p) (p.b 97)) false none u := by
  unfold manifestBrought at hnew ⊢
  dsimp only [rowStageManifest]
  cases hstaged : u.compo.staged with
  | none => rfl
  | some m => exact if_neg (by simp [hnew m hstaged])

theorem stageManifest_completes_staged :
    Completes rowStageManifest .stageManifest
      (fun p u => ∃ m, u.compo.staged = some m ∧ m.digest = (manifestBrought p).digest) (fun _ _ => { status := sOkAlready }) same :=
  .of (fun _ _ => rfl) fun _ _ hstaged => rowStageManifest_act_staged _ hstaged

theorem stageManifest_completes_volatile :
    Completes rowStageManifest .stageManifest
      (fun p u => (∀ m, u.compo.staged = some m → m.digest ≠ (manifestBrought p).digest) ∧ p.b 96 = false)
      (fun _ _ => {}) (fun p u => u.stage (manifestBytes p) (p.b 97)) :=
  .of (fun _ _ => rfl) fun _ _ ⟨hnew, hvolatile⟩ => (rowStageManifest_act_new _ hnew).trans (if_pos (by simp [hvolatile]))

theorem stageManifest_begins_write :
    Begins rowStageManifest .stageManifest
      (fun p u => (∀ m, u.compo.staged = some m → m.digest ≠ (manifestBrought p).digest) ∧ p.b 96 = true ∧ u.flashFree = true)
      (fun p _ => .persist (manifestBrought p).body (manifestBytes p) (p.b 97)) true noBound
      (fun p u => u.beginPersist u.lastCmd (manifestBytes p) (p.b 97)) :=
  .of (fun _ _ => rfl) fun _ _ ⟨hnew, hpersist, hfree⟩ =>
    (rowStageManifest_act_new _ hnew).trans ((if_neg (by simp [hpersist])).trans (if_pos hfree))

theorem stageManifest_begins_wait :
    Begins rowStageManifest .stageManifest
      (fun p u => (∀ m, u.compo.staged = some m → m.digest ≠ (manifestBrought p).digest) ∧ p.b 96 = true ∧ u.flashFree = false)
      (fun p _ => .persist (manifestBrought p).body (manifestBytes p) (p.b 97)) false noBound same :=
  .of (fun _ _ => rfl) fun _ _ ⟨hnew, hpersist, hbusy⟩ =>
    (rowStageManifest_act_new _ hnew).trans ((if_neg (by simp [hpersist])).trans (if_neg (by simp [hbusy])))

/-! ## READ_EVENT_LOG (17 R547) -/

theorem readEventLog_completes_entries (e : LogEntry) (es : List LogEntry) :
    Completes rowReadEventLog .readEventLog (fun p u => (u.logFrom (p.f 31 0)).take (p.f 44 32) = e :: es)
      (fun p _ => { r0 := e.seq, r1 := es.length + 1, wr := [(p.f 127 64, (e :: es).flatMap LogEntry.bytes)] }) same :=
  .of (fun _ _ => rfl) fun _ _ hread => by
    dsimp only [rowReadEventLog]
    rw [hread]
    rfl

theorem readEventLog_completes_nothing :
    Completes rowReadEventLog .readEventLog (fun p u => (u.logFrom (p.f 31 0)).take (p.f 44 32) = [])
      (fun p _ => { r0 := p.f 31 0, r1 := 0 }) same :=
  .of (fun _ _ => rfl) fun _ _ hread => by
    dsimp only [rowReadEventLog]
    rw [hread]
    rfl

/-! ## SERVICE_DRAIN (17 R555) -/

/-- The port a SERVICE_DRAIN names, drained or restored. -/
def State.servedPort (u : State) (p : Pkt) : State := if p.b 16 then u.restorePort (p.f 13 8) else u.drainPort (p.f 13 8) .out

/-- A command that waits for the end of the drain it began in `v`. -/
def drainWait (p : Pkt) (v : State) : Done := .wait (.drain (p.f 1 0) (p.f 13 8)) true (some (serviceBound (p.f 1 0) v)) v

theorem actService_port {p : Pkt} (id : Nat) (u : State) (hport : p.f 1 0 = 0) :
    actService p id u =
      if !p.b 16 && (u.link (p.f 13 8)).st == .out then .done { status := sOkAlready } u
      else if ((u.servedPort p).link (p.f 13 8)).st = .draining then drainWait p (u.servedPort p) else .done {} (u.servedPort p) :=
  if_pos hport

theorem actService_drive {p : Pkt} (id : Nat) (u : State) (hdrive : p.f 1 0 = 1) :
    actService p id u =
      if p.b 16 then drainWait p (u.powerBay (p.f 13 8))
      else if (u.drive (p.f 13 8)).st = .safe then .done { status := sOkAlready } u else drainWait p (u.drainBay (p.f 13 8)) :=
  (if_neg (by omega)).trans (if_pos hdrive)

theorem actService_module {p : Pkt} (id : Nat) (u : State) (hmodule : 1 < p.f 1 0) :
    actService p id u = if u.rcv.modSt = .safe then .done { status := sOkAlready } u else drainWait p u.drainModule :=
  (if_neg (by omega)).trans (if_neg (by omega))

theorem serviceDrain_completes_already :
    Completes rowServiceDrain .serviceDrain
      (fun p u => (p.f 1 0 = 0 ∧ p.b 16 = false ∧ (u.link (p.f 13 8)).st = .out) ∨
        (p.f 1 0 = 1 ∧ p.b 16 = false ∧ (u.drive (p.f 13 8)).st = .safe) ∨ (1 < p.f 1 0 ∧ u.rcv.modSt = .safe))
      (fun _ _ => { status := sOkAlready }) same := by
  refine .of (fun _ _ => rfl) fun p u halready => ?_
  rcases halready with ⟨hport, hdrain, hout⟩ | ⟨hdrive, hdrain, hsafe⟩ | ⟨hmodule, hsafe⟩
  · exact (actService_port u.lastCmd u hport).trans (if_pos (by simp [hdrain, hout]))
  · exact (actService_drive u.lastCmd u hdrive).trans ((if_neg (by simp [hdrain])).trans (if_pos hsafe))
  · exact (actService_module u.lastCmd u hmodule).trans (if_pos hsafe)

theorem serviceDrain_begins_port (v : State) :
    Begins rowServiceDrain .serviceDrain
      (fun p u => p.f 1 0 = 0 ∧ ¬(p.b 16 = false ∧ (u.link (p.f 13 8)).st = .out) ∧ u.servedPort p = v ∧
        (v.link (p.f 13 8)).st = .draining)
      (fun p _ => .drain (p.f 1 0) (p.f 13 8)) true (fun p _ => some (serviceBound (p.f 1 0) v)) (fun _ _ => v) := by
  refine .of (fun _ _ => rfl) fun p u ⟨hport, hserved, hv, hdraining⟩ => ?_
  subst hv
  exact (actService_port u.lastCmd u hport).trans ((if_neg (by simpa using hserved)).trans (if_pos hdraining))

theorem serviceDrain_completes_port (v : State) :
    Completes rowServiceDrain .serviceDrain
      (fun p u => p.f 1 0 = 0 ∧ ¬(p.b 16 = false ∧ (u.link (p.f 13 8)).st = .out) ∧ u.servedPort p = v ∧
        (v.link (p.f 13 8)).st ≠ .draining)
      (fun _ _ => {}) (fun _ _ => v) := by
  refine .of (fun _ _ => rfl) fun p u ⟨hport, hserved, hv, hsettled⟩ => ?_
  subst hv
  exact (actService_port u.lastCmd u hport).trans ((if_neg (by simpa using hserved)).trans (if_neg hsettled))

theorem serviceDrain_begins_other (v : State) :
    Begins rowServiceDrain .serviceDrain
      (fun p u => (p.f 1 0 = 1 ∧ p.b 16 = true ∧ u.powerBay (p.f 13 8) = v) ∨
        (p.f 1 0 = 1 ∧ p.b 16 = false ∧ (u.drive (p.f 13 8)).st ≠ .safe ∧ u.drainBay (p.f 13 8) = v) ∨
        (1 < p.f 1 0 ∧ u.rcv.modSt ≠ .safe ∧ u.drainModule = v))
      (fun p _ => .drain (p.f 1 0) (p.f 13 8)) true (fun p _ => some (serviceBound (p.f 1 0) v)) (fun _ _ => v) := by
  refine .of (fun _ _ => rfl) fun p u hbegins => ?_
  rcases hbegins with ⟨hdrive, hrestore, rfl⟩ | ⟨hdrive, hdrain, hunsafe, rfl⟩ | ⟨hmodule, hunsafe, rfl⟩
  · exact (actService_drive u.lastCmd u hdrive).trans (if_pos hrestore)
  · exact (actService_drive u.lastCmd u hdrive).trans ((if_neg (by simp [hdrain])).trans (if_neg hunsafe))
  · exact (actService_module u.lastCmd u hmodule).trans (if_neg hunsafe)

/-! ## FABRIC_BOOT (16 R522) -/

theorem fabricBoot_begins :
    Begins rowFabricBoot .fabricBoot always (fun _ _ => .fabricBoot) true noBound
      (fun _ u => if u.compo.phase = .idle then u.initiate else u) :=
  .of (fun _ _ => rfl) fun _ _ _ => rfl

/-- Settles O30: the cases of each command are the branches of its row's effect. -/
theorem serviceCommandsComplete : Obligations.ServiceCommandsComplete :=
  ⟨getEvidence_completes_signed, getEvidence_begins_waiting, getCertificates_completes, stageManifest_completes_staged,
    stageManifest_completes_volatile, stageManifest_begins_write, stageManifest_begins_wait, readEventLog_completes_entries,
    readEventLog_completes_nothing, serviceDrain_completes_already, serviceDrain_begins_port, serviceDrain_completes_port,
    serviceDrain_begins_other, fabricBoot_begins⟩

end Sys2Proof.Machine
end

section
/-! The cold boot stage by stage, SPDM, the management bus and the ends of copies; O35, O49. -/

namespace Sys2Proof.Machine

/-! ## The mask ROM and stage 1 (16 R502, R504) -/

/-- The boot ROM may choose a slot: it works, and the board does not hold the flash. -/
def State.romWorks (s : State) : Prop := s.runs = true ∧ s.idn.boot = .rom ∧ s.board.flashGnt = false

theorem State.romWorks_iff (s : State) : (s.runs && s.idn.boot == .rom && !s.board.flashGnt) = true ↔ s.romWorks := by
  simp [State.romWorks, and_assoc]

theorem exec_stage1Start {s : State} (hrom : s.romWorks) :
    exec .stage1Start s =
      match s.slotOrder.find? s.slotOk with
      | none => .next s.bootStops
      | some b =>
        let u := ({ s with idn := { s.idn with boot := .stage1, slotB := b } } : State).setMeas 1 (imageDigest (s.bundle b) 1)
        .next (if !s.idn.badA && !s.idn.badB then u.burnSubtree else u) :=
  if_pos (s.romWorks_iff.2 hrom)

/-- A slot that verifies starts; the first start of a cold boot burns the subtree's fuse. -/
theorem stage1Start_acts_slot (b first : Bool) :
    Acts .stage1Start
      (fun s => s.runs = true ∧ s.idn.boot = .rom ∧ s.board.flashGnt = false ∧ s.slotOrder.find? s.slotOk = some b ∧
        (first = true ↔ s.idn.badA = false ∧ s.idn.badB = false))
      (fun s =>
        let u := ({ s with idn := { s.idn with boot := .stage1, slotB := b } } : State).setMeas 1 (imageDigest (s.bundle b) 1)
        if first then u.burnSubtree else u) := by
  intro s ⟨hruns, hboot, hflash, hslot, hfirst⟩
  have hboth : (!s.idn.badA && !s.idn.badB) = first := by
    rw [Bool.eq_iff_iff, hfirst]
    simp
  rw [exec_stage1Start ⟨hruns, hboot, hflash⟩, hslot]
  dsimp only
  rw [hboth]

theorem stage1Start_acts_noSlot :
    Acts .stage1Start
      (fun s => s.runs = true ∧ s.idn.boot = .rom ∧ s.board.flashGnt = false ∧ s.slotOrder.find? s.slotOk = none) State.bootStops :=
  fun _ ⟨hruns, hboot, hflash, hnone⟩ => by rw [exec_stage1Start ⟨hruns, hboot, hflash⟩, hnone]

theorem stage1Start_acts_elsewhere : Acts .stage1Start (fun s => ¬s.romWorks) id := fun s helse => if_neg (mt s.romWorks_iff.1 helse)

/-! ## The images of the bundle (16 R504) -/

/-- Stage 1 may check the images: it runs, and the board does not hold the flash. -/
def State.stage1Works (s : State) : Prop := s.runs = true ∧ s.idn.boot = .stage1 ∧ s.board.flashGnt = false

theorem State.stage1Works_iff (s : State) : (s.runs && s.idn.boot == .stage1 && !s.board.flashGnt) = true ↔ s.stage1Works := by
  simp [State.stage1Works, and_assoc]

theorem firmwareImagesChecked_acts_match (b : Bool) (h : List Byte) (u v : State) :
    Acts .firmwareImagesChecked
      (fun s => s.runs = true ∧ s.idn.boot = .stage1 ∧ s.board.flashGnt = false ∧ s.idn.slotB = b ∧ s.bundle b = h ∧
        [2, 3, 4].all (s.kindOk b h) = true ∧ (bundleEntries h).all (s.imageOk b h) = true ∧
        ((s.setMeas 2 (imageDigest h 2)).setMeas 3 (imageDigest h 3)).setMeas 4 (imageDigest h 4) = u ∧
        (if u.idn.exhausted then u.recordFuses else u) = v)
      (fun _ => { v with idn := { v.idn with boot := .running, identityOk := identityMatches },
                         compo := { v.compo with staged := v.flashStored } }.coldReady) := by
  rintro s ⟨hruns, hboot, hflash, rfl, rfl, hkinds, himages, rfl, rfl⟩
  exact (if_pos (s.stage1Works_iff.2 ⟨hruns, hboot, hflash⟩)).trans (if_pos (Bool.and_eq_true_iff.2 ⟨hkinds, himages⟩))

/-- A slot with an image that fails is abandoned; with both slots abandoned the boot stops. -/
theorem firmwareImagesChecked_acts_mismatch (b : Bool) (h : List Byte) (u : State) :
    Acts .firmwareImagesChecked
      (fun s => s.runs = true ∧ s.idn.boot = .stage1 ∧ s.board.flashGnt = false ∧ s.idn.slotB = b ∧ s.bundle b = h ∧
        ¬([2, 3, 4].all (s.kindOk b h) = true ∧ (bundleEntries h).all (s.imageOk b h) = true) ∧
        { s with idn := { s.idn with boot := .rom, badA := s.idn.badA || !b, badB := s.idn.badB || b } } = u)
      (fun _ => if u.idn.badA && u.idn.badB then u.bootStops else u) := by
  rintro s ⟨hruns, hboot, hflash, rfl, rfl, hfails, rfl⟩
  exact (if_pos (s.stage1Works_iff.2 ⟨hruns, hboot, hflash⟩)).trans (if_neg (mt Bool.and_eq_true_iff.1 hfails))

theorem firmwareImagesChecked_acts_elsewhere : Acts .firmwareImagesChecked (fun s => ¬s.stage1Works) id :=
  fun s helse => if_neg (mt s.stage1Works_iff.1 helse)

/-! ## HBM training and the signing subtree (16 R504, R507) -/

theorem hbmTrainingComplete_happens (failed : List Nat) :
    Happens (.hbmTrainingComplete failed)
      (fun s => s.runs = true ∧ (s.idn.boot = .stage1 ∨ s.idn.boot = .running) ∧ s.idn.hbmUp = false)
      (fun s => (failed.foldl (fun (u : State) h => u.fenceDie (stackDie h) 1) { s with idn := { s.idn with hbmUp := true } }).coldReady) :=
  .of_guard (g := fun s => s.runs && (s.idn.boot == .stage1 || s.idn.boot == .running) && !s.idn.hbmUp) (by simp [and_assoc])
    fun _ => rfl

theorem subtreeGenerated_happens :
    Happens .subtreeGenerated
      (fun s => s.runs = true ∧ (s.idn.boot = .stage1 ∨ s.idn.boot = .running) ∧ s.idn.signing = false ∧ s.idn.exhausted = false ∧
        s.idn.subtree < s.idn.thermo)
      (fun s => { s.recordFuses with idn := { s.recordFuses.idn with signing := true } }.serveEvidence) :=
  .of_guard
    (g := fun s => s.runs && (s.idn.boot == .stage1 || s.idn.boot == .running) && !s.idn.signing && !s.idn.exhausted &&
      decide (s.idn.subtree < s.idn.thermo))
    (by simp [and_assoc]) fun _ => rfl

/-- Settles O35: each clause is a branch of the event's effect under the test that guards it. -/
theorem coldBootEventsAct : Obligations.ColdBootEventsAct :=
  ⟨stage1Start_acts_slot, stage1Start_acts_noSlot, stage1Start_acts_elsewhere, firmwareImagesChecked_acts_match,
    firmwareImagesChecked_acts_mismatch, firmwareImagesChecked_acts_elsewhere, hbmTrainingComplete_happens, subtreeGenerated_happens⟩

/-! ## SPDM requests (16 R513) -/

theorem spdmRequest_acts_unsigned (t : Transport) (r : SpdmReq) :
    Acts (.spdmRequest t r) (fun s => s.spdmUp t = true ∧ spdmKnown r = true ∧ spdmSigned r = false)
      (fun s => (s.spdmSend t (Config.spdmAnswer r s.measurements s.free)).nextFree) := by
  intro s ⟨hup, hknown, hunsigned⟩
  change execSpdmRequest t r s = _
  unfold execSpdmRequest
  rw [hunsigned, if_neg (by simp [hup]), if_neg (by simp [hknown]), if_neg (by simp)]
  rfl

/-- A signed answer leaves the hash it was signed over for the vendor request. -/
theorem spdmRequest_acts_signed (t : Transport) (r : SpdmReq) :
    Acts (.spdmRequest t r)
      (fun s => s.spdmUp t = true ∧ spdmKnown r = true ∧ spdmSigned r = true ∧ s.idn.identityOk = true ∧
        (s.idn.signing = true ∨ s.idn.exhausted = true))
      (fun s => ((s.spdmSend t (Config.spdmAnswer r s.measurements s.free)).setM t (Config.spdmHash r s.measurements s.free)).nextFree) := by
  intro s ⟨hup, hknown, hsigned, hidentity, hready⟩
  have hwait : ¬(true && !s.idn.signing && !s.idn.exhausted) = true := by simpa [imp_iff_not_or] using hready
  change execSpdmRequest t r s = _
  unfold execSpdmRequest
  rw [hsigned, if_neg (by simp [hup]), if_neg (by simp [hknown, hidentity]), if_neg hwait]
  rfl

theorem spdmRequest_acts_down (t : Transport) (r : SpdmReq) : Acts (.spdmRequest t r) (fun s => s.spdmUp t = false) id :=
  fun _ hdown => if_pos (by simp [hdown])

/-! ## The HSS signature over the last signed answer (16 R514) -/

theorem exec_vendorDefinedRequest {s : State} {t : Transport} (hup : s.spdmUp t = true) :
    exec (.vendorDefinedRequest t 1) s =
      match s.spdmM t with
      | none => .next (s.spdmSend t [])
      | some m =>
        match s.signWay with
        | (.never st, v) => .next (v.spdmSend t (toLE 2 st))
        | (.later, v) => .next (v.spdmSend t (Config.spdmNotReady (.other 1)))
        | (.now, v) => .next ((v.spdmSend t (padTo 3188 (Config.hssSign v.idn.subtree v.idn.leaf m))).useLeaf) :=
  (if_neg (by simp [hup])).trans (if_neg (by simp))

theorem vendorDefinedRequest_acts_now (t : Transport) (m : List Byte) (v : State) :
    Acts (.vendorDefinedRequest t 1) (fun s => s.spdmUp t = true ∧ s.spdmM t = some m ∧ s.signWay = (.now, v))
      (fun _ => (v.spdmSend t (padTo 3188 (Config.hssSign v.idn.subtree v.idn.leaf m))).useLeaf) :=
  fun _ ⟨hup, hhash, hway⟩ => by rw [exec_vendorDefinedRequest hup, hhash, hway]

theorem vendorDefinedRequest_acts_noHash (t : Transport) :
    Acts (.vendorDefinedRequest t 1) (fun s => s.spdmUp t = true ∧ s.spdmM t = none) (fun s => s.spdmSend t []) :=
  fun _ ⟨hup, hhash⟩ => by rw [exec_vendorDefinedRequest hup, hhash]

theorem vendorDefinedRequest_acts_never (t : Transport) (m : List Byte) (st : Nat) (v : State) :
    Acts (.vendorDefinedRequest t 1) (fun s => s.spdmUp t = true ∧ s.spdmM t = some m ∧ s.signWay = (.never st, v))
      (fun _ => v.spdmSend t (toLE 2 st)) :=
  fun _ ⟨hup, hhash, hway⟩ => by rw [exec_vendorDefinedRequest hup, hhash, hway]

/-! ## The management bus (16 R515) -/

theorem entdaa_happens (a : Nat) :
    Happens (.entdaa a) (fun s => s.board.pwrok = true ∧ s.idn.i3cAddr = 0 ∧ 8 ≤ a ∧ a ≤ 0x7D)
      (fun s => { s with idn := { s.idn with i3cAddr := a } }) :=
  .of_guard (g := fun s => s.board.pwrok && s.idn.i3cAddr == 0 && 8 ≤ a && a ≤ 0x7D) (by simp [and_assoc]) fun _ => rfl

theorem rstdaa_happens : Happens .rstdaa (fun s => s.board.pwrok = true) (fun s => { s with idn := { s.idn with i3cAddr := 0 } }) :=
  .of_guard (g := fun s => s.board.pwrok) (fun _ => Iff.rfl) fun _ => rfl

theorem i3cBusReset_happens :
    Happens .i3cBusReset (fun s => s.board.pwrok = true) (fun s => { s with idn := { s.idn with i3cAddr := 0 } }) :=
  .of_guard (g := fun s => s.board.pwrok) (fun _ => Iff.rfl) fun _ => rfl

theorem mctpControlMessage_happens (b : List Byte) :
    Happens (.mctpControlMessage b)
      (fun s => s.board.pwrok = true ∧ s.idn.i3cAddr ≠ 0 ∧ (s.rcv.fatal = false ∨ s.idn.boot = .stopped))
      (fun s => s.spdmSend .mctp (Config.mctpAnswer b)) :=
  .of_guard (g := fun s => s.board.pwrok && s.idn.i3cAddr != 0 && (!s.rcv.fatal || s.idn.boot == .stopped)) (by simp [and_assoc])
    fun _ => rfl

/-! ## Ends of copies (02 R584, 04 R142, R144) -/

/-- The end of a copy is that of the command in flight that waits for it. -/
theorem exec_objectCopyComplete {s : State} {n : Nat} {f : Inflight} (x : Option ObjFetch) (hruns : s.runs = true)
    (hfind : (s.inflight.find? fun f => f.id == n) = some f) :
    exec (.objectCopyComplete n x) s =
      match f.wait with
      | .copy k a b t o => .next ((s.copyDone k a b t o).2.finish f (s.copyDone k a b t o).1)
      | .fetch id t => .next (s.fetched f id t x)
      | .sealing i m o e _ left =>
        if left = m ∧ !(s.tum.jobs.any fun j => j.sealCmd == n + 1) then .next (s.sealCopied f i m o e) else .next s
      | _ => .next s := by
  change execObjectCopyComplete n x s = _
  unfold execObjectCopyComplete
  rw [hfind]
  exact if_neg (by simp [hruns])

theorem objectCopyComplete_acts_copy (n : Nat) (x : Option ObjFetch) (f : Inflight) (k : ObjKind) (a b t o : Nat) :
    Acts (.objectCopyComplete n x)
      (fun s => s.runs = true ∧ (s.inflight.find? fun f => f.id == n) = some f ∧ f.wait = .copy k a b t o)
      (fun s => (s.copyDone k a b t o).2.finish f (s.copyDone k a b t o).1) :=
  fun _ ⟨hruns, hfind, hwait⟩ => by rw [exec_objectCopyComplete x hruns hfind, hwait]

theorem objectCopyComplete_acts_fetch (n : Nat) (x : Option ObjFetch) (f : Inflight) (id t : Nat) :
    Acts (.objectCopyComplete n x)
      (fun s => s.runs = true ∧ (s.inflight.find? fun f => f.id == n) = some f ∧ f.wait = .fetch id t) (fun s => s.fetched f id t x) :=
  fun _ ⟨hruns, hfind, hwait⟩ => by rw [exec_objectCopyComplete x hruns hfind, hwait]

/-- A seal's copy is taken over before any of its index entries has been inserted. -/
theorem objectCopyComplete_acts_seal (n : Nat) (x : Option ObjFetch) (f : Inflight) (i b o e m : Nat) :
    Acts (.objectCopyComplete n x)
      (fun s => s.runs = true ∧ (s.inflight.find? fun f => f.id == n) = some f ∧ f.wait = .sealing i b o e m b ∧
        (s.tum.jobs.any fun j => j.sealCmd == n + 1) = false)
      (fun s => s.sealCopied f i b o e) := by
  intro s ⟨hruns, hfind, hwait, hnoJob⟩
  rw [exec_objectCopyComplete x hruns hfind, hwait]
  exact if_pos ⟨rfl, by rw [hnoJob]; rfl⟩

/-- Settles O49: each clause is a branch of the event's effect under the test that guards it. -/
theorem identityEventsAct : Obligations.IdentityEventsAct :=
  ⟨spdmRequest_acts_unsigned, spdmRequest_acts_signed, spdmRequest_acts_down, vendorDefinedRequest_acts_now,
    vendorDefinedRequest_acts_noHash, vendorDefinedRequest_acts_never, entdaa_happens, rstdaa_happens, i3cBusReset_happens,
    mctpControlMessage_happens, objectCopyComplete_acts_copy, objectCopyComplete_acts_fetch, objectCopyComplete_acts_seal⟩

end Sys2Proof.Machine
end

section
/-! Fabric boot: its messages and timers; O47. -/

namespace Sys2Proof.Machine

/-! ## Start, LINK, CLAIM and FLOOD (16 R523 to R526) -/

theorem boot_happens (l u c e : Nat) :
    Happens (.boot l u c e) (fun s => s.mapOn l = true ∧ s.unseen 1 u (c * 65536 + e) = true)
      (fun s =>
        let v := (s.gotMgmt l (.boot u c)).see 1 u (c * 65536 + e)
        (if v.compo.phase = .idle then v.startBoot u c else v).flood (some l) (.boot u c)) :=
  .of_guard (g := fun s => s.mapOn l && s.unseen 1 u (c * 65536 + e)) (by simp) fun _ => rfl

theorem linkPhaseEnd_happens :
    Happens .linkPhaseEnd
      (fun s => s.fwUp = true ∧ s.compo.phase = .link ∧
        (((List.range 40).any fun l => (s.link l).st == .training) = false ∨ s.compo.phaseAt + ms (s.kv kLinkPhase) ≤ s.now))
      (fun s =>
        let c := s.compo
        let v := (if c.unnumbered then s else (s.see 2 s.idn.uid c.epoch).flood none (.claim s.idn.uid c.claimNode)).floodOwn
        { v with compo := { v.compo with phase := .flood, phaseAt := v.now } }) :=
  .of_guard
    (g := fun s => s.fwUp && s.compo.phase == .link &&
      (!((List.range 40).any fun l => (s.link l).st == .training) || s.compo.phaseAt + ms (s.kv kLinkPhase) ≤ s.now))
    (by simp [and_assoc]) fun _ => rfl

theorem claim_happens (l u n e : Nat) :
    Happens (.claim l u n e) (fun s => s.mapOn l = true ∧ s.unseen 2 u e = true)
      (fun s => ((((s.gotMgmt l (.claim u n)).see 2 u e).flood (some l) (.claim u n)).stir).yieldNumber u n) :=
  .of_guard (g := fun s => s.mapOn l && s.unseen 2 u e) (by simp) fun _ => rfl

theorem sliceTable_happens (l : Nat) (t : SliceTab) :
    Happens (.sliceTable l t) (fun s => s.mapOn l = true ∧ s.unseen 3 t.uid (tabIdent t) = true)
      (fun s =>
        let v := ((s.gotMgmt l (.sliceTable t)).see 3 t.uid (tabIdent t)).flood (some l) (.sliceTable t)
        if v.compo.phase = .idle then v else (v.keepTable t).stir) :=
  .of_guard (g := fun s => s.mapOn l && s.unseen 3 t.uid (tabIdent t)) (by simp) fun _ => rfl

/-! ## AGREE (16 R527, R528) -/

theorem floodQuietExpiry_acts_flood :
    Acts .floodQuietExpiry (fun s => s.fwUp = true ∧ s.compo.phase = .flood ∧ s.compo.phaseAt + us (s.kv kFloodQuiet) ≤ s.now)
      (fun s =>
        let v := { s.exclude with compo := { s.exclude.compo with phase := .agree, phaseAt := s.exclude.now } }
        if v.proposes then v.propose ((v.newestEpoch + 1) % 65536) else v) :=
  fun _ ⟨hup, hflood, hdue⟩ => if_pos (by simp [hup, hflood, hdue])

/-- After a failed round the proposer proposes the next epoch. -/
theorem floodQuietExpiry_acts_again :
    Acts .floodQuietExpiry
      (fun s => s.fwUp = true ∧ s.compo.phase = .agree ∧ s.compo.waiting = true ∧ s.compo.phaseAt + us (s.kv kFloodQuiet) ≤ s.now)
      (fun s => if s.proposes then s.propose ((s.compo.propEpoch + 1) % 65536) else s) :=
  fun _ ⟨hup, hagree, hwaiting, hdue⟩ => (if_neg (by simp [hagree])).trans (if_pos (by simp [hup, hagree, hwaiting, hdue]))

theorem propose_acts (l e u m md dg : Nat) :
    Acts (.propose l e u m md dg) (fun s => s.mapOn l = true ∧ s.unseen 5 u e = true)
      (fun s =>
        let v := ((s.gotMgmt l (.propose e u m md dg)).see 5 u e).flood (some l) (.propose e u m md dg)
        if v.fwUp && (v.compo.phase == .flood || v.compo.phase == .agree) then v.judgeProposal l e m dg else v) :=
  fun _ ⟨hon, hunseen⟩ => if_pos (by simp [hon, hunseen])

/-- An answer to the round that is open here is taken in. -/
theorem exec_agreeAck {s : State} {l e : Nat} (f c : Nat) (nak : Bool)
    (hopen : s.mapOn l = true ∧ s.fwUp = true ∧ s.compo.phase = .agree ∧ s.compo.proposed = true ∧ s.compo.propEpoch = e ∧
      s.compo.waiting = false) :
    exec (.agreeAck l f e c nak) s =
      let v := s.gotMgmt l (.ack e c nak)
      if nak then
        if v.proposes then .next v.failRound
        else
          let v := { v with compo := { v.compo with acked := true } }
          match v.parentOf s.compo.claimNode with
          | some p => .next (v.toNeighbour p (.ack e 0 true))
          | none => .next v
      else .next { v with compo := { v.compo with acks := Tab.set v.compo.acks f c } }.tryAck := by
  obtain ⟨hon, hup, hagree, hproposed, hepoch, hwaiting⟩ := hopen
  exact if_pos (by simp [hon, hup, hagree, hproposed, hepoch, hwaiting])

theorem agreeAck_acts_ack (l f e c : Nat) :
    Acts (.agreeAck l f e c false)
      (fun s => s.mapOn l = true ∧ s.fwUp = true ∧ s.compo.phase = .agree ∧ s.compo.proposed = true ∧ s.compo.propEpoch = e ∧
        s.compo.waiting = false)
      (fun s =>
        let v := s.gotMgmt l (.ack e c false)
        { v with compo := { v.compo with acks := Tab.set v.compo.acks f c } }.tryAck) :=
  fun _ hopen => (exec_agreeAck f c false hopen).trans (if_neg Bool.false_ne_true)

theorem agreeAck_acts_nak (l f e c : Nat) :
    Acts (.agreeAck l f e c true)
      (fun s => s.mapOn l = true ∧ s.fwUp = true ∧ s.compo.phase = .agree ∧ s.compo.proposed = true ∧ s.compo.propEpoch = e ∧
        s.compo.waiting = false ∧ (s.gotMgmt l (.ack e c true)).proposes = true)
      (fun s => (s.gotMgmt l (.ack e c true)).failRound) :=
  fun _ ⟨hon, hup, hagree, hproposed, hepoch, hwaiting, hproposes⟩ =>
    (exec_agreeAck f c true ⟨hon, hup, hagree, hproposed, hepoch, hwaiting⟩).trans ((if_pos rfl).trans (if_pos hproposes))

theorem agreeTimeout_acts_boot :
    Acts .agreeTimeout (fun s => s.fwUp = true ∧ s.compo.phase ≠ .idle ∧ s.compo.startAt + ms (s.kv kFbTimeout) ≤ s.now) State.failBoot :=
  fun _ ⟨hup, hbooting, hlate⟩ => if_pos (by simp [hup, hbooting, hlate])

theorem agreeTimeout_acts_round :
    Acts .agreeTimeout
      (fun s => s.fwUp = true ∧ s.compo.phase = .agree ∧ s.compo.waiting = false ∧ s.now < s.compo.startAt + ms (s.kv kFbTimeout) ∧
        s.compo.phaseAt + ms (s.kv kAgreeTimeout) ≤ s.now ∧ s.proposes = true) State.failRound :=
  fun _ ⟨hup, hagree, hwaiting, hintime, hlate, hproposes⟩ =>
    (if_neg (by simp [hintime])).trans ((if_pos (by simp [hup, hagree, hwaiting, hlate])).trans (if_pos hproposes))

/-! ## COMMIT (16 R529) -/

theorem mapCommit_acts (l e dg : Nat) :
    Acts (.mapCommit l e dg) (fun s => s.mapOn l = true ∧ s.unseen 7 0 e = true)
      (fun s =>
        let v := ((s.gotMgmt l (.commit e dg)).see 7 0 e).flood (some l) (.commit e dg)
        if !v.fwUp || v.compo.phase = .idle then v
        else if v.compo.unnumbered then v.commitOutside e v.candidates.length
        else if v.compo.phase == .agree && e == v.compo.propEpoch && dg == v.memberDigest then v.commitMap e
        else v) := by
  intro s ⟨hon, hunseen⟩
  change execMapCommit l e dg s = _
  unfold execMapCommit
  rw [if_pos (by simp [hon, hunseen])]
  dsimp only
  simp only [apply_ite Host.Outcome.next]

/-- Settles O47: each clause is a branch of the event's effect under the test that guards it. -/
theorem fabricBootEventsAct : Obligations.FabricBootEventsAct :=
  ⟨boot_happens, linkPhaseEnd_happens, claim_happens, sliceTable_happens, floodQuietExpiry_acts_flood, floodQuietExpiry_acts_again,
    propose_acts, agreeAck_acts_ack, agreeAck_acts_nak, agreeTimeout_acts_boot, agreeTimeout_acts_round, mapCommit_acts⟩

end Sys2Proof.Machine
end
